-- ==== Sys2Proof/Word.lean ====
section
/-!
DEFINITION. The byte type. Quantities, counters and identifiers of the manual are Nat and Int; words that software
reads and writes whole (status registers, maps) are bit vectors; payloads and buffers are lists of bytes.
-/

namespace Sys2Proof

/-- One byte of a payload, a buffer or a stored structure. -/
abbrev Byte := BitVec 8

end Sys2Proof
end

