-- ==== Sys2Proof/Syntax/Inputs.lean ====
section
/-!
DEFINITION. The operands that the outside world and the analogue part supply with a command.
-/

namespace Sys2Proof

/-- The clock sources of Table TK-1, in the order of the event recorder's code (21 Table EV-2). -/
inductive Clock where
  | xref | rtc | rco0 | rco1 | plla | pllb | pllc | plln | pllp
deriving DecidableEq, Repr, Inhabited

/-- The loss of a clock source, and whether the monitor has detected it (02 R49, R69, Table TK-1). -/
structure ClockStop where
  clock : Clock
  seen : Bool := true
deriving DecidableEq, Repr, Inhabited

/-- A copy of a record kept twice in MRAM: of a port's and of a group's calibration record (07 R189), a journal slot
(08 R207), a copy of Keystone's record (12 R311). -/
inductive MramCopy where
  | portCal (p k : Nat)
  | groupCal (g k : Nat)
  | slot (k : Nat)
  | ksRecord (k : Nat)
deriving DecidableEq, Repr, Inhabited

/-- The inputs sampled at the release of reset (03 R80, Table PU-4), and the copies in MRAM of which a word reads with an
uncorrectable error from then on (08 R204). -/
structure Straps where
  bootsel : Bool := false
  testmode : Bool := false
  lost : List MramCopy := []
deriving DecidableEq, Repr, Inhabited

/-- What the silicon shows when an image starts: lanes that fail their known-answer vector (25 R540), and registers with an
uncorrectable word in MRAM (08 R218). -/
structure StartIn where
  failed : List Nat := []
  errs : List Nat := []
deriving DecidableEq, Repr, Inhabited

/-- What reaches the device in one tick (02 R55 Table TK-3): the outputs of the decimators, the conversions of the
SAR pool made in the tick before, the levels of the safety and seal inputs, and which units met their deadlines. -/
structure TickIn where
  /-- The 112 FIR outputs of the tick boundary, before saturation (05 R134, R135; log 20) -/
  samples : List Int := []
  /-- Modulator bits captured since the last tick, 2,048 of each stream listed with its number, oldest first: the decimation
  chain forms the sample of such a stream from them (05 R131, R134) -/
  bits : List (Nat × List Bool) := []
  /-- Streams whose STUCK or OVERRANGE condition has ceased (05 R148) -/
  ceased : List Nat := []
  /-- CP codes, 16 per port (05 R153) -/
  cp : List (List Nat) := []
  /-- PP codes, 4 per port (05 R153) -/
  pp : List (List Nat) := []
  /-- CFB codes, 4 per port (05 R153) -/
  cfb : List (List Nat) := []
  /-- Reference conversions of the six converters, 5 codes each, 125 of SAR5 while idle (05 R156, R157) -/
  refs : List (List Nat) := []
  /-- MESH_I followed the drive throughout the tick (19 R460) -/
  meshOk : Bool := true
  /-- MAGS codes of the tick, 8 (05 R155) -/
  mags : List Nat := []
  /-- LS_SENSE codes of the tick, 8 channels (05 R155) -/
  sense : List Nat := []
  /-- VAUX sense codes of the tick, 4 (05 R155) -/
  vaux : List Nat := []
  /-- TEMP0 codes of the tick, 2 (05 R155) -/
  temp0 : List Nat := []
  /-- TEMP1 codes of the tick, 2 (05 R155) -/
  temp1 : List Nat := []
  /-- SIN_A high, SIN_B high (12 R293) -/
  sin : Bool × Bool := (true, false)
  /-- SSR_A high, SSR_B high (12 R293) -/
  ssr : Bool × Bool := (true, false)
  /-- Both cores read identical levels on all four input balls (12 R299) -/
  coresAgree : Bool := true
  /-- The test pattern injected into the input synchronisers is read back right by each of them (12 R299) -/
  injectOk : Bool := true
  /-- Read-back levels of SOK_A and SOK_B: true high (12 R298) -/
  sok : Bool × Bool := (false, true)
  /-- SEAL_N reads low: open (15 R363) -/
  sealLow : Bool := false
  /-- Keystone's tick work met its deadline (02 R55) -/
  ksDone : Bool := true
  /-- The Orchard sequencer's tick work met its deadline (02 R55) -/
  orDone : Bool := true
  /-- Lintel's tick work met its deadline (02 R55) -/
  liDone : Bool := true
  /-- Ports whose handshake work missed its deadline (02 R55) -/
  hsMissed : List Nat := []
  /-- Lanes whose work missed its deadline (02 R55) -/
  laneMissed : List Nat := []
  /-- Crossings whose transfer of this tick is not acknowledged before that of the next (02 R59, R60) -/
  late : List Nat := []
deriving DecidableEq, Repr, Inhabited

end Sys2Proof
end

