-- ==== Sys2Proof/Syntax.lean ====
section
/-!
DEFINITION. The commands of the block: one constructor per row of the table of operations and events.
A mailbox command names the channel whose request buffer holds it (04 R113 to R116); an event row carries what
the outside world or the analogue part supplies; everything else is read from the state.
-/

namespace Sys2Proof

/-- The commands and events of the OT2484, in the order of the table. -/
inductive Instr where
  /-- HOST_WRITE_FRAME (R106): A host write frame, taken whole, is staged and CRC-checked, then answered with an ACK code; a write to the identification and status block takes effect at the ACK. -/
  | hostWriteFrame (cmd addr len : Nat) (data : List Byte) (crc : Nat)
  /-- STAGED_WRITE_COMMIT (R106): A staged write into the boot window or a mailbox buffer finishes its commit to the bus domain over MC11, and HRDY rises. -/
  | stagedWriteCommit
  /-- RTC_TIME_READ (R109): A host read of RTC_TIME makes one request over MC13 and returns wait bytes until the reply arrives; a wait sets ACCESS_PENDING. -/
  | rtcTimeRead
  /-- FRAME_ABANDONED (R70): The host releases HCS_N while an access waits; the access stays pending, and ABANDONED and ABANDON_DOMAIN are set. -/
  | frameAbandoned (bus : Bool)
  /-- PENDING_ACCESS_COMPLETE (R70): A pending access into a stopped domain completes when its clock returns; the result of an abandoned read is discarded. -/
  | pendingAccessComplete (bus : Bool)
  /-- REGISTER_WRITE (R111): A write to a host register that has no row of its own: W1C bits, IRQ_ENABLE, HL_ERR_COUNT, BW_CHUNK or BW_SEQ, or a reserved or RO field. -/
  | registerWrite (addr value : Nat)
  /-- DOORBELL (R115): Writing 1 to bit c of DB_RING makes an IDLE channel PENDING, or is ignored and sets DB_IGNORED when the channel is not IDLE. -/
  | doorbell (ch : Nat)
  /-- RESPONSE_RELEASE (R115): Writing 1 to bit c of IRQ_STATUS.MBX_RESP releases the response buffer, and the channel returns to IDLE. -/
  | responseRelease (ch : Nat)
  /-- NOTIFICATION_DELIVER (R120): A queued notification is placed in the free response buffer of the notification channel and signalled through MBX_RESP. -/
  | notificationDeliver
  /-- BW_SUBMIT (R84): Writing BW_CTRL.GO submits the chunk that BW_CHUNK and BW_SEQ describe; a busy buffer gives BUF_BUSY and a held window gives HELD. -/
  | bwSubmit
  /-- BW_RELEASE (R82): Writing BW_CTRL.RELEASE ends the BOOTSEL wait in SELFTEST. -/
  | bwRelease
  /-- BW_ABORT_IMAGE (R93): Writing BW_CTRL.ABORT_IMAGE discards the image named in BW_CHUNK.IMAGE, which becomes EMPTY. -/
  | bwAbortImage
  /-- CHUNK_CONSUMED (R84): Plinth finishes processing a submitted chunk, sets LAST_STATUS and sets the buffer's FREE bit again. -/
  | chunkConsumed (x : StartIn)
  /-- FULL_RESET (R74): A full reset is asserted by RESET_N, PGOOD, the power-on monitor, OFF-HOLD or a cause of R44, and clears SRAM and stops all processors. -/
  | fullReset (causes : List Nat) (torn : Bool)
  /-- RESET_RELEASE (R80): Reset is released, BOOTSEL and TESTMODE are sampled, and Plinth enters SELFTEST. -/
  | resetRelease (straps : Straps) (errs : List Nat)
  /-- SELFTEST_DONE (R80): Plinth ends SELFTEST and opens the boot window, or enters HALTED on a fatal self-test fault. -/
  | selftestDone (fatal : Bool)
  /-- AP_WARM_RESTART (R77): AP restarts without a full reset after its digest is rechecked; a request in service is answered RESTARTED, or AP becomes FAILED and the window reopens. -/
  | apWarmRestart (corrupt : Bool)
  /-- TABLE_STAGING_TIMEOUT (R124): Table staging is discarded when no segment has come from the owning channel for 10 s. -/
  | tableStagingTimeout
  /-- TABLE_EFFECT (R125): An accepted table takes effect at the first tick boundary after acceptance, after its Cairn entry for a sealed table. -/
  | tableEffect
  /-- TABLE_LOAD (R124): Command that carries one segment of a parameter table into staging and checks the table on the final segment. -/
  | tableLoad (ch : Nat)
  /-- TABLE_INFO (R123): Command that returns the version, length, CRC and state of a table. -/
  | tableInfo (ch : Nat)
  /-- LINK_ECHO (R116): Command that returns the request payload unchanged. -/
  | linkEcho (ch : Nat)
  /-- NOTIFY_ROUTE (R120): Command that selects the notification channel and the subsystem mask. -/
  | notifyRoute (ch : Nat)
  /-- BOOT_INFO (R474): Command that reports the versions, digests and load times of the loaded images. -/
  | bootInfo (ch : Nat)
  /-- FRONT_END_STATUS (R140): Command that reports stream, converter, lane and path states and counters. -/
  | frontEndStatus (ch : Nat)
  /-- PATH_HOLD (R159): Command that holds a phase on one metering path or releases it, with the seal open. -/
  | pathHold (ch : Nat)
  /-- READ_PORT (R163): Command that returns the fast or cycle values of a port. -/
  | readPort (ch : Nat)
  /-- READ_GROUP (R174): Command that returns group voltages, frequency, angles, events and hub values. -/
  | readGroup (ch : Nat)
  /-- READ_HARMONICS (R170): Command that returns the harmonic analysis of one channel. -/
  | readHarmonics (ch : Nat)
  /-- PULSE_SELECT (R180): Command that selects the source and direction of a pulse output. -/
  | pulseSelect (ch : Nat)
  /-- ENERGY_READ (R204): Command that returns a range of energy registers from one complete commit. -/
  | energyRead (ch : Nat)
  /-- CAL_READ (R190): Command that returns a calibration record, its state and raw averages. -/
  | calRead (ch : Nat)
  /-- CAL_STAGE (R198): Command that stages a calibration block on AP. -/
  | calStage (ch : Nat)
  /-- CAL_COMMIT (R199): Command that writes staged calibration records to MRAM after their Cairn entries and starts composition. -/
  | calCommit (ch : Nat)
  /-- CAL_DISCARD (R198): Command that discards staged calibration blocks. -/
  | calDiscard (ch : Nat)
  /-- CAL_PULSE (R201): Command that drives a pulse output from one phase of one port for calibration, or ends it. -/
  | calPulse (ch : Nat)
  /-- PORT_STATUS (R231): Command that reports the pilot, proximity and lock state of ports. -/
  | portStatus (ch : Nat)
  /-- CP_MODE (R241): Command that selects the NOMINAL, HLC or OFF pilot mode of a port. -/
  | cpMode (ch : Nat)
  /-- PORT_AVAIL (R245): Command that makes a port available or unavailable. -/
  | portAvail (ch : Nat)
  /-- PORT_LOCK (R238): Command that requests lock or release of a socket lock. -/
  | portLock (ch : Nat)
  /-- CP_WAKE (R244): Command that drives the pilot steady low for WAKE_MS to wake a vehicle. -/
  | cpWake (ch : Nat)
  /-- LINTEL_STATUS (R247): Command that reports allocations, line limits and site-share state. -/
  | lintelStatus (ch : Nat)
  /-- LINTEL_SET (R266): Command that sets a port's priority and host maximum. -/
  | lintelSet (ch : Nat)
  /-- RC_STATUS (R271): Command that reports residual values, switch commands and CFB states. -/
  | rcStatus (ch : Nat)
  /-- RC_CLEAR (R274): Command that ends a residual-trip veto when its conditions are met. -/
  | rcClear (ch : Nat)
  /-- SAFE_STOP (R300): Command that starts a host safe stop, cause 0x01, on the ports named. -/
  | safeStop (ch : Nat)
  /-- SAFETY_STATUS (R308): Command that reports safety wires, SOK, the switch word and safe-stop state. -/
  | safetyStatus (ch : Nat)
  /-- TARIFF_STATUS (R321): Command that reports time, rate in force and tariff versions. -/
  | tariffStatus (ch : Nat)
  /-- DEMAND_READ (R326): Command that reports demand values and maxima. -/
  | demandRead (ch : Nat)
  /-- BILLING_READ (R331): Command that returns a billing snapshot. -/
  | billingRead (ch : Nat)
  /-- TIME_SET (R335): Command that sets or trims the RTC after MAC and counter checks. -/
  | timeSet (ch : Nat)
  /-- TARIFF_ACTIVATE (R322): Command that requests activation of the passive tariff table at the next whole second. -/
  | tariffActivate (ch : Nat)
  /-- ACCOUNT_READ (R340): Command that returns an Ashlar record. -/
  | accountRead (ch : Nat)
  /-- ACCOUNT_SET (R567): Command that sets or recreates an account after MAC and counter checks. -/
  | accountSet (ch : Nat)
  /-- TOKEN_APPLY (R356): Command that applies a top-up token to an account. -/
  | tokenApply (ch : Nat)
  /-- SESSION_START (R344): Command that opens a session on a port against an account. -/
  | sessionStart (ch : Nat)
  /-- SESSION_END (R352): Command that ends a session by withdrawing its permit. -/
  | sessionEnd (ch : Nat)
  /-- SESSION_STATUS (R348): Command that reports credit state and charge of sessions. -/
  | sessionStatus (ch : Nat)
  /-- CAIRN_READ (R373): Command that returns Cairn entries as stored. -/
  | cairnRead (ch : Nat)
  /-- CAIRN_STATUS (R369): Command that reports seal state and Cairn sequence marks. -/
  | cairnStatus (ch : Nat)
  /-- NF_STATUS (R378): Command that reports the contactless front-ends. -/
  | nfStatus (ch : Nat)
  /-- CARD_DATA_STAGE (R389): Command that stages a profile write for a card UID. -/
  | cardDataStage (ch : Nat)
  /-- PL_STATUS (R411): Command that reports the Chashao couplings and MAC state. -/
  | plStatus (ch : Nat)
  /-- PL_SEND (R417): Command that queues a DATA frame on the Chashao link. -/
  | plSend (ch : Nat)
  /-- QUARRY_STATUS (R430): Command that reports Quarry chips, wear and ledger state. -/
  | quarryStatus (ch : Nat)
  /-- PROFILE_READ (R437): Command that returns load-profile records. -/
  | profileRead (ch : Nat)
  /-- SESSION_LOG_READ (R353): Command that returns session records. -/
  | sessionLogRead (ch : Nat)
  /-- KEY_UPDATE (R456): Command that writes, erases or zeroises Drupe slots by an authenticated key-update message. -/
  | keyUpdate (ch : Nat)
  /-- DRUPE_STATUS (R453): Command that reports the device identity and vault slot states. -/
  | drupeStatus (ch : Nat)
  /-- RIND_STATUS (R465): Command that reports mesh, cover and magnetic state. -/
  | rindStatus (ch : Nat)
  /-- UPDATE_STAGE (R471): Command that opens an update with a checked manifest. -/
  | updateStage (ch : Nat)
  /-- UPDATE_DATA (R472): Command that carries one chunk of a staged update. -/
  | updateData (ch : Nat)
  /-- UPDATE_ACTIVATE (R473): Command that quiesces, checks and starts a staged image, or falls back. -/
  | updateActivate (ch : Nat)
  /-- UPDATE_COMMIT (R478): Command that burns floor fuses up to the running security epoch. -/
  | updateCommit (ch : Nat) (blown : Nat)
  /-- UPDATE_ABORT (R469): Command that closes an update before activation. -/
  | updateAbort (ch : Nat)
  /-- UPDATE_STATUS (R469): Command that reports the update state and image versions. -/
  | updateStatus (ch : Nat)
  /-- ACTIVATION_PAUSE_END (R473): The activated target sets its own READY_MAP bit again, which ends the activation pause. -/
  | activationPauseEnd (pause : Nat)
  /-- EVREC_READ (R493): Command that returns event-recorder entries. -/
  | evrecRead (ch : Nat)
  /-- EVREC_CLEAR (R492): Command that moves CLEARED_SEQ and writes a CLEARED entry. -/
  | evrecClear (ch : Nat)
  /-- EVREC_STATUS (R493): Command that reports the recorder's sequence marks and counts. -/
  | evrecStatus (ch : Nat)
  /-- LS_SET (R497): Command that switches a load channel on or off with a level. -/
  | lsSet (ch : Nat)
  /-- LS_STATUS (R502): Command that reports load channels and VAUX. -/
  | lsStatus (ch : Nat)
  /-- LS_CLEAR (R500): Command that clears a channel's thermal latch. -/
  | lsClear (ch : Nat)
  /-- LS_SENSE_SELECT (R502): Command that chooses the channel mirrored on SENSE_OUT. -/
  | lsSenseSelect (ch : Nat)
  /-- DISP_STATUS (R516): Command that reports display state and CRCs. -/
  | dispStatus (ch : Nat)
  /-- DISP_CONTROL (R518): Command that switches the display on or off or selects the shown surface. -/
  | dispControl (ch : Nat)
  /-- DISP_WRITE (R515): Command that writes bytes into a frame-memory region. -/
  | dispWrite (ch : Nat)
  /-- PS_ENTER (R525): Command that requests STANDBY, subject to the refusers of Table PS-2. -/
  | psEnter (ch : Nat)
  /-- PS_STATUS (R537): Command that reports power-state counters and settings. -/
  | psStatus (ch : Nat)
  /-- FENCE_REQUEST (R541): Command that fences a domain on the host's request. -/
  | fenceRequest (ch : Nat)
  /-- FENCE_LIFT (R542): Command that lifts a requested or AP-held fence after its lift test. -/
  | fenceLift (ch : Nat) (pass : Bool)
  /-- SPARES_STATUS (R539): Command that reports the state of the spares. -/
  | sparesStatus (ch : Nat)
  /-- AVAIL_READ (R545): Command that reports the availability counters. -/
  | availRead (ch : Nat)
  /-- TICK (R55): Each tick start runs the per-tick work of every tick-domain and Keystone unit in the windows of Table TK-3. -/
  | tick (i : TickIn)
  /-- COMMIT_TICK (R208): On every 8th tick, or on a forced or boundary commit, Orchard writes the journal slot and then the register image. -/
  | commitTick
  /-- WATCHDOG_EXPIRY (R50): The Keystone watchdog expires after two missing feeds and causes a full reset. -/
  | watchdogExpiry
  /-- CLOCK_LOSS (R49): A clock monitor detects loss of XREF, loss of PLL lock or a stopped RTC oscillator, and the reaction of Table TK-1 follows. -/
  | clockLoss (x : ClockStop)
  /-- PLL_RELOCK (R48): A PLL completes its relock after a loss of lock, and its domain resumes. -/
  | pllRelock (k : Clock)
  /-- LOCKSTEP_DIVERGENCE (R289): The Keystone comparator finds a mismatch between the cores, which causes a full reset. -/
  | lockstepDivergence
  /-- PWM_RISING_EDGE (R224): At a port's PWM rising edge the generator latches the mode and duty in force. -/
  | pwmRisingEdge (p : Nat)
  /-- PWM_PERIOD_END (R229): The handshake unit classifies a port's ended PWM period from its CP samples. -/
  | pwmPeriodEnd (p : Nat)
  /-- CP_STATE_CHANGE (R231): A class held for its debounce becomes the port's state, with the reactions of Table VH-6. -/
  | cpStateChange (p : Nat)
  /-- PP_STATE_CHANGE (R235): A PP band held for PP_DEB periods becomes the PP state and sets the cable limit, or reports PP_LOST. -/
  | ppStateChange (p : Nat)
  /-- DIODE_PROBE (R228): A port without a low sample for DIODE_AGE periods gets one period at PROBE_DUTY. -/
  | diodeProbe (p : Nat)
  /-- CP_WAKE_END (R244): WAKE_MS after a CP_WAKE the port returns to the mode of Table VH-3. -/
  | cpWakeEnd (p : Nat)
  /-- OVERDRAW (R243): A phase above the overdraw threshold for OVERDRAW_CYCLES cycles is reported to Keystone, which stops the port. -/
  | overdraw (p : Nat)
  /-- LOCK_REQUEST (R238): A lock is requested when the port in B, C or D gets a permit or LOCK_AT_PLUG applies, and pull-in starts. -/
  | lockRequest (p : Nat)
  /-- LOCK_PULL_END (R237): After LOCK_PULL_MS the lock channel drops to LOCK_HOLD_PCT. -/
  | lockPullEnd (p : Nat)
  /-- LOCKED (R238): The lock current lies in the window for 10 samples and the lock becomes LOCKED. -/
  | locked (p : Nat)
  /-- LOCK_TIMEOUT (R238): A lock not LOCKED within LOCK_PULL_MS + 50 ms becomes FAULT. -/
  | lockTimeout (p : Nat)
  /-- LOCK_LOST (R240): A LOCKED lock faults on a channel fault, a current out of window or a budget refusal, and is reported to Keystone. -/
  | lockLost (p : Nat) (budget : Bool)
  /-- LOCK_RELEASE (R239): A requested release is carried out at the first tick in which CFB reports both switches open. -/
  | lockRelease (p : Nat)
  /-- ZERO_CROSSING (R143): A positive-going crossing of a group's reference line ends the mains cycle and drives the cycle-based rules. -/
  | zeroCrossing (g : Nat)
  /-- CYCLE_TIMEOUT (R143): No crossing within 178 ticks ends the cycle, and the group moves to the substitute cycle. -/
  | cycleTimeout (g : Nat)
  /-- SUBSTITUTE_CYCLE_END (R143): A 160-tick substitute cycle ends and the lines are judged again. -/
  | substituteCycleEnd (g : Nat)
  /-- SUPPLY_EVENT_CHANGE (R174): A supply event sets or clears after its cycle counts and gives its report, Cairn entry or stop. -/
  | supplyEventChange (g : Nat)
  /-- HARMONIC_WINDOW_END (R170): A DFT window of 10 or 12 cycles ends and the harmonic results are reported. -/
  | harmonicWindowEnd (g : Nat)
  /-- TEMP_BAND_SECOND (R193): Once per second Orchard takes the die temperature, compares the sensors and sets the temperature band. -/
  | tempBandSecond
  /-- STREAM_FAULT (R148): A STUCK or OVERRANGE condition on a stream makes the decimator deliver the fault marker. -/
  | streamFault (k cond : Nat)
  /-- BIAS_WINDOW_END (R148): A bias window ends and the stream's mean is judged. -/
  | biasWindowEnd (k : Nat)
  /-- STREAM_FAILED (R149): A fault marker held for 8 ticks, or a bias failure, fails the stream and fences its port or group. -/
  | streamFailed (k : Nat)
  /-- SAR_SPARE_TAKEOVER (R27): Two successive reference self-test failures move the converter's slot list to SAR5, or fence its ports. -/
  | sarSpareTakeover (k : Nat)
  /-- SAR5_FAIL (R157): SAR5 fails its self-test in two successive ticks and is fenced. -/
  | sar5Fail
  /-- LANE_SHADOW_ROTATE (R29): Once per second the free spare lanes move to shadow other active lanes. -/
  | laneShadowRotate
  /-- LANE_MISMATCH (R30): A shadow mismatch runs the known-answer vector, and the failing lane is withdrawn. -/
  | laneMismatch (l sp : Nat) (lanePass spPass : Bool)
  /-- LANE_SELF_CHECK (R31): With no free spare, the checksum and known-answer vector are run on each lane once per second. -/
  | laneSelfCheck (failed : List Nat)
  /-- RC_TRIP (R273): A trip counter reaches its time, and Keystone drives both switches low and vetoes the port. -/
  | rcTrip (p : Nat)
  /-- CLOSING_SEQUENCE (R280): Keystone starts the closing sequence when an energy request arrives and nothing forbids conduction. -/
  | closingSequence (p : Nat)
  /-- PLAUS_JUDGE (R275): After the 512-tick window the residual plausibility is judged and OFFSET stored, or PLAUS_FAIL is reported. -/
  | plausJudge (p : Nat)
  /-- CLOSING_STEP_TIMER (R280): A timed step of the closing sequence ends and the next switch test or closing begins. -/
  | closingStepTimer (p : Nat)
  /-- PULL_IN_DEADLINE (R280): PULL_MS after closing, a CFB state other than CLOSED is a CLOSE_FAIL. -/
  | pullInDeadline (p : Nat)
  /-- CLOSE_RETRY (R276): 10 s after a failure, Keystone repeats the closing sequence while the request persists. -/
  | closeRetry (p : Nat)
  /-- SWITCH_PROOF_PULSE (R284): An off-pulse proves one switch of a conducting port, and its result is judged. -/
  | switchProofPulse (p : Nat)
  /-- CFB_FAULT_DETECT (R286): A CFB pattern held for CFB_DEB ticks gives a fault of Table RC-7, with its reaction. -/
  | cfbFaultDetect (p : Nat)
  /-- WELD_CHECK (R283): After DROP_MS with both switches off, current or CFB reveals a WELDED or MIRROR_OPEN fault. -/
  | weldCheck (p : Nat)
  /-- OPEN_ON_LOW_CURRENT (R282): After a move from C or D to B, Keystone opens both switches at the first tick with every phase below 0.5 A. -/
  | openOnLowCurrent (p : Nat)
  /-- OPEN_UNDER_LOAD (R282): OPEN_MS after the request ends, Keystone opens the port under load and reports it. -/
  | openUnderLoad (p : Nat)
  /-- ENERGY_REMOVAL (R302): A ramp-down ends by LOW, ENVELOPE or DEADLINE, and Keystone drives both switches low and commands STEADY_HIGH. -/
  | energyRemoval (p : Nat)
  /-- SAFE_STOP_END (R302): A stopping port becomes safe, and the override, permit and hold end while vetoes and fences apply. -/
  | safeStopEnd (p : Nat)
  /-- SIN_DEMAND (R295): SIN comes into demand, and every port loses energy, permits and the right to conduct in that tick. -/
  | sinDemand
  /-- SSR_DEMAND (R296): SSR comes into demand, and every conducting port starts safe stop under a veto. -/
  | ssrDemand
  /-- SAFETY_INPUT_HEALTHY (R293): A safety channel reads its healthy level for its debounce count. -/
  | safetyInputHealthy (ssr : Bool)
  /-- DISCREPANCY (R294): One channel in demand and the other healthy for DISC_MS latches DISCREPANCY. -/
  | discrepancy (ssr : Bool)
  /-- RESTART_TIMER (R295): RESTART_S after SIN or SSR is healthy, the safety veto ends. -/
  | restartTimer (ssr : Bool)
  /-- SOK_FAULT (R298): A SOK ball differs from its drive in 2 ticks, and both balls are held at not reached. -/
  | sokFault
  /-- SEAL_SWITCH_SCAN (R307): The sealed switch matrix is scanned both ways each second, and changes or disagreements are logged. -/
  | sealSwitchScan (fwd rev : Nat)
  /-- SEAL_CHANGE (R363): A new SEAL_N level holds for 64 samples and becomes the seal state, which shuts or, after its entry, opens the seal-gated port. -/
  | sealChange
  /-- SEAL_PORT_OPEN (R363): The seal-gated port opens in the tick after the SEAL_OPENED entry is in MRAM. -/
  | sealPortOpen
  /-- PFAIL_N_CONFIRMED (R212): PFAIL_N low for 2 µs starts the supply-loss sequence of Table EG-5. -/
  | pfailNConfirmed
  /-- PFAIL_N_RISE (R215): PFAIL_N rises before a reset, service continues and SUPPLY_RETURN is logged. -/
  | pfailNRise
  /-- HOLDUP_S_CHANGE (R555): A fall or rise of HOLDUP_S writes HOLDUP_LOW or HOLDUP_OK to the event recorder. -/
  | holdupSChange (level : Bool)
  /-- FEEDER_OVERLOAD_STOP (R258): A line's overload accumulator reaches 1, and Lintel selects ports for a forced stop. -/
  | feederOverloadStop (g l : Nat)
  /-- OVERLOAD_WARNING (R257): An accumulator reaching 0.5, or returning to 0, enters or leaves the warning stage. -/
  | overloadWarning (g l : Nat)
  /-- HOLD_END (R255): A hold ends when the current falls or SETTLE_S passes. -/
  | holdEnd (p : Nat)
  /-- ROTATE_POINTER (R254): Every ROTATE_S the admission pointer of each class moves on. -/
  | rotatePointer
  /-- SUPERFRAME_START (R262): At a superframe boundary the master computes grants and the site share in force changes. -/
  | superframeStart
  /-- GRANT_FALLBACK (R264): A member with no grant for 4 superframes falls back to FALLBACK. -/
  | grantFallback
  /-- EPOCH_MIX_END (R265): 4 superframes without a lower epoch end mixed epochs. -/
  | epochMixEnd
  /-- RESERVATION_ACCEPT (R346): Orchard accepts a session reservation at the next tick, or refuses it if a start value changed. -/
  | reservationAccept
  /-- SESSION_SETTLE (R352): At the end commit AP settles the charge into the Ashlar record and writes the end record. -/
  | sessionSettle
  /-- RESTORE_SETTLEMENT (R354): After a full reset AP settles every session without an end record. -/
  | restoreSettlement
  /-- SESSION_CHECKPOINT (R353): Every 60 s an open session writes a checkpoint record. -/
  | sessionCheckpoint
  /-- BOUNDARY_TICK (R319): In a boundary tick Orchard applies rate switches, closes demand intervals and billing periods, and commits. -/
  | boundaryTick
  /-- TIME_INVALID (R317): TIME_VALID clears on a stopped RTC, RTC supply loss or time before the last boundary. -/
  | timeInvalid (reason : Nat)
  /-- CAIRN_ENTRY_WRITE (R367): The Cairn writer takes a queued entry, forms its LINK and writes it to MRAM. -/
  | cairnEntryWrite
  /-- NF_PING (R378): Every PING_MS a front-end sends a carrier burst, measures detuning and tracks or starts polling. -/
  | nfPing (n a : Nat) (phi : Int)
  /-- NF_BASELINE (R379): 16 pings set the baseline, and NFn_RDY sets. -/
  | nfBaseline (n : Nat) (l : List (Nat × Int))
  /-- CARD_RESPONSE (R385): A card's answer frame is received and the reader proceeds with its transaction. -/
  | cardResponse (n : Nat) (ans : List Byte) (pos lm : Nat)
  /-- FIELD_DETECT (R392): An external field held for 1 ms raises the wake, drives FD_WAKE and suspends pings. -/
  | fieldDetect (n : Nat)
  /-- FIELD_END (R392): After the field ends, FD_WAKE falls and pings resume. -/
  | fieldEnd (n : Nat)
  /-- EMULATION_FRAME (R391): The framer answers a reader frame in card emulation. -/
  | emulationFrame (n : Nat) (f : List Byte)
  /-- MAINT_ENVELOPE (R394): A maintenance envelope authenticates a session or carries a message to channel 6 or 7. -/
  | maintEnvelope (n : Nat) (env : List Byte)
  /-- MAINT_SESSION_TIMEOUT (R394): 60 s without a message ends the maintenance session. -/
  | maintSessionTimeout (n : Nat)
  /-- ZC_EDGE (R411): A ZC input edge is stamped and reference crossings follow. -/
  | zcEdge (k stamp noise : Nat)
  /-- PL_FRAME_RX (R416): A received Chashao frame passes its checks and is delivered. rxA, rxB, rxC: the receive samples
  of each coupling from the preamble on; mid: their mid-level; ago: reference crossings since the one that began it. -/
  | plFrameRx (rxA rxB rxC : List Nat) (mid ago : Nat)
  /-- PL_FRAME_TX (R417): At its slot a queued frame or ACK is transmitted. -/
  | plFrameTx (off : List Bool)
  /-- PL_ACK_TIMEOUT (R417): No ACK brings a retry, up to 3 times. -/
  | plAckTimeout
  /-- WAKE_PREAMBLE (R424): In STANDBY the wake detector finds a Robust preamble and raises the wake. rx: per coupling the
  samples from that preamble on; mid: their mid-level. -/
  | wakePreamble (rx : List (List Nat)) (mid : Nat)
  /-- QUARRY_JOB (R32): SE receives a Quarry request in a traffic class. -/
  | quarryJob
  /-- NAND_OP_COMPLETE (R441): A NAND operation completes and SE continues the operation it belongs to. -/
  | nandOpComplete (chan op outcome : Nat)
  /-- JOURNAL_CHECKPOINT (R439): Every 512 journal units SE writes a checkpoint. -/
  | journalCheckpoint
  /-- LEDGER_RECLAIM (R444): Free blocks at 8 start a ledger reclaim. -/
  | ledgerReclaim
  /-- STATIC_MOVE (R435): An erase-count spread above 500 moves the coldest block. -/
  | staticMove
  /-- SCRUB (R436): Read-disturb or retention triggers a read-through and rewrite. -/
  | scrub
  /-- SESSION_SWEEP (R440): Every 60 s pending session records move into their zone. -/
  | sessionSweep
  /-- REMASK (R451): Every 60 s the vault remasks each cell. -/
  | remask (bad kcvBad : List Nat)
  /-- RNG_HEALTH_FAIL (R452): The vault random source fails a test and remasking stops. -/
  | rngHealthFail (continuous : Bool)
  /-- MESH_BREAK (R460): Four mismatched mesh bits detect a break, which asserts the zeroise line. -/
  | meshBreak (reading : Nat)
  /-- COVER_OPEN (R461): COVER_N high for 10 ms is COVER_OPEN, which zeroises if the bit is set. -/
  | coverOpen
  /-- COVER_CLOSED (R461): COVER_N low for 100 ms is cover closed. -/
  | coverClosed
  /-- TAMPER_CAIRN_ENTRY (R464): Keystone turns a latched tamper event into its Cairn entry and clears the latch. -/
  | tamperCairnEntry
  /-- MAG_EVENT_START (R465): A MAGS level at or above MAG_SET for MAG_SET_MS begins a magnetic event. -/
  | magEventStart
  /-- MAG_EVENT_END (R465): A level below MAG_CLEAR for MAG_CLEAR_MS ends the event. -/
  | magEventEnd
  /-- EVREC_WRITE (R489): The write port takes an entry, assigns SEQ and writes the ring. -/
  | evrecWrite
  /-- EVREC_SPILL (R490): 64 unspilled entries are spilled to Quarry. -/
  | evrecSpill
  /-- LS_LATCH (R500): A limiter active for 2 ms or overtemperature latches a channel off. -/
  | lsLatch (c cause ma : Nat)
  /-- GLOBAL_FOLDBACK (R501): A sum above 4.0 A for 50 µs folds back one channel. -/
  | globalFoldback (ma : List Nat)
  /-- FOLDBACK_END (R501): A sum below 3.8 A for 10 ms ends the fold-back. -/
  | foldbackEnd (sum : Nat)
  /-- INRUSH_WINDOW_END (R499): INRUSH_MS after switch-on the limit returns to normal. -/
  | inrushWindowEnd (c : Nat)
  /-- LS_PERIOD_START (R497): At a channel's period start the duty in force, lamp duty included, is applied. -/
  | lsPeriodStart (c : Nat)
  /-- OPEN_LOAD_CHECK (R503): Every 100 ms an off channel is checked for open load. -/
  | openLoadCheck (c : Nat) (above : Bool)
  /-- VAUX_DIP (R504): VAUX below 6.0 V turns every channel off and enters hold-down. -/
  | vauxDip (mv : Nat)
  /-- HOLD_DOWN_END (R504): VAUX above 7.0 V for 1 ms ends hold-down. -/
  | holdDownEnd (mv : Nat)
  /-- LS_RESUME (R504): Channels commanded on resume one every 1 ms. -/
  | lsResume
  /-- LS_STARTUP_TEST (R506): After reset release each off channel is tested, and LS_RDY sets. -/
  | lsStartupTest (c : Nat) (pass : Bool)
  /-- FRAME_START (R515): At each frame the CRC is checked and the safe frame may be shown. -/
  | frameStart (upset : List (Nat × Byte))
  /-- PDISCH_RELEASE (R519): 20 ms after PDISCH rose it is released. -/
  | pdischRelease
  /-- DISPLAY_SWITCH_ON (R518): When AP_RDY sets, the display switches on after VCOM settles. -/
  | displaySwitchOn
  /-- STANDBY_ENTRY (R526): After the PS_ENTER response is released the entry sequence runs. -/
  | standbyEntry
  /-- STANDBY_WAKE (R530): A wake source of Table PS-3 brings the device back to RUN. -/
  | standbyWake
  /-- IDLE_ENTRY (R523): AP gates its clock when it has no work. -/
  | idleEntry
  /-- IDLE_EXIT (R523): An interrupt, doorbell or crossing event ends IDLE within 2 µs. -/
  | idleExit
  /-- OFF_HOLD_ENTRY (R532): After PFAIL_N for OFFHOLD_DELAY_MS and no mains, the device enters OFF-HOLD. -/
  | offHoldEntry
  /-- OFF_HOLD_RELEASE (R533): PFAIL_N high for 1 ms releases OFF-HOLD with RESET_CAUSE 0x6. -/
  | offHoldRelease
  /-- OPP_CHANGE (R535): The power-management unit changes the AP operating point in fixed order. -/
  | oppChange
  /-- FENCE_LIFT_AUTO (R542): Keystone lifts a fault fence in the tick its conditions hold. -/
  | fenceLiftAuto (dom idx : Nat)
  /-- AVAIL_YEAR_RESTART (R545): At 00:00 UTC on 1 January the YEAR counters restart. -/
  | availYearRestart
  /-- SRAM_ECC_ERROR (R539): A double error in an SRAM word outside bank 14 fences the domains served by the owning engine of bank 9 or 10, and a row corrected twice within 24 h enters the run-time repair map. -/
  | sramEccError (bank row : Nat) (double image : Bool) (ch : Nat)
  /-- NAND_OP_TIMEOUT (R541): A NAND operation that runs beyond its time limit of Table QS-2 is counted, and three within 1 h fence the chip. -/
  | nandOpTimeout (chan chip : Nat)
  /-- RELOCK_FAILED (R48): A PLL relock attempt that does not lock within its lock time fails, and after 3 failed relocks of PLLN or PLLP the NF front-ends or the display are fenced. -/
  | relockFailed (k : Clock)
  /-- ZC_LOCK_LOST (R411): A ZC input loses lock when its edges stop or leave the accepted period range, the reference crossings move to another input, and PLx_RDY clears when no input stays locked. -/
  | zcLockLost (k : Nat)
  /-- CARD_FRAME_WAIT_EXPIRY (R380): A card that does not answer within its frame wait time ends that exchange; after 3 unanswered REQAs the carrier is switched off and the next ping is taken as the baseline. -/
  | cardFrameWaitExpiry (n : Nat)
  /-- PROFILE_WRITE_EXPIRY (R389): A staged profile write that is still pending 30 days after staging is discarded. -/
  | profileWriteExpiry
  /-- MBX_PENDING_TIMEOUT (R525): A PS_ENTER response that the requesting channel has not released within 100 ms aborts the STANDBY entry, counts refuser MBX_PENDING and delivers a POWER_EVENT. -/
  | mbxPendingTimeout
  /-- RTC_OSCILLATOR_RESTART (R71): The stopped RTC oscillator runs again, RTC_RUN sets within 112 µs of the first edges, and IRQ_STATUS.CLK_EVENT sets. -/
  | rtcOscillatorRestart
  /-- HCS_N_EARLY_RISE (R122): The host raises HCS_N before a write frame's ACK, nothing is written and FRAME_ERR sets. -/
  | hcsNEarlyRise
deriving DecidableEq, Repr

end Sys2Proof
end

