-- ==== Sys2Proof/Decode.lean ====
section
/-!
DEFINITION. Decoding of a table word. The table gives no row of this block any bits: a command reaches the device as
a frame, a request in a buffer or an event, never as an instruction word.
-/

namespace Sys2Proof

/-- The command that a word of the table spells: none, since the table gives no bits. -/
def decodeTableWord (_nbits _w : Nat) : Option Instr := none

end Sys2Proof
end

