-- ==== Sys2Proof/Config.lean ====
section
/-!
DEFINITION. What an implementation fixes and the manual leaves open: constants without a body, so that no proof can
see their values.
-/

namespace Sys2Proof

/-- A free value: what the manual does not state. The step applies it to a counter of the state (log 2). -/
opaque Config.freeValue : Nat → Nat

/-- The bytes that the vault's random source delivers, applied to a counter of the state (19 R452, log 3). -/
opaque Config.randomByte : Nat → BitVec 8

/-- BW_PLINTH_VER, the version word of the boot ROM (03 R83, log 4): the manual gives no value. -/
opaque Config.plinthVer : BitVec 32

/-- Which way a value that lies between two units of its format is rounded: true up (06 R163, log 22). The first
argument names the quantity, the second is the exact value. -/
opaque Config.roundUp : Nat → Rat → Bool

/-- Tap k = 0 to 127, from the end to the centre, of the linear-phase 255-tap decimating FIR; the scale from sinc³ output to
code lies in the taps (05 R134, Table MF-5, log 20). -/
opaque Config.firTap : Nat → Rat

/-- Tap k = 1 to 127 of the antisymmetric 255-tap Hilbert filter (06 Table MQ-1, log 22). -/
opaque Config.hilbertTap : Nat → Rat

/-- Tap k = 1 to 19 of the antisymmetric 39-tap quadrature stage (06 Table MQ-1, log 22). -/
opaque Config.quadTap : Nat → Rat

/-- Fraction bits of a composed gain, beyond the 32 that 48-bit intermediates leave at least (07 R186, log 22). -/
opaque Config.gainBits : Nat

/-- A ratio or an angle whose formula divides by zero, or takes the angle of nothing (06 R170, R174, R175, log 132).
The argument names the quantity. -/
opaque Config.zeroDiv : Nat → Nat

/-- Time within a tick, from its start, of a switch edge that Keystone commands in it: the manual gives the window of
Keystone's work and no time (02 Table TK-3, 11 R279, log 36). -/
opaque Config.edgeTime : Nat → Nat

/-- Die temperature of a TEMP code, 0.1 degC (07 R192, log 23): the manual gives no scale. -/
opaque Config.tempOf : Nat → Int

/-- VAUX in mV of a VAUX sense code (05 R155, log 23): the manual gives no scale. -/
opaque Config.vauxMv : Nat → Nat

/-- Writing unit that FIREWALL_WRITE names for the host link, which Table EV-1 does not list (21 Table EV-2, log 124). -/
opaque Config.hostUnit : BitVec 8

/-- What SENSE_OUT reads above 3.0 V for a faulted channel, mV, applied to the tick (22 R502, log 146). -/
opaque Config.senseFault : Nat → Nat

/-- Bank that FIREWALL_WRITE names for a word of the system region of MRAM (21 Table EV-2, log 124). -/
opaque Config.mramBank : BitVec 8

end Sys2Proof
end

