-- ==== Sys2Proof/Machine/Bytes.lean ====
section
/-!
DEFINITION. Bytes, little-endian fields, sparse tables in canonical form and the check codes of the manual.
-/

namespace Sys2Proof.Machine

/-- The byte that holds n modulo 256. -/
def byteOf (n : Nat) : Byte := BitVec.ofNat 8 n

/-- k bytes of n, least significant first (00 R9). -/
def le : Nat → Nat → List Byte
  | 0, _ => []
  | k + 1, n => byteOf n :: le k (n / 256)

/-- k bytes of a signed value in two's complement, least significant first. -/
def leI (k : Nat) (i : Int) : List Byte := le k (i % (256 ^ k : Nat)).toNat

/-- k bytes of n, most significant first. -/
def be (k n : Nat) : List Byte := (le k n).reverse

/-- The number that bytes spell, least significant first. -/
def rdLE : List Byte → Nat
  | [] => 0
  | b :: bs => b.toNat + 256 * rdLE bs

/-- The number that bytes spell, most significant first. -/
def rdBE (bs : List Byte) : Nat := rdLE bs.reverse

/-- The bytes of a structure from offset off on, len of them. -/
def bytesAt (bs : List Byte) (off len : Nat) : List Byte := (bs.drop off).take len

/-- A little-endian field of a structure; bytes beyond its end read as 0. -/
def fld (bs : List Byte) (off len : Nat) : Nat := rdLE (bytesAt bs off len)

/-- A number as a signed value of the given width in bits. -/
def toSigned (bits n : Nat) : Int :=
  let m := n % 2 ^ bits
  if 2 * m < 2 ^ bits then (m : Int) else (m : Int) - (2 ^ bits : Nat)

/-- A signed little-endian field. -/
def fldI (bs : List Byte) (off len : Nat) : Int := toSigned (8 * len) (fld bs off len)

/-- k bytes of 0. -/
def zeros (k : Nat) : List Byte := List.replicate k 0

/-- Bytes cut or filled with 0 to a length. -/
def padTo (k : Nat) (bs : List Byte) : List Byte := (bs ++ zeros k).take k

/-- 1 for true, 0 for false. -/
def b2n (b : Bool) : Nat := if b then 1 else 0

/-- A map of bits, bit 0 first, as a number. -/
def bitsOf : List Bool → Nat
  | [] => 0
  | b :: bs => b2n b + 2 * bitsOf bs

/-- The bits lo to lo + len - 1 of a number. -/
def bitsAt (n lo len : Nat) : Nat := n / 2 ^ lo % 2 ^ len

/-- A number with one bit set. -/
def setBitN (n i : Nat) : Nat := if n.testBit i then n else n + 2 ^ i

/-- A number with one bit cleared. -/
def clearBitN (n i : Nat) : Nat := if n.testBit i then n - 2 ^ i else n

/-- Addition that stops at a largest value. -/
def satAdd (top a b : Nat) : Nat := min top (a + b)

/-- Saturating counters of 16 and 32 bits. -/
def sat16 (n : Nat) : Nat := satAdd 0xFFFF n 1
def sat32 (n : Nat) : Nat := satAdd 0xFFFFFFFF n 1

/-- A value held within a signed range. -/
def clampI (lo hi v : Int) : Int := max lo (min hi v)

/-- Rounding half away from zero of num / den. -/
def roundDiv (num : Int) (den : Nat) : Int :=
  if 0 ≤ num then (2 * num + den) / (2 * den) else -((2 * (-num) + den) / (2 * den))

/-- Integer square root, rounded down, by fuel bits from the top. -/
def isqrtGo : Nat → Nat → Nat → Nat
  | 0, _, r => r
  | k + 1, n, r =>
    let t := r + 2 ^ k
    isqrtGo k n (if t * t ≤ n then t else r)
def isqrt (n : Nat) : Nat := isqrtGo (n.log2 / 2 + 1) n 0

/-- An element put into a list before the first that does not come before it. -/
def insBy {α : Type} (before : α → α → Bool) (a : α) : List α → List α
  | [] => [a]
  | b :: l => if before a b then a :: b :: l else b :: insBy before a l

/-- A list in an order. -/
def sortBy {α : Type} (before : α → α → Bool) (l : List α) : List α := l.foldr (insBy before) []

/-- The entry of a list at an index, or a value. -/
def nth {α : Type} (l : List α) (i : Nat) (d : α) : α := l.getD i d

/-- A sparse table: keys strictly rising, and no entry equal to the value an unlisted key reads as. -/
def spGet {α : Type} (d : α) : List (Nat × α) → Nat → α
  | [], _ => d
  | (b, w) :: m, a => if b = a then w else spGet d m a

/-- Write of a sparse table: writing the unlisted value removes the entry. -/
def spSet {α : Type} [DecidableEq α] (d : α) : List (Nat × α) → Nat → α → List (Nat × α)
  | [], a, v => if v = d then [] else [(a, v)]
  | (b, w) :: m, a, v =>
    if a < b then (if v = d then (b, w) :: m else (a, v) :: (b, w) :: m)
    else if a = b then (if v = d then m else (a, v) :: m)
    else (b, w) :: spSet d m a v

/-- The canonical form of a sparse table above a bound. -/
def spWfFrom {α : Type} [DecidableEq α] (d : α) : Nat → List (Nat × α) → Bool
  | _, [] => true
  | lo, (b, w) :: m => decide (lo ≤ b) && decide (w ≠ d) && spWfFrom d (b + 1) m

/-- The canonical form of a sparse table. -/
def spWf {α : Type} [DecidableEq α] (d : α) (m : List (Nat × α)) : Bool := spWfFrom d 0 m

/-- Addressed buffers: a sparse table of bytes; an unlisted byte reads as 0, as after a full reset (03 R75). -/
def memRead (m : List (Nat × Byte)) (a : Nat) : Byte := spGet 0 m a
def memWrite (m : List (Nat × Byte)) (a : Nat) (v : Byte) : List (Nat × Byte) := spSet 0 m a v
def memWf (m : List (Nat × Byte)) : Bool := spWf 0 m

/-- A run of bytes written from an address on. -/
def memWriteBytes (m : List (Nat × Byte)) (a : Nat) : List Byte → List (Nat × Byte)
  | [] => m
  | b :: bs => memWriteBytes (memWrite m a b) (a + 1) bs

/-- A run of bytes read from an address on. -/
def memReadBytes (m : List (Nat × Byte)) (a : Nat) : Nat → List Byte
  | 0 => []
  | k + 1 => memRead m a :: memReadBytes m (a + 1) k

/-- One bit step of CRC-16 with the CCITT polynomial 0x1021 (04 R104). -/
def crc16Bit (c : Nat) : Nat :=
  if c.testBit 15 then ((c * 2) % 65536) ^^^ 0x1021 else c * 2

/-- k bit steps. -/
def iter {α : Type} (f : α → α) : Nat → α → α
  | 0, a => a
  | k + 1, a => iter f k (f a)

def crc16Byte (c : Nat) (b : Byte) : Nat := iter crc16Bit 8 (c ^^^ (b.toNat * 256))

/-- CRC-16 of the frame and of the mailbox header: initial value 0xFFFF, no reflection, no final XOR (04 R104). -/
def crc16 (bs : List Byte) : Nat := bs.foldl crc16Byte 0xFFFF

/-- One bit step of CRC-32 with the reflected IEEE 802.3 polynomial (00 R17). -/
def crc32Bit (c : Nat) : Nat := if c % 2 = 1 then (c / 2) ^^^ 0xEDB88320 else c / 2
def crc32Byte (c : Nat) (b : Byte) : Nat := iter crc32Bit 8 (c ^^^ b.toNat)

/-- CRC-32 of IEEE 802.3 (00 R17): initial value and final XOR all ones, reflected.
PRESUMED: the manual names the polynomial; the rest is the standard's. -/
def crc32 (bs : List Byte) : Nat := (bs.foldl crc32Byte 0xFFFFFFFF) ^^^ 0xFFFFFFFF

end Sys2Proof.Machine
end

