-- ==== Sys2Proof/Machine/StSystem.lean ====
section
/-!
DEFINITION. The state of the clocks, the boot ROM, the host link, the parameter tables, the event recorder, the seal
and the Cairn log. Each field's docstring is its line of the inventory: width, source, reset value.
-/

namespace Sys2Proof.Machine

/-- The held word of MC03 as Keystone has captured it (02 R59, Table TK-4); the CFB codes stand apart. -/
structure KsWord where
  /-- Residual sample of each port and its mark of substitution, none for a marker (02 Table TK-4); reset none -/
  res : List (Option (Int × Bool)) := []
  /-- Energy request of each port by its CP state, 1 bit each (02 Table TK-4); reset none -/
  req : List Bool := []
  /-- Fast Irms squared of each phase, 0.1 mA squared (02 Table TK-4); reset none -/
  cur : List Rat := []
deriving DecidableEq, Repr, Inhabited

/-- One Mortar crossing (02 R59, R60). -/
structure Crossing where
  /-- The last transfer is not yet acknowledged, 1 bit (02 R59); reset 0 -/
  open_ : Bool := false
  /-- Overrun flag, 1 bit (02 R59, R60); DESIGN CHOICE 0, log 5 -/
  overrun : Bool := false
  /-- It has overrun in this tick, so that its pulses are not delivered, 1 bit (02 R59); reset 0 -/
  merged : Bool := false
deriving DecidableEq, Repr, Inhabited

/-- Clocks, tick and watchdog (02). -/
structure Clk where
  /-- Tick counter, 64 bits (02 R54); reset 0 -/
  tick : Nat := 0
  /-- XREF oscillator running, 1 bit (02 R48 Table TK-1); reset 0 -/
  xref : Bool := false
  /-- RTC oscillator running, 1 bit (02 R48, R49); DESIGN CHOICE 0, log 5 -/
  rtcOsc : Bool := false
  /-- RCO0 running, 1 bit (02 R48); DESIGN CHOICE 1, log 5 -/
  rco0 : Bool := true
  /-- RCO1 running, 1 bit (02 R48); DESIGN CHOICE 1, log 5 -/
  rco1 : Bool := true
  /-- PLLA locked, 1 bit (02 R48); DESIGN CHOICE 0, log 5 -/
  plla : Bool := false
  /-- PLLB locked, 1 bit (02 R48); DESIGN CHOICE 0, log 5 -/
  pllb : Bool := false
  /-- PLLC locked, 1 bit (02 R48); DESIGN CHOICE 0, log 5 -/
  pllc : Bool := false
  /-- PLLN locked, 1 bit (02 R48); DESIGN CHOICE 0, log 5 -/
  plln : Bool := false
  /-- PLLP locked, 1 bit (02 R48); DESIGN CHOICE 0, log 5 -/
  pllp : Bool := false
  /-- Failed relocks of PLLN in a row, 2 bits (02 Table TK-1); DESIGN CHOICE 0, log 5 -/
  pllnFails : Nat := 0
  /-- Failed relocks of PLLP in a row, 2 bits (02 Table TK-1); DESIGN CHOICE 0, log 5 -/
  pllpFails : Nat := 0
  /-- CLK_STATUS bit 18 MORTAR_OVR, 1 bit (02 R71); reset 0 -/
  mortarOvr : Bool := false
  /-- CLK_STATUS bit 17 PLL_RELOCK_SEEN, 1 bit (02 R71); reset 0 -/
  relockSeen : Bool := false
  /-- CLK_STATUS bit 16 RTC_STOP_SEEN, 1 bit (02 R71); reset 0 -/
  rtcStopSeen : Bool := false
  /-- CLK_STATUS bit 10 OPP_BUSY, 1 bit (02 R71); reset 0 -/
  oppBusy : Bool := false
  /-- CLK_STATUS bits 9:8 AP_OPP, 2 bits (02 R71); reset 0b01 -/
  opp : Nat := 1
  /-- CLK_STATUS bit 6 RTC_RUN, 1 bit (02 R71); reset 0 -/
  rtcRun : Bool := false
  /-- CLK_STATUS bit 5 PL_RUN, 1 bit (02 R71); reset 0 -/
  plRun : Bool := false
  /-- CLK_STATUS bit 4 PIX_RUN, 1 bit (02 R71); reset 0 -/
  pixRun : Bool := false
  /-- CLK_STATUS bit 3 NF_SRC, 1 bit (02 R71); reset 0 -/
  nfSrc : Bool := false
  /-- CLK_STATUS bit 2 NF_CLK_RUN, 1 bit (02 R71); reset 0 -/
  nfRun : Bool := false
  /-- CLK_STATUS bit 1 BUS_RUN, 1 bit (02 R71); reset 0 -/
  busRun : Bool := false
  /-- CLK_STATUS bit 0 AP_CLK_RUN, 1 bit (02 R71); reset 0 -/
  apRun : Bool := false
  /-- Watchdog armed, 1 bit (03 R96); reset 0 -/
  wdArmed : Bool := false
  /-- Watchdog feeds missed in a row, 2 bits (02 R50); reset 0 -/
  wdMissed : Nat := 0
  /-- Lintel deadlines missed in a row, 4 bits (02 R50, R55); reset 0 -/
  lintelMissed : Nat := 0
  /-- The crossings MC01 to MC22 (02 Table TK-4); reset all acknowledged -/
  cross : List Crossing := List.replicate 22 {}
  /-- Block of MC01 last captured by the lanes, 112 samples (02 R59, R61); DESIGN CHOICE none, log 5 -/
  block : List Int := []
  /-- CFB codes of MC03 last captured by Keystone, 4 for each port (02 R59, R61); DESIGN CHOICE none, log 5 -/
  cfbWord : List (List Nat) := []
  /-- The rest of the word of MC03 last captured by Keystone (02 R59, R61) -/
  ksWord : KsWord := {}
deriving DecidableEq, Repr, Inhabited

/-- Boot phases (03 Table PU-3). -/
inductive Phase where
  | reset | selftest | windowOpen | running | halted
deriving DecidableEq, Repr, Inhabited

/-- Image states (03 R93 Table PU-15). -/
inductive ImgSt where
  | empty | loading | verifying | active | failed
deriving DecidableEq, Repr, Inhabited

/-- One firmware image in loading or running (03 R85 to R93). -/
structure Image where
  /-- Image state, 3 bits (03 Table PU-15); reset EMPTY -/
  st : ImgSt := .empty
  /-- Manifest accepted, 320 bytes (03 R86); reset none -/
  man : List Byte := []
  /-- Image before the delta in progress, bytes (03 R89, R90); reset none -/
  src : List Byte := []
  /-- Image as far as rebuilt, bytes (03 R89); reset none -/
  out : List Byte := []
  /-- Delta header in force, 48 bytes, empty while none (03 R90); reset none -/
  hdr : List Byte := []
  /-- Bytes of a delta operation not yet whole (03 R90); reset none -/
  part : List Byte := []
  /-- INSERT bytes still to come, 16 bits (03 Table PU-13); reset 0 -/
  ins : Nat := 0
  /-- Sequence number of the next chunk, 32 bits (03 R85); reset 0 -/
  seq : Nat := 0
  /-- Deltas applied, 8 bits (03 Table PU-20); reset 0 -/
  deltas : Nat := 0
  /-- Load time in ticks since reset, 64 bits (03 Table PU-20); reset 0 -/
  loadTick : Nat := 0
  /-- Sum of the terms of Table PU-17 of the chunks accepted for this image, us (03 R98); reset 0 -/
  term : Nat := 0
deriving DecidableEq, Repr, Inhabited

/-- One chunk submitted through the boot window (03 R84, Table PU-7). -/
structure Chunk where
  /-- KIND, 3 bits (03 Table PU-7) -/
  kind : Nat := 0
  /-- IMAGE, 3 bits (03 Table PU-7) -/
  image : Nat := 0
  /-- BUF, 1 bit (03 Table PU-7) -/
  buf : Bool := false
  /-- LENGTH, 11 bits (03 Table PU-7) -/
  len : Nat := 0
  /-- BW_SEQ at submission, 32 bits (03 R83) -/
  seq : Nat := 0
deriving DecidableEq, Repr, Inhabited

/-- Reset, Plinth and the boot window (03). -/
structure Boot where
  /-- BOOT_STATE.PHASE, 3 bits (03 R80); reset RESET -/
  phase : Phase := .reset
  /-- BOOT_STATE.BOOTSEL, 1 bit (03 R82); reset 0 -/
  bootsel : Bool := false
  /-- TESTMODE as sampled, 1 bit (03 R82); DESIGN CHOICE 0, log 5 -/
  testmode : Bool := false
  /-- BW_CTRL.RELEASE written in SELFTEST, 1 bit (03 R82); reset 0 -/
  released : Bool := false
  /-- SELFTEST ended and waiting for RELEASE, 1 bit (03 R82); reset 0 -/
  waiting : Bool := false
  /-- BOOT_STATE.RESET_CAUSE, 4 bits (03 R76); reset 0 -/
  cause : Nat := 0
  /-- BOOT_STATE.SEAL_OPEN, 1 bit (03 Table PU-15); reset 0 -/
  sealOpen : Bool := false
  /-- BW_STATUS.LAST_STATUS, 16 bits (03 Table PU-8); reset 0x0200 -/
  lastStatus : Nat := 0x0200
  /-- BW_STATUS.LAST_IMAGE, 3 bits (03 Table PU-8); reset 0 -/
  lastImage : Nat := 0
  /-- BW_STATUS.HOLD, 1 bit (03 Table PU-8); reset 0 -/
  hold : Bool := false
  /-- BW_STATUS.BUF0_FREE, 1 bit (03 Table PU-8); reset 1 -/
  free0 : Bool := true
  /-- BW_STATUS.BUF1_FREE, 1 bit (03 Table PU-8); reset 1 -/
  free1 : Bool := true
  /-- BW_CHUNK, 32 bits (03 Table PU-7); reset 0 -/
  chunk : BitVec 32 := 0
  /-- BW_SEQ, 32 bits (03 R83); DESIGN CHOICE 0, log 5 -/
  seq : BitVec 32 := 0
  /-- Chunks submitted and not yet consumed, first in first out, at most 2 (03 R84); reset empty -/
  queue : List Chunk := []
  /-- The five images in code order 1 to 5: AP, KS, OR, LE, SE (03 R93); reset all EMPTY -/
  imgs : List Image := List.replicate 5 {}
  /-- Sealed OR digest, 32 bytes, in the Orchard region of MRAM (03 R87, R88); NV, DESIGN CHOICE zero bytes, log 6 -/
  sealedOr : List Byte := List.replicate 32 0
  /-- Version of the sealed OR image: VER_MAJOR, VER_MINOR, VER_BUILD (03 R88); NV, DESIGN CHOICE 0, log 6 -/
  sealedVer : List Nat := [0, 0, 0]
  /-- Token of the OR_IMAGE entry that the start of OR waits for (03 R88); reset none -/
  orWait : Option Nat := none
  /-- The window was reopened while other images run, 1 bit (03 R79); reset 0 -/
  reopened : Bool := false
  /-- PLLA has been lost, and AP waits for its warm restart, 1 bit (02 Table TK-1); reset 0 -/
  apDue : Bool := false
  /-- READY_MAP, 64 bits (03 R94 Table PU-16); reset 0 -/
  ready : BitVec 64 := 0
  /-- Tick of reset release counted ticks in WINDOW_OPEN with both buffers FREE and no chunk held (25 R546); reset 0 -/
  idleWin : Nat := 0
  /-- Image whose processor is held stopped by an activation, 0 none (20 R473); reset 0 -/
  held : Nat := 0
  /-- Reset-hold pins and holds: RESET_N high, 1 bit (03 R74); DESIGN CHOICE 1, log 5 -/
  resetN : Bool := true
  /-- PGOOD high, 1 bit (03 R74); DESIGN CHOICE 1, log 5 -/
  pgood : Bool := true
  /-- Power-on monitor satisfied, 1 bit (03 R74); DESIGN CHOICE 1, log 5 -/
  supplyOk : Bool := true
  /-- PFAIL_N high, 1 bit (08 R212); DESIGN CHOICE 1, log 5 -/
  pfailN : Bool := true
  /-- HOLDUP_S high, 1 bit (26 R555); DESIGN CHOICE 1, log 5 -/
  holdupS : Bool := true
deriving DecidableEq, Repr, Inhabited

/-- One-time programmable memory (03 R87, 19 R453). -/
structure Otp where
  /-- Key hashes of slots 0 to 3, 32 bytes each (03 R87); NV, DESIGN CHOICE zero bytes, log 6 -/
  keyHash : List (List Byte) := List.replicate 4 (List.replicate 32 0)
  /-- Revoke fuses of slots 0 to 3, 4 bits (03 R87); NV, DESIGN CHOICE not blown, log 6 -/
  revoked : List Bool := List.replicate 4 false
  /-- Blown fuses of the floor counters of the five images, 0 to 64 each (03 R87); NV, DESIGN CHOICE 0, log 6 -/
  floors : List Nat := List.replicate 5 0
  /-- Device identity, 16 bytes (19 R453); NV, DESIGN CHOICE zero bytes, log 6 -/
  devId : List Byte := List.replicate 16 0
  /-- cornerstone secret, 32 bytes (19 R453); NV, DESIGN CHOICE zero bytes, log 6 -/
  secret : List Byte := List.replicate 32 0
deriving DecidableEq, Repr, Inhabited

/-- Mailbox channel states (04 Table HL-12). -/
inductive ChSt where
  | idle | pending | inService | respReady | notifyOnly | fenced
deriving DecidableEq, Repr, Inhabited

/-- One mailbox channel (04 R113 to R115). -/
structure Chan where
  /-- CH_ST, 3 bits (04 Table HL-12); reset IDLE -/
  st : ChSt := .idle
  /-- Tick of the doorbell, 64 bits (01 R34); reset 0 -/
  since : Nat := 0
  /-- Double errors of the buffer area, ticks of the last ones (25 Table SP-2); reset none -/
  errs : List Nat := []
deriving DecidableEq, Repr, Inhabited

/-- A host access that waits for a stopped domain (02 R70, 04 R108). -/
structure Access where
  /-- Domain: true bus, false RTC (04 Table HL-8) -/
  bus : Bool := false
  /-- Address and data held of a write, none for a read (04 R106) -/
  write : Option (Nat × List Byte) := none
  /-- Address and length of a read (04 R108) -/
  read : Nat × Nat := (0, 0)
  /-- Frame ended by HCS_N, 1 bit (02 R70) -/
  abandoned : Bool := false
deriving DecidableEq, Repr, Inhabited

/-- A notification in the queue (04 R120). -/
structure Note where
  /-- Notification opcode, 16 bits (27 R566) -/
  op : Nat := 0
  /-- Payload bytes -/
  payload : List Byte := []
deriving DecidableEq, Repr, Inhabited

/-- Host link (04). -/
structure Link where
  /-- HL_STATUS, 32 bits, ACCESS_PENDING held as the waiting accesses (04 Table HL-8); reset 0 -/
  hlStatus : BitVec 32 := 0
  /-- IRQ_STATUS, 32 bits (04 Table HL-9); reset 0 -/
  irq : BitVec 32 := 0
  /-- IRQ_ENABLE, 32 bits (04 Table HL-10); reset 0x3F -/
  irqEn : BitVec 32 := 0x3F
  /-- HL_ERR_COUNT.REFUSED_CNT, 16 bits (04 Table HL-13); reset 0 -/
  refused : Nat := 0
  /-- HL_ERR_COUNT.CRC_CNT, 16 bits (04 Table HL-13); reset 0 -/
  crcErrs : Nat := 0
  /-- Last ACK byte driven, 8 bits (04 Table HL-4); DESIGN CHOICE 0xFF (not driven), log 5 -/
  ack : Nat := 0xFF
  /-- Last RSTAT byte driven, 8 bits (04 Table HL-4); DESIGN CHOICE 0xFF (not driven), log 5 -/
  rstat : Nat := 0xFF
  /-- DATA of the last read frame answered, up to 6,144 bytes (04 R103); DESIGN CHOICE none, log 5 -/
  rdata : List Byte := []
  /-- CRC of the last read frame answered, 16 bits (04 R103); DESIGN CHOICE 0, log 5 -/
  rcrc : Nat := 0
  /-- Staging register: address and data of an accepted write not yet committed, 1 KiB (04 R106); reset none -/
  staged : Option (Nat × List Byte) := none
  /-- Waiting accesses, oldest first (02 R70); reset none -/
  waits : List Access := []
  /-- RTC_TIME reply of the last completed read, 8 bytes (04 R109); DESIGN CHOICE none, log 5 -/
  rtcReply : List Byte := []
  /-- The eight channels (04 R113); reset IDLE, fenced ones FENCED -/
  chans : List Chan := List.replicate 8 {}
  /-- Boot-window and mailbox buffers by host-link address, bytes (03 Table PU-5, 04 R113); reset cleared (03 R75) -/
  mem : List (Nat × Byte) := []
  /-- Notification channel, 8 bits, 0xFF none (04 R120); DESIGN CHOICE 0xFF, log 5 -/
  noteCh : Nat := 0xFF
  /-- Routing mask, 32 bits (04 R120); DESIGN CHOICE 0, log 5 -/
  noteMask : Nat := 0
  /-- Routes waiting for the release of their responses: channel, new channel, new mask (04 Table HL-24); reset none -/
  routes : List (Nat × Nat × Nat) := []
  /-- Notification queue, at most 64 (04 R120); reset empty -/
  notes : List Note := []
  /-- A notification was dropped since the last delivery, 1 bit (04 R120); reset 0 -/
  lost : Bool := false
deriving DecidableEq, Repr, Inhabited

/-- An installed parameter table (04 R123). -/
structure TableRec where
  /-- TABLE_ID, 16 bits (04 R123) -/
  id : Nat := 0
  /-- VERSION, 16 bits (04 R124) -/
  version : Nat := 0
  /-- Content, bytes (04 R123) -/
  bytes : List Byte := []
  /-- CRC-32 of the content, 32 bits (04 R124) -/
  crc : Nat := 0
deriving DecidableEq, Repr, Inhabited

/-- A table accepted and waiting for its effect (04 R125). -/
structure TablePend where
  /-- The table -/
  tab : TableRec := {}
  /-- Token of the Cairn entry that comes first, 0 for an open table (04 R125) -/
  token : Nat := 0
  /-- Channel whose response is outstanding, none once given (15 Table SA-8) -/
  ch : Option Nat := none
  /-- Tick of acceptance, 64 bits (04 R125) -/
  since : Nat := 0
deriving DecidableEq, Repr, Inhabited

/-- Parameter tables (04 R123 to R125). -/
structure Tables where
  /-- Owner channel of the staging, none while free (04 R124); reset none -/
  owner : Option Nat := none
  /-- TABLE_ID staged, 16 bits (04 R124); reset 0 -/
  id : Nat := 0
  /-- VERSION staged, 16 bits (04 R124); reset 0 -/
  version : Nat := 0
  /-- TOTAL_LENGTH staged, 32 bits (04 R124); reset 0 -/
  total : Nat := 0
  /-- TABLE_CRC staged, 32 bits (04 R124); reset 0 -/
  crc : Nat := 0
  /-- Bytes staged (04 R124); reset none -/
  bytes : List Byte := []
  /-- Tick of the last segment, 64 bits (04 R124); reset 0 -/
  last : Nat := 0
  /-- Tables accepted and not yet in effect (04 R125); reset none -/
  waiting : List TablePend := []
  /-- The open tables have been read from Quarry, 1 bit (04 R123, 22 R506); reset 0 -/
  restored : Bool := false
  /-- Tables installed, one per TABLE_ID (04 R123); NV, DESIGN CHOICE none, log 6 -/
  installed : List TableRec := []
deriving DecidableEq, Repr, Inhabited

/-- An entry of the event recorder (21 R486). -/
structure EvEntry where
  /-- SEQ, 64 bits (21 R486) -/
  seq : Nat := 0
  /-- CODE, 16 bits (21 R486) -/
  code : Nat := 0
  /-- UNIT, 8 bits (21 R486) -/
  unit : Nat := 0
  /-- SUBJECT, 8 bits (21 R486) -/
  subject : Nat := 0
  /-- DATA, 16 bytes (21 R486) -/
  data : List Byte := []
deriving DecidableEq, Repr, Inhabited

/-- The event recorder (21). -/
structure EvRec where
  /-- Entries offered to the write port and not yet taken, in order of arrival (21 R489); reset empty -/
  queue : List EvEntry := []
  /-- The ring, 4,096 entries, oldest first (21 R488); reset empty (R491) -/
  ring : List EvEntry := []
  /-- HEAD_SEQ, 64 bits (21 R493); NV through SEQ_RESERVED, DESIGN CHOICE 0, log 6 -/
  head : Nat := 0
  /-- SEQ_RESERVED, 64 bits (21 R491); NV, DESIGN CHOICE 0, log 6 -/
  reserved : Nat := 0
  /-- CLEARED_SEQ, 64 bits (21 R492); NV, DESIGN CHOICE 0, log 6 -/
  cleared : Nat := 0
  /-- SPILLED_SEQ, 64 bits (21 R490); NV in Quarry, DESIGN CHOICE 0, log 6 -/
  spilled : Nat := 0
  /-- Entries in the spill zone, oldest first (21 R490, 18 Table QS-5); NV, DESIGN CHOICE none, log 6 -/
  zone : List EvEntry := []
  /-- LOST, 32 bits saturating (21 Table EV-8); DESIGN CHOICE 0, log 5 -/
  lost : Nat := 0
  /-- DROPPED, 32 bits saturating (21 Table EV-8); DESIGN CHOICE 0, log 5 -/
  dropped : Nat := 0
  /-- Entries accepted in this tick, 5 bits (21 R489); reset 0 -/
  inTick : Nat := 0
  /-- Entries dropped since the last OVERFLOW entry, 32 bits (21 R489); reset 0 -/
  dropRun : Nat := 0
  /-- Highest SEQ of a spill unit on its way to the medium, 64 bits (21 R490); reset 0 -/
  spilling : Nat := 0
  /-- EVREC_CLEARs whose CLEARED entry is not yet written: channel, mark before, mark after (21 R492); reset none -/
  clearing : List (Nat × Nat × Nat) := []
deriving DecidableEq, Repr, Inhabited

/-- A Cairn entry as stored, without its CRC (15 R366). -/
structure CairnEntry where
  /-- SEQ, 64 bits (15 R365) -/
  seq : Nat := 0
  /-- TIME at writing, 64 bits in the format of RTC_TIME (15 R366) -/
  time : Nat := 0
  /-- TICK of the decision, 64 bits (15 R366) -/
  tick : Nat := 0
  /-- CODE, 16 bits (15 Table SA-3) -/
  code : Nat := 0
  /-- WRITER, 8 bits: 0 Orchard, 1 Keystone (15 R366) -/
  writer : Nat := 0
  /-- SUBJECT, 8 bits (15 R366) -/
  subject : Nat := 0
  /-- DATA, 24 bytes (15 R366) -/
  data : List Byte := []
  /-- LINK, 8 bytes (15 R366) -/
  link : List Byte := []
deriving DecidableEq, Repr, Inhabited

/-- A Cairn entry waiting to be written (15 R367). -/
structure CairnJob where
  /-- Entry without SEQ, TIME and LINK -/
  entry : CairnEntry := {}
  /-- Token by which an effect waits for this entry (15 R367) -/
  token : Nat := 0
  /-- A tamper entry, kept in its latch until it is written (15 R369) -/
  tamper : Bool := false
deriving DecidableEq, Repr, Inhabited

/-- The Cairn log (15 R365 to R371). -/
structure Cairn where
  /-- Ring in MRAM, 1,024 entries, oldest first (15 R365); NV, DESIGN CHOICE none written, log 6 -/
  ring : List CairnEntry := []
  /-- HEAD_SEQ, 64 bits, 0 while none is written (15 R370); NV, 0 on a new device -/
  head : Nat := 0
  /-- Entries queued, in writing order (15 R367); reset empty -/
  queue : List CairnJob := []
  /-- Next token, 64 bits (model's own name for an entry that an effect waits for, log 12); DESIGN CHOICE 1 -/
  next : Nat := 1
  /-- Entries written in this tick, at most 4 (15 R367); reset 0 -/
  inTick : Nat := 0
  /-- State block LOST, 64 bits (15 Table SA-4); NV, DESIGN CHOICE 0, log 6 -/
  lost : Nat := 0
  /-- State block LOST_FIRST_TICK, 64 bits (15 Table SA-4); NV, DESIGN CHOICE 0, log 6 -/
  lostTick : Nat := 0
  /-- State block OPEN_COUNT, 32 bits (15 Table SA-4); NV, DESIGN CHOICE 0, log 6 -/
  openCount : Nat := 0
  /-- State block SEAL_STATE, 1 bit (15 Table SA-4); NV, 0 on a new device -/
  sealState : Bool := false
  /-- State block OPEN_TICK, 64 bits (15 Table SA-4); NV, DESIGN CHOICE 0, log 6 -/
  openTick : Nat := 0
  /-- State block MIRROR_SEQ, 64 bits (15 Table SA-4); NV, DESIGN CHOICE 0, log 6 -/
  mirrorSeq : Nat := 0
  /-- Mirror in Quarry, latest 65,536 entries, oldest first (15 R369); NV, DESIGN CHOICE none, log 6 -/
  mirror : List CairnEntry := []
  /-- A slot beyond the head torn by a full reset, 1 bit (15 R371); NV, DESIGN CHOICE 0, log 6 -/
  torn : Bool := false
  /-- Tick of the opening logged in this boot (15 R363); reset none -/
  openedAt : Option Nat := none
  /-- SEQ of the entry on its way to the mirror, 0 none (18 R440); reset 0 -/
  copying : Nat := 0
  /-- Seal entries of a supply loss that come behind its SUPPLY_LOSS entry (15 Table SA-8); reset none -/
  behind : List CairnJob := []
  /-- Tokens of entries counted in LOST that a change to a legally relevant part waited for (15 R369); reset none -/
  lostToks : List Nat := []
deriving DecidableEq, Repr, Inhabited

/-- The seal input (15 R363). -/
structure Seal where
  /-- Last sampled level of SEAL_N, 1 bit: true low, open (15 R362); DESIGN CHOICE closed, log 5 -/
  level : Bool := false
  /-- Successive samples at that level, 7 bits (15 R363); reset 0 -/
  run : Nat := 0
  /-- Boot seal state known, 1 bit (15 R363); reset 0 -/
  known : Bool := false
  /-- Filtered seal state, 1 bit: true open (15 R363); reset closed (port shut) -/
  open_ : Bool := false
  /-- Seal-gated write port allowed by the seal, 1 bit (15 R363); reset shut -/
  port : Bool := false
  /-- Token of the SEAL_OPENED entry the port waits for, and the tick it was written in (15 R363); reset none -/
  opening : Option Nat := none
  /-- Tick in which the SEAL_OPENED entry came into MRAM (15 R363); reset none -/
  openedIn : Option Nat := none
deriving DecidableEq, Repr, Inhabited

end Sys2Proof.Machine
end

