-- ==== Sys2Proof/Machine/StLate.lean ====
section
/-!
DEFINITION. The state of the firmware update, the Chashao link, the display controller and the power-management unit.
Each field's docstring is its line of the inventory: width, source, reset value.
-/

namespace Sys2Proof.Machine

/-- The open update (20). -/
structure Upd where
  /-- State 0 to 4, 3 bits (20 Table FU-1); reset IDLE -/
  st : Nat := 0
  /-- IMAGE of the open update, 0 none (20 Table FU-11); reset 0 -/
  image : Nat := 0
  /-- Manifest and staged image as far as rebuilt, 1,280 KiB (20 R470 to R472); reset none -/
  img : Image := {}
  /-- LAST_CODE, 16 bits (20 Table FU-11); DESIGN CHOICE 0, log 5 -/
  lastCode : Nat := 0
  /-- The target quiesces, 1 bit (20 R473); reset 0 -/
  quiesce : Bool := false
  /-- Channel of the UPDATE_ACTIVATE in service (20 Table FU-8); reset none -/
  ch : Option Nat := none
  /-- OUTCOME of the activation in its pause: 0 new image, 1 fallback (20 Table FU-8); reset 0 -/
  outcome : Nat := 0
  /-- SWITCH_TICK, 64 bits (20 Table FU-8); reset 0 -/
  swTick : Nat := 0
  /-- Token of the OR_ACTIVATED entry (20 R477); reset none -/
  orTok : Option Nat := none
  /-- Tick n of R477, 64 bits (20 R477); reset none -/
  orTick : Option Nat := none
  /-- ACTIVATIONS, 32 bits saturating (20 Table FU-11); DESIGN CHOICE 0, log 5 -/
  activations : Nat := 0
  /-- FALLBACKS, 32 bits saturating (20 Table FU-11); DESIGN CHOICE 0, log 5 -/
  fallbacks : Nat := 0
deriving DecidableEq, Repr, Inhabited

/-- One zero-crossing input with its coupling (17 R398, R411). -/
structure Zc where
  /-- Stamp of the last accepted edge, XREF cycles, 64 bits (02 R58); reset none -/
  last : Option Nat := none
  /-- Periods between accepted edges, newest first, at most 8 (17 R411); reset none -/
  periods : List Nat := []
  /-- Locked, 1 bit (17 R411); reset 0 -/
  locked : Bool := false
  /-- Tick from which the receiver measures with no preamble present (17 R411); DESIGN CHOICE 0, log 5 -/
  calFrom : Nat := 0
  /-- Offset and noise floor measured, 1 bit (17 R411); reset 0 -/
  cal : Bool := false
  /-- NOISE, 16 bits (17 Table PL-14); DESIGN CHOICE 0, log 5 -/
  noise : Nat := 0
  /-- FRAMES_RX, 32 bits saturating (17 Table PL-14); DESIGN CHOICE 0, log 5 -/
  frames : Nat := 0
  /-- ERASED, 32 bits saturating (17 Table PL-14); DESIGN CHOICE 0, log 5 -/
  erased : Nat := 0
  /-- Consecutive own frames received more than 6 dB from the level expected, 4 bits (17 R426); reset 0 -/
  offLevel : Nat := 0
  /-- Fence of the coupling already reported by PL_EVENT 5, 1 bit (17 R428); DESIGN CHOICE 0, log 5 -/
  told : Bool := false
deriving DecidableEq, Repr, Inhabited

/-- An outgoing frame (17 R414, R417). -/
structure TxFrame where
  /-- TYPE (17 Table PL-8) -/
  ty : Nat := 0
  /-- MPDU without TAG (17 Table PL-7) -/
  mpdu : List Byte := []
  /-- FCNT, 32 bits (17 R415) -/
  fcnt : Nat := 0
  /-- ACKREQ, 1 bit (17 Table PL-8) -/
  ackReq : Bool := false
  /-- Robust mode, 1 bit (17 R402) -/
  robust : Bool := false
  /-- Tick from which it is ready (17 R417) -/
  ready : Nat := 0
  /-- Hub pairs that pass before it is sent (17 R417) -/
  skip : Nat := 0
  /-- Sendings so far (17 R417) -/
  sent : Nat := 0
  /-- Number of the reference crossing at which it was last sent, while its ACK is awaited (17 R417) -/
  sentAt : Option Nat := none
deriving DecidableEq, Repr, Inhabited

/-- The Chashao link (17). -/
structure Pl where
  /-- ZCA, ZCB, ZCC with couplings A, B, C (17 Table PL-1) -/
  zc : List Zc := List.replicate 3 {}
  /-- Options in force, 16 bytes, empty before LE runs (17 R400); reset none -/
  opts : List Byte := []
  /-- Reference crossings counted, 64 bits (17 R411); reset 0 -/
  cross : Nat := 0
  /-- Ticks of the last 8 reference crossings, newest first (17 R417); reset none -/
  ticks : List Nat := []
  /-- Their stamps, XREF cycles, corrected by the delay and the line of their input (17 R411, R422); reset none -/
  stamps : List Nat := []
  /-- Crossing at which the superframe phase in force starts (17 R413); reset none -/
  start : Option Nat := none
  /-- Superframe start of the own count (17 R413); reset none -/
  own : Option Nat := none
  /-- Superframe start and superframes since it was heard: master (17 R413); reset none -/
  master : Option (Nat × Nat) := none
  /-- The same of the concentrator (17 R413); reset none -/
  conc : Option (Nat × Nat) := none
  /-- PHASE_SRC: 0 own, 1 master, 2 concentrator (17 Table PL-14); reset 0 -/
  src : Nat := 0
  /-- Own FCNT: the next to be used, 32 bits (17 R415); NV through its block, DESIGN CHOICE 1, log 6 -/
  fcnt : Nat := 1
  /-- End of the reserved block of FCNT, 32 bits (17 R415); NV, DESIGN CHOICE 1, log 6 -/
  reserved : Nat := 1
  /-- Highest FCNT accepted of the sources 0 to 32, 32 bits each (17 R415); NV, DESIGN CHOICE 0, log 6 -/
  high : List Nat := List.replicate 33 0
  /-- Outgoing frames, in order of arrival, at most 8 (17 R417); reset empty -/
  queue : List TxFrame := []
  /-- ACK to be sent: INFO and the crossing that begins its slot (17 R417); reset none -/
  ack : Option (Nat × Nat) := none
  /-- Crossing at which the last frame was sent (17 R417, R419); reset none -/
  txAt : Option Nat := none
  /-- LEAVING is to be sent, 1 bit (17 R419); reset 0 -/
  leaving : Bool := false
  /-- Failures of the checks of Table PL-10, one count per check (17 R416); DESIGN CHOICE 0, log 5 -/
  fails : List Nat := List.replicate 6 0
  /-- SENT, 32 bits saturating (17 Table PL-14); DESIGN CHOICE 0, log 5 -/
  sent : Nat := 0
  /-- RETRIES, 32 bits saturating (17 Table PL-14); DESIGN CHOICE 0, log 5 -/
  retries : Nat := 0
  /-- FAILED, 32 bits saturating (17 Table PL-14); DESIGN CHOICE 0, log 5 -/
  failed : Nat := 0
  /-- BEACON_AGE, 16 bits (17 Table PL-14); DESIGN CHOICE 0xFFFF, log 5 -/
  beaconAge : Nat := 0xFFFF
  /-- HUB_ID of the master whose BEACONs are used, and superframes since the last (17 R420); reset none -/
  beaconSrc : Option (Nat × Nat) := none
  /-- Hubs 1 to 32 whose DEMAND has been heard, the members of a master (17 R419); reset none -/
  members : List Bool := List.replicate 32 false
  /-- Link up as last reported, 1 bit (17 R428); reset 0 -/
  up : Bool := false
  /-- PAEN, 1 bit (17 Table PL-1); reset low -/
  paen : Bool := false
  /-- Header bits 0 to 29 of the frame last sent (17 R404); reset 0 -/
  airHdr : Nat := 0
  /-- Phases of the frame last sent, in units of π/36, symbol by symbol, carriers 33 to 68 (17 R402, R403); reset none -/
  air : List (List Nat) := []
  /-- Tick in which its first symbol began, 64 bits (17 R397); reset 0 -/
  airAt : Nat := 0
  /-- PAEN leads the frame of the next crossing, 1 bit (17 Table PL-1); reset 0 -/
  lead : Bool := false
  /-- Tick in which the wake detector's window began, none while it keeps the couplings gated (17 R424); reset none -/
  window : Option Nat := none
  /-- Samples kept by the wake detector, 40 ms per coupling, and the crossing that began their slot (17 R424); reset none -/
  kept : Option (List (List Int) × Nat) := none
deriving DecidableEq, Repr, Inhabited

/-- The display controller (23). -/
structure Disp where
  /-- 0 off, 1 starting, 2 scanning, 3 discharging (23 Table DC-9); reset 0 -/
  mode : Nat := 0
  /-- What follows a discharge: 0 stays off, 1 switch-on once PFAIL_N is high (23 R519, R520); reset 0 -/
  again : Bool := false
  /-- The host has switched the display off, 1 bit (23 Table DC-10); reset 0 -/
  hostOff : Bool := false
  /-- Action that applies at the next frame start: 0 off, 2 A, 3 A1 (23 Table DC-10); reset none -/
  act : Option Nat := none
  /-- VCOM_EN, 1 bit (23 Table DC-1); reset low -/
  vcom : Bool := false
  /-- Tick in which VCOM_EN rose, 64 bits (23 R518); reset 0 -/
  vcomAt : Nat := 0
  /-- PDISCH, 1 bit (23 Table DC-1); reset low -/
  pdisch : Bool := false
  /-- Tick in which PDISCH rose, 64 bits (23 R519); reset 0 -/
  pdAt : Nat := 0
  /-- GOE, 1 bit (23 R511, R519); reset low -/
  goe : Bool := false
  /-- STV, 1 bit (23 R511, R519); reset low -/
  stv : Bool := false
  /-- CPV, 1 bit (23 R511, R519); reset low -/
  cpv : Bool := false
  /-- POL, 1 bit (23 R511, R519); reset low -/
  pol : Bool := false
  /-- POL in line 0 of the frame scanned, 1 bit (23 R511); reset 0 -/
  pol0 : Bool := false
  /-- POL before the first rise of CPV in the frame scanned, 1 bit (23 R511); reset 0 -/
  polWas : Bool := false
  /-- Tick of the last frame start, 64 bits (23 R511); reset 0 -/
  frameAt : Nat := 0
  /-- Bytes on the link lanes 0 to 3, empty with the pairs off (23 Table DC-2); reset off -/
  link : List Byte := []
  /-- The fence of the display is already reported by DISP_EVENT 5, 1 bit (23 R522); DESIGN CHOICE 0, log 5 -/
  told : Bool := false
  /-- Panel timing in force, table 0x1301 at the last switch-on (23 R512); reset none -/
  tim : List Byte := []
  /-- A new version of table 0x1301 waits for the switch-off and switch-on sequences, 1 bit (23 R512); reset 0 -/
  timNew : Bool := false
  /-- Frame memory but the safe frame, by offset from the start of bank 6 (23 Table DC-4); reset cleared (03 R75) -/
  mem : List (Nat × Byte) := []
  /-- Safe-frame region as far as written; the rest of its 48,012 bytes reads 0 (23 R517); reset none -/
  safeMem : List Byte := []
  /-- The region is to be copied again at the next frame start, 1 bit (23 Table DC-7); reset 0 -/
  safeLoad : Bool := false
  /-- SAFE_SIZE, 1 bit (23 R517); reset 0 -/
  safeSize : Bool := false
  /-- SAFE_CRC, 32 bits (23 R517); DESIGN CHOICE 0, log 5 -/
  safeCrc : Nat := 0
  /-- Consecutive mismatches of the safe frame shown (23 R517); reset 0 -/
  safeMis : Nat := 0
  /-- SHOWN: 0 A or A0, 1 A1 (23 Table DC-9); reset 0 -/
  shown : Nat := 0
  /-- The safe frame is shown, 1 bit (23 R516, R518); DESIGN CHOICE 1, log 5 -/
  safe : Bool := true
  /-- The safe frame is shown for a mismatch: 1 waits for a write, 2 a write has come (23 R516); 0 otherwise; reset 0 -/
  lost : Nat := 0
  /-- FRAME: F of R514, 32 bits (23 Table DC-9); DESIGN CHOICE 0, log 5 -/
  frame : Nat := 0
  /-- A write fell in the frame being scanned, 1 bit (23 R515); reset 0 -/
  written : Bool := false
  /-- Reference CRC, 32 bits (23 R515); reset none -/
  ref : Option Nat := none
  /-- REF_CRC as last set, 32 bits (23 Table DC-9); DESIGN CHOICE 0, log 5 -/
  refCrc : Nat := 0
  /-- LAST_CRC, 32 bits (23 Table DC-9); DESIGN CHOICE 0, log 5 -/
  lastCrc : Nat := 0
  /-- Consecutive mismatches of compared frames (23 R516); reset 0 -/
  mis : Nat := 0
  /-- Consecutive matches of compared frames (23 R516); reset 0 -/
  hits : Nat := 0
  /-- MISMATCHES, 32 bits saturating (23 Table DC-9); DESIGN CHOICE 0, log 5 -/
  mismatches : Nat := 0
  /-- UNCHECKED, 32 bits saturating (23 Table DC-9); DESIGN CHOICE 0, log 5 -/
  unchecked : Nat := 0
  /-- SAFE_SHOWS, 32 bits saturating (23 Table DC-9); DESIGN CHOICE 0, log 5 -/
  safeShows : Nat := 0
  /-- DISCHARGES, 32 bits saturating (23 Table DC-9); DESIGN CHOICE 0, log 5 -/
  discharges : Nat := 0
deriving DecidableEq, Repr, Inhabited

/-- An entry to STANDBY that has been accepted (24 R526). -/
structure PsEntry where
  /-- Requesting channel -/
  ch : Nat := 0
  /-- Tick of the response, 64 bits (24 Table PS-2 code 3) -/
  since : Nat := 0
  /-- RETAIN in force, 16 bits (24 R527) -/
  retain : Nat := 0
  /-- WAKE_MASK, 6 bits (24 R529) -/
  mask : Nat := 0
  /-- ALARM, RTC SECONDS, 64 bits, 0 none (24 Table PS-9) -/
  alarm : Nat := 0
  /-- Step reached: 0 release awaited, 1 display off, 2 carriers off, 3 DEMAND with LEAVING sent or not needed (24 R526) -/
  step : Nat := 0
deriving DecidableEq, Repr, Inhabited

/-- The power-management unit (24). -/
structure Power where
  /-- State: 0 RUN, 1 IDLE, 2 STANDBY, 3 OFF-HOLD (24 Table PS-1); reset RUN -/
  mode : Nat := 0
  /-- Entry in progress (24 R526); reset none -/
  entry : Option PsEntry := none
  /-- The entry of the STANDBY in force (24 R530); reset none -/
  last : PsEntry := {}
  /-- RETAIN of the last entry, 16 bits (24 Table PS-10); DESIGN CHOICE 0, log 5 -/
  retain : Nat := 0
  /-- WAKE_MASK of the last entry, 16 bits (24 Table PS-10); DESIGN CHOICE 0, log 5 -/
  mask : Nat := 0
  /-- LAST_WAKE, 8 bits (24 Table PS-10); DESIGN CHOICE 0, log 5 -/
  lastWake : Nat := 0
  /-- LAST_ENTRY_TICK, 64 bits (24 Table PS-10); DESIGN CHOICE 0, log 5 -/
  entryTick : Nat := 0
  /-- LAST_WAKE_TICK, 64 bits (24 Table PS-10); DESIGN CHOICE 0, log 5 -/
  wakeTick : Nat := 0
  /-- Wake sources fired: bit and value (24 R529); reset none -/
  fired : List (Nat × Nat) := []
  /-- STANDBY_TICKS, 64 bits in the system region of MRAM (24 R537); NV, DESIGN CHOICE 0, log 6 -/
  standby : Nat := 0
  /-- Refusal counters of the codes 1 to 9, 32 bits saturating (24 R537); NV, DESIGN CHOICE 0, log 6 -/
  refusals : List Nat := List.replicate 9 0
  /-- ENTRIES, 32 bits saturating (24 R537); NV, DESIGN CHOICE 0, log 6 -/
  entries : Nat := 0
  /-- FALSE_WAKES, 32 bits saturating (24 R537); NV, DESIGN CHOICE 0, log 6 -/
  falseWakes : Nat := 0
  /-- OFFHOLD_ENTRIES, 32 bits saturating (24 R537); NV, DESIGN CHOICE 0, log 6 -/
  offHolds : Nat := 0
  /-- VSEL1:0, 2 bits (24 R535, 03 Table PU-1); reset 0b01 -/
  vsel : Nat := 1
  /-- Operating point that a change in progress leads to (24 R535); reset 1 -/
  target : Nat := 1
  /-- Tick of the last change of operating point (24 R536); reset none -/
  oppAt : Option Nat := none
deriving DecidableEq, Repr, Inhabited

end Sys2Proof.Machine
end

