-- ==== Sys2Proof/Machine/StMeter.lean ====
section
/-!
DEFINITION. The state of the metering front end, the lanes, calibration, the energy registers and the pulse outputs
(05, 06, 07, 08). Each field's docstring is its line of the inventory: width, source, reset value.
-/

namespace Sys2Proof.Machine

/-- One modulator stream (05 R133 to R151). -/
structure Stream where
  /-- Condition found: 0 none, 1 STUCK, 2 OVERRANGE (05 R148); DESIGN CHOICE 0, log 5 -/
  cond : Nat := 0
  /-- Ticks since the condition cleared, up to 16 (05 R148); DESIGN CHOICE 16, log 5 -/
  clear : Nat := 16
  /-- Settling ticks left, up to 17 (05 R136); reset 17 -/
  settle : Nat := 17
  /-- Fault markers in a row (05 R149); reset 0 -/
  mark : Nat := 0
  /-- The last 254 modulator bits before this tick, newest first (05 R134); reset none -/
  bits : List Bool := []
  /-- The last 255 outputs of the sinc³ stage, newest first (05 R134); reset none -/
  sinc : List Int := []
  /-- Sum of the bias samples of the cycle in progress (05 R148); reset 0 -/
  cycSum : Int := 0
  /-- Count of those samples (05 R148); reset 0 -/
  cycN : Nat := 0
  /-- The cycle in progress began inside the bias window, 1 bit (05 R148); reset 0 -/
  whole : Bool := false
  /-- Sum of the bias window in progress (05 R148); reset 0 -/
  winSum : Int := 0
  /-- Count of its samples (05 R148); reset 0 -/
  winN : Nat := 0
  /-- Ticks of the bias window in progress (05 R148); reset 0 -/
  winTicks : Nat := 0
  /-- Start-up bias window passed, 1 bit (05 R151); reset 0 -/
  biasOk : Bool := false
  /-- Start-up bias window judged, 1 bit (05 R148); reset 0 -/
  biasDone : Bool := false
  /-- Service windows out of limit in a row (05 R148); reset 0 -/
  biasBad : Nat := 0
  /-- BIAS failed, 1 bit (05 R149); reset 0 -/
  biasFail : Bool := false
  /-- Stream failed, 1 bit (05 R149); reset 0 -/
  failed : Bool := false
  /-- Ticks live and in bias since it came back, for the lift of its fence (25 Table SP-2); reset 0 -/
  live : Nat := 0
  /-- SUBST_TICKS, 16 bits saturating (05 Table MF-14); DESIGN CHOICE 0, log 5 -/
  subst : Nat := 0
  /-- Ticks metered by substitution of this failure, not yet in Cairn (05 R150); reset 0 -/
  substRun : Nat := 0
  /-- Samples, newest first, with a mark on substituted ones, 255 (05 R149, 06 R160); reset none -/
  hist : List (Int × Bool) := []
  /-- Last good cycle, oldest first, repeated after a failure (05 R150); reset none -/
  good : List Int := []
  /-- Position in the repeated cycle (05 R150); reset 0 -/
  goodPos : Nat := 0
deriving DecidableEq, Repr, Inhabited

/-- One result of the harmonic analysis of a channel (06 R170). -/
structure Harm where
  /-- WINDOW_CYCLES, 0 while none complete (06 Table MQ-14); reset 0 -/
  cycles : Nat := 0
  /-- VALID, 1 bit (06 R171) -/
  valid : Bool := false
  /-- MAG, 1 bit (06 R184) -/
  mag : Bool := false
  /-- WINDOW_END, 64 bits (06 Table MQ-14) -/
  endTick : Nat := 0
  /-- FUND_RMS, 32 bits (06 Table MQ-14) -/
  fund : Nat := 0
  /-- THD, 16 bits (06 R170) -/
  thd : Nat := 0
  /-- MAG_h for h = 2 to 40, 16 bits each (06 R170) -/
  mags : List Nat := []
  /-- PHASE_h for h = 2 to 40, S16 each (06 R170) -/
  phases : List Int := []
deriving DecidableEq, Repr, Inhabited

/-- Values of one phase over a cycle: rms values and apparent power as squares, exact (06 R163). -/
structure Vals where
  /-- Urms squared, 1 mV squared (06 R163) -/
  u2 : Rat := 0
  /-- Irms squared, 0.1 mA squared (06 R163) -/
  i2 : Rat := 0
  /-- P, 1 mW (06 R163) -/
  p : Rat := 0
  /-- Q, 1 mvar (06 R163) -/
  q : Rat := 0
  /-- S squared, 1 mVA squared (06 R163) -/
  s2 : Rat := 0
deriving DecidableEq, Repr, Inhabited

/-- What the samples of one path add to a cycle of one phase, in the units of that path (05 R139, 06 R163). -/
structure PathSum where
  /-- Ticks of the cycle on the path, with their fractions -/
  w : Rat := 0
  /-- Sum of operand squares, mean-square units -/
  ii : Rat := 0
  /-- Sum of products u i, upper 32 bits -/
  ui : Rat := 0
deriving DecidableEq, Repr, Inhabited

/-- Sums over the cycle in progress of one phase (06 R163). -/
structure CycSum where
  /-- Sum of raw current codes squared (05 R138) -/
  raw : Rat := 0
  /-- Sum of voltage squares, mean-square units (06 R163) -/
  uu : Rat := 0
  /-- The samples on the coarse path (05 R139) -/
  c : PathSum := {}
  /-- The samples on the fine path (05 R139) -/
  f : PathSum := {}
  /-- A substituted sample lies in the cycle (06 Table MQ-12) -/
  sub : Bool := false
  /-- Path at the start of the cycle: true fine (05 R138) -/
  fine : Bool := false
deriving DecidableEq, Repr, Inhabited

/-- Sums of the products uH i127 over a shifted cycle, by the path of each sample (06 R163). -/
structure QSum where
  /-- Ticks on the coarse path -/
  wc : Rat := 0
  /-- Sum of the products on the coarse path -/
  c : Rat := 0
  /-- Ticks on the fine path -/
  wf : Rat := 0
  /-- Sum of the products on the fine path -/
  f : Rat := 0
deriving DecidableEq, Repr, Inhabited

/-- A mains cycle of a phase as CAL_READ averages it (07 Table CA-7). -/
structure CycRaw where
  /-- Tick of the crossing that ended it -/
  tick : Nat := 0
  /-- Its path: 0 coarse, 1 fine, 2 both -/
  path : Nat := 0
  /-- Mean square, units of the path -/
  ms : Rat := 0
  /-- Active power with gain, without offset, 1 uW -/
  p : Rat := 0
  /-- Reactive power likewise, 1 uvar; none until 127 ticks after the crossing -/
  q : Option Rat := none
deriving DecidableEq, Repr, Inhabited

/-- One phase of one port (05 R138, 06 R163 to R169). -/
structure Ph where
  /-- Path in force: true fine (05 R138); reset coarse (R141) -/
  fine : Bool := false
  /-- Hold in force: 0 none, 1 coarse, 2 fine (05 R159); reset 0 -/
  hold : Nat := 0
  /-- Hold requested for the next crossing: mode, seconds (05 R159); reset none -/
  holdReq : Option (Nat × Nat) := none
  /-- Tick at which the hold expires (05 R159); reset 0 -/
  holdEnd : Nat := 0
  /-- Qualifying cycles in a row (05 R138); reset 0 -/
  cnt : Nat := 0
  /-- Counting restarts at the next crossing, 1 bit (05 R138); reset 0 -/
  restart : Bool := false
  /-- PATH_CHANGES, 16 bits saturating (05 R140); DESIGN CHOICE 0, log 5 -/
  changes : Nat := 0
  /-- ESCAPES, 16 bits saturating (05 R140); DESIGN CHOICE 0, log 5 -/
  escapes : Nat := 0
  /-- Path of the last 128 ticks, newest first (06 R167); reset none -/
  paths : List Bool := []
  /-- Products of the current in the result boxcar, newest first: i2, p, q (06 R160); reset none -/
  box : List (Rat × Rat × Rat) := []
  /-- Products u2 of the paired voltage, whose boxcar has 17 ticks on either path, newest first (06 R160); reset none -/
  boxU : List Rat := []
  /-- Sums of the cycle in progress; reset 0 -/
  sum : CycSum := {}
  /-- Sums of the cycle that a crossing has just ended; reset none -/
  ended : CycSum := {}
  /-- Sums of uH i127 of the shifted cycle in progress (06 R163); reset 0 -/
  qSum : QSum := {}
  /-- Q of the last shifted cycle that ended, 1 mvar, by the set of its samples (06 R163, 07 R197); reset 0 -/
  qVal : Rat := 0
  /-- Cycle values (06 R163); reset none -/
  vals : Option Vals := none
  /-- Cycle value flags: SUBST, 1 bit (06 Table MQ-12); reset 0 -/
  valSub : Bool := false
  /-- Steps suppressed, 1 bit (06 R169); reset 1 -/
  supp : Bool := true
  /-- Route in force: P sign, true import (06 R168); reset true -/
  pPos : Bool := true
  /-- Route in force: Q sign, true positive (06 R168); reset true -/
  qPos : Bool := true
  /-- Active carry per rate, 8 signed values in 2^-32 mWh (06 R168, 08 R205); reset 0 -/
  act : List Int := List.replicate 8 0
  /-- Reactive carry per rate, 8 signed values (06 R168, 08 R205); reset 0 -/
  rea : List Int := List.replicate 8 0
  /-- Closed amounts waiting for the next commit: quantity, rate, amount (06 R168); reset none -/
  closed : List (Nat × Nat × Nat) := []
  /-- Ticks of reactive steps still to be discarded after the reactive tail (08 R213); reset 0 -/
  discard : Nat := 0
  /-- The last cycles for CAL_READ, newest first (07 Table CA-7); reset none -/
  raws : List CycRaw := []
  /-- Samples of the harmonic window in progress, newest first (06 R170); reset none -/
  win : List Int := []
  /-- A substituted sample lies in that window, 1 bit (06 R171); reset 0 -/
  winSub : Bool := false
  /-- Samples of the window that has ended and waits for its evaluation (06 R170); reset none -/
  doneWin : List Int := []
  /-- A substituted sample lies in that window, 1 bit (06 R171); reset 0 -/
  doneSub : Bool := false
  /-- Harmonic result of the current (06 R170); reset none -/
  harm : Harm := {}
deriving DecidableEq, Repr, Inhabited

/-- One supply event of a group (06 R174). -/
structure SupEv where
  /-- Event set, 1 bit (06 R174); reset 0 -/
  on : Bool := false
  /-- Cycles in which the set condition held, in a row (06 R174); reset 0 -/
  setN : Nat := 0
  /-- Cycles in which the clear condition held, in a row (06 R174); reset 0 -/
  clrN : Nat := 0
  /-- Worst value so far, as reported (06 Table MQ-16); reset 0 -/
  worst : Nat := 0
  /-- Distance or second part of the worst value (06 Table MQ-16); reset 0 -/
  far : Nat := 0
  /-- Change found at the last crossing: 0 none, 1 set, 2 clear (06 R174); reset 0 -/
  due : Nat := 0
  /-- Reported to Keystone for a safe stop when it set (06 R177); reset 0 -/
  stops : Bool := false
deriving DecidableEq, Repr, Inhabited

/-- The end of a mains cycle found by the tick (05 R143). -/
structure CycEnd where
  /-- 0 crossing, 1 no crossing in 178 ticks, 2 substitute cycle ended -/
  kind : Nat := 0
  /-- Fraction of the last tick inside the ended cycle -/
  frac : Rat := 1
  /-- Line that crossed -/
  line : Nat := 0
  /-- Tick of the end -/
  tick : Nat := 0
  /-- Ticks from the start to the end of the ended cycle -/
  ticks : Nat := 0
  /-- A whole mains or substitute cycle, not one cut short (05 R143) -/
  whole : Bool := false
  /-- Ticks of the ended cycle, with fractions -/
  len : Rat := 0
  /-- Sums of squares of L1, L2, L3, N-PE codes over the ended cycle -/
  sums : List Rat := []
deriving DecidableEq, Repr, Inhabited

/-- A harmonic window of a group (06 R170). -/
structure HWin where
  /-- Cycles so far, 10 or 12 at its end -/
  cycles : Nat := 0
  /-- Cycles that it lasts -/
  len : Nat := 10
  /-- Weight of its first and of its last sample -/
  w0 : Rat := 1
  /-- Weight of its last sample -/
  w1 : Rat := 1
  /-- Sum of the frequency at the ends of its cycles, 0.1 mHz -/
  sumF : Rat := 0
  /-- Lowest frequency, 0.1 mHz -/
  lo : Rat := 0
  /-- Highest frequency, 0.1 mHz -/
  hi : Rat := 0
  /-- A substituted sample of a voltage lies in it, 1 bit (06 R171) -/
  sub : Bool := false
  /-- Samples of L1, L2, L3, newest first -/
  us : List (List Int) := [[], [], []]
deriving DecidableEq, Repr, Inhabited

/-- One voltage group (05 R143, 06 R166 to R179). -/
structure Grp where
  /-- Reference line in use, 0 to 2 (05 R143); DESIGN CHOICE 0, log 5 -/
  ref : Nat := 0
  /-- Substitute cycle, 1 bit (05 R143); DEDUCED 1, log 14 -/
  sub : Bool := true
  /-- Reference line that takes effect at its next crossing (05 R143); reset none -/
  next : Option Nat := none
  /-- Detectors armed, L1 to L3 (05 R143); reset not armed -/
  armed : List Bool := [false, false, false]
  /-- Ticks of the cycle in progress (05 R143); reset 0 -/
  ticks : Nat := 0
  /-- Length of the cycle in progress in ticks, with its first fraction (06 R163); reset 0 -/
  len : Rat := 0
  /-- Sums of squares of L1, L2, L3, N-PE of the cycle in progress (05 R143); reset 0 -/
  sums : List Rat := [0, 0, 0, 0]
  /-- End of a cycle waiting for its evaluation (05 R143); reset none -/
  ended : Option CycEnd := none
  /-- Ends of the shifted cycles of Q: tick and fraction (06 R163); reset none -/
  qEnds : List (Nat × Rat) := []
  /-- Ticks of the last whole cycle (05 R149); DESIGN CHOICE 160, log 5 -/
  cycTicks : Nat := 160
  /-- First and last tick of each whole cycle in the history of 178 samples, newest first (05 R150); reset none -/
  runs : List (Nat × Nat) := []
  /-- Time of the last crossing in ticks (06 R166); reset none -/
  cross : Option Rat := none
  /-- Periods held, newest first, at most 8, in ticks (06 R166); reset none -/
  periods : List Rat := []
  /-- Frequency, 0.1 mHz, exact (06 R166); reset 0 -/
  freq : Rat := 0
  /-- Frequency at which g is evaluated, 0.1 mHz, 0 while none since reset (06 R166); reset 0 -/
  gFreq : Rat := 0
  /-- Cycle Urms squared of L1, L2, L3, N-PE in 1 mV squared (06 R163); reset none -/
  urms : List Rat := []
  /-- theta2, 0.01 degree (06 R175); DESIGN CHOICE 0, log 5 -/
  th2 : Nat := 0
  /-- theta3, 0.01 degree (06 R175); DESIGN CHOICE 0, log 5 -/
  th3 : Nat := 0
  /-- SEQ: 0 normal, 1 reversed, 2 angle fault, 3 not judged (06 Table MQ-13); reset 3 -/
  seq : Nat := 3
  /-- Tick of the last completed cycle (06 Table MQ-12); reset 0 -/
  valTick : Nat := 0
  /-- The magnetic event was active when the values of that cycle were produced, 1 bit (06 R184); reset 0 -/
  valMag : Bool := false
  /-- Cycles in a row within 45 to 65 Hz (03 Table PU-16); reset 0 -/
  goodN : Nat := 0
  /-- Supply events, 17 in the order of READ_GROUP (06 R174); reset none -/
  evs : List SupEv := List.replicate 17 {}
  /-- Supply-event table in force (06 R179); reset the installed one or the defaults -/
  tbl : List Byte := []
  /-- Conduction veto of a supply event, 1 bit (06 R177); reset 0 -/
  veto : Bool := false
  /-- Tick at which the veto ends (06 R177); reset none -/
  vetoEnd : Option Nat := none
  /-- The harmonic window in progress, none before a crossing starts one (06 R170); reset none -/
  win : Option HWin := none
  /-- The window that has ended and waits for its evaluation (06 R170); reset none -/
  winDone : Option HWin := none
  /-- Mean frequency of the previous window, 0.1 mHz (06 R170); reset 0 -/
  meanF : Rat := 0
  /-- Harmonic results of L1, L2, L3 (06 R170); reset none -/
  harms : List Harm := [{}, {}, {}]
deriving DecidableEq, Repr, Inhabited

/-- One SAR converter (05 R152 to R157, 01 R26 to R28). -/
structure Sar where
  /-- ROLE: 0 active, 1 spare idle, 2 spare carrying, 3 fenced (05 Table MF-14) -/
  role : Nat := 0
  /-- CARRIES: converter whose slot list it runs, 0xFF none (05 Table MF-14) -/
  carries : Nat := 0xFF
  /-- SELFTEST_FAILS, 16 bits saturating (05 Table MF-14); DESIGN CHOICE 0, log 5 -/
  fails : Nat := 0
  /-- Failed self-tests in successive ticks (05 R156); reset 0 -/
  run : Nat := 0
  /-- Passed self-tests in succession (25 Table SP-2); reset 0 -/
  okRun : Nat := 0
deriving DecidableEq, Repr, Inhabited

/-- The lanes (01 R29 to R31, 05 R158). -/
structure Lanes where
  /-- Port served by each of the 28 lanes, 0xFF none (01 R29); NV, port p on lane p, lanes 24 to 27 spare -/
  map : List Nat := List.range 24 ++ [0xFF, 0xFF, 0xFF, 0xFF]
  /-- Withdrawals of each lane (25 R540); NV, 0 -/
  withdrawn : List Nat := List.replicate 28 0
  /-- Active lane that each lane shadows, 0xFF none (01 R29); DESIGN CHOICE 0xFF, log 5 -/
  shadow : List Nat := List.replicate 28 0xFF
  /-- First active lane of the next rotation (01 R29); DESIGN CHOICE 0, log 5 -/
  rot : Nat := 0
  /-- Tick of the last rotation (01 R29); reset 0 -/
  rotTick : Nat := 0
  /-- Known-answer vector passed at this boot, per lane (25 R540); reset 0 -/
  kav : List Bool := List.replicate 28 false
deriving DecidableEq, Repr, Inhabited

/-- The ingredients of one coefficient bank (07 R186, R196). -/
structure Bank where
  /-- Port record, 192 bytes (07 Table CA-3) -/
  port : List Byte := []
  /-- Group record, 32 bytes (07 Table CA-4) -/
  group : List Byte := []
  /-- Band, 3 bits (07 R193) -/
  band : Nat := 0
  /-- Temperature-coefficient table, 2,096 bytes (07 Table CA-5) -/
  temp : List Byte := []
deriving DecidableEq, Repr, Inhabited

/-- The coefficient banks of the lane of one port (07 R196, R197). -/
structure Banks where
  /-- Active bank -/
  active : Bank := {}
  /-- Composition in progress or complete: the shadow bank and the ticks it still takes (07 R196); reset none -/
  shadow : Option (Bank × Nat) := none
  /-- A complete shadow bank swaps at the end of this tick, 1 bit (07 R196); reset 0 -/
  swap : Bool := false
  /-- Composition behind a bank that is already marked to swap (07 R196); reset none -/
  more : Option (Bank × Nat) := none
  /-- Banks that were in force, newest first, with the tick of the swap (07 R197); reset none -/
  old : List (Nat × Bank) := []
deriving DecidableEq, Repr, Inhabited

/-- A staged calibration block (07 R198). -/
structure CalBlock where
  /-- TARGET, 8 bits -/
  target : Nat := 0
  /-- PHASE, 8 bits -/
  phase : Nat := 0
  /-- PATH, 8 bits -/
  path : Nat := 0
  /-- 28 bytes -/
  bytes : List Byte := []
deriving DecidableEq, Repr, Inhabited

/-- A calibration commit in progress: its Cairn entry queued, its record to be written (07 R199). -/
structure CalJob where
  /-- TARGET, 8 bits -/
  target : Nat := 0
  /-- New record, bytes -/
  record : List Byte := []
  /-- Token of the Cairn entry -/
  token : Nat := 0
deriving DecidableEq, Repr, Inhabited

/-- A calibration commit whose response is outstanding (07 R199). -/
structure CalRun where
  /-- Channel that asked -/
  ch : Nat := 0
  /-- Records whose writing waits for the Cairn entry -/
  jobs : List CalJob := []
  /-- Records completed: target, version, CRC -/
  done : List (Nat × Nat × Nat) := []
deriving DecidableEq, Repr, Inhabited

/-- Calibration and temperature (07). -/
structure Cal where
  /-- Port records, two MRAM copies each, 192 bytes (07 R189); NV, empty reads as the record of manufacture, log 6 -/
  port : List (List Byte × List Byte) := List.replicate 24 ([], [])
  /-- Group records, two MRAM copies each, 32 bytes (07 R189); NV, empty reads as the record of manufacture, log 6 -/
  group : List (List Byte × List Byte) := List.replicate 4 ([], [])
  /-- Banks of the lane of each port (07 R196) -/
  banks : List Banks := List.replicate 24 {}
  /-- Owner channel of the staging (07 R198); reset none -/
  owner : Option Nat := none
  /-- Staged blocks (07 R198); reset empty -/
  blocks : List CalBlock := []
  /-- Commit in progress (07 R199); reset none -/
  run : Option CalRun := none
  /-- Band in force, 3 bits (07 R193); DESIGN CHOICE 0, log 5 -/
  band : Nat := 0
  /-- First band of this boot set, 1 bit (07 R193); reset 0 -/
  bandSet : Bool := false
  /-- Ticks since OR became ACTIVE, up to 64 (07 R193); reset 0 -/
  bootTicks : Nat := 0
  /-- Sum of TEMP0 results in the second or the boot window, 0.1 degC (07 R192); reset 0 -/
  sum0 : Int := 0
  /-- Count of TEMP0 results (07 R192); reset 0 -/
  n0 : Nat := 0
  /-- Sum of TEMP1 results (07 R192); reset 0 -/
  sum1 : Int := 0
  /-- Count of TEMP1 results (07 R192); reset 0 -/
  n1 : Nat := 0
  /-- Ticks of the second in progress (07 R192); reset 0 -/
  secTicks : Nat := 0
  /-- TEMP: die temperature of the last second, S16 in 0.1 degC (07 Table CA-7); DESIGN CHOICE 0, log 5 -/
  temp : Int := 0
  /-- Band frozen, 1 bit (07 R192); reset 0 -/
  frozen : Bool := false
  /-- Seconds in a row with sensors more than 15.0 degC apart (07 R192); reset 0 -/
  farN : Nat := 0
  /-- Seconds in a row with sensors within 5.0 degC (07 R192); reset 0 -/
  nearN : Nat := 0
deriving DecidableEq, Repr, Inhabited

/-- One register entry (08 R204). -/
structure Reg where
  /-- E = VALUE x 2^32 + RESIDUE, 96 bits (08 R204); NV, 0 on a device that has never committed -/
  e : Nat := 0
  /-- LAST_COMMIT, 32 bits (08 R204); NV, 0 -/
  last : Nat := 0
deriving DecidableEq, Repr, Inhabited

/-- One journal slot (08 R207). -/
structure Slot where
  /-- COMMIT, 64 bits -/
  commit : Nat := 0
  /-- TICK, 64 bits -/
  tick : Nat := 0
  /-- FLAGS, 16 bits -/
  flags : Nat := 0
  /-- TIME, 64 bits -/
  time : Nat := 0
  /-- CRC, 32 bits -/
  crc : Nat := 0
  /-- Entries: INDEX and E -/
  entries : List (Nat × Nat) := []
deriving DecidableEq, Repr, Inhabited

/-- The energy registers and their journal (08). -/
structure Energy where
  /-- The 2,376 registers by index; unlisted reads 0 (08 R203, R204); NV, 0 -/
  regs : List (Nat × Reg) := []
  /-- The two journal slots, none while never written (08 R207); NV, none -/
  slots : List (Option Slot) := [none, none]
  /-- Commit count, 64 bits (08 R207); NV, 0 -/
  commits : Nat := 0
  /-- Last tick committed (08 R208); reset none -/
  doneTick : Option Nat := none
  /-- Commit ticks since reset, for the refresh (08 R210); reset 0 -/
  ctCount : Nat := 0
  /-- Next register of the refresh (08 R210); DESIGN CHOICE 0, log 5 -/
  refresh : Nat := 0
  /-- Tick of the forced commit (08 R212); reset none -/
  forced : Option Nat := none
  /-- AFTER_FORCED, 1 bit (08 Table EG-4); reset 0 -/
  after : Bool := false
  /-- Tick in which PFAIL_N was confirmed (08 R212); reset none -/
  pfailTick : Option Nat := none
  /-- Tick of a rise of PFAIL_N before the forced commit, taken after it (08 R215); reset none -/
  rise : Option Nat := none
  /-- Tick of a confirmed fall after that rise (08 R215); reset none -/
  again : Option Nat := none
  /-- Ports held under R218, 24 bits (08 R218); reset 0 -/
  held : List Bool := List.replicate 24 false
  /-- TICK of the journal slot that the restore applied (08 R217, 14 Table PP-6); reset 0 -/
  restTick : Nat := 0
  /-- Restored since OR became ACTIVE, 1 bit (08 R217); reset 0 -/
  restored : Bool := false
  /-- Rates in force of the last 128 ticks, newest first (08 R205); reset none -/
  rates : List Nat := []
deriving DecidableEq, Repr, Inhabited

/-- The source of a pulse output (06 R180, 07 R201). -/
structure PulseSel where
  /-- SOURCE: 0 to 23 port, 24 hub, 0xFF none (06 Table MQ-15) -/
  source : Nat := 0xFF
  /-- PHASE of a CAL_PULSE, 0xFF for none (07 Table CA-11) -/
  phase : Nat := 0xFF
  /-- DIRECTION, 2 bits (06 Table MQ-15) -/
  dir : Nat := 0
deriving DecidableEq, Repr, Inhabited

/-- One pulse output, PLS_P or PLS_Q (06 R180 to R182). -/
structure Pulse where
  /-- Selection in force (06 R180); reset none -/
  sel : PulseSel := {}
  /-- Selection that takes effect at the next tick (06 R181); reset none -/
  next : Option PulseSel := none
  /-- A new constant clears the generator at the next tick, 1 bit (06 R181); reset 0 -/
  renew : Bool := false
  /-- Meter constant in force, imp/kWh, 0 before the first selection (06 R181); reset 0 -/
  const : Nat := 0
  /-- The generator's work of this commit tick waits for the commit, 1 bit (06 R182); reset 0 -/
  owed : Bool := false
  /-- credited_this_tick, 2^-32 mWh (06 R182); reset 0 -/
  credit : Nat := 0
  /-- acc, 2^-32 mWh (06 R182); reset 0 -/
  acc : Nat := 0
  /-- backlog, 16 bits (06 R182); reset 0 -/
  backlog : Nat := 0
  /-- stopped, 1 bit (06 R182); reset 0 -/
  stopped : Bool := false
  /-- The output, 1 bit: high (06 R180); reset low -/
  high : Bool := false
  /-- width_left (06 R182); reset 0 -/
  width : Nat := 0
  /-- low_ticks (06 R182); reset 0 -/
  low : Nat := 0
  /-- ticks_since_last_edge, 0 for none (06 R182); reset 0 -/
  since : Nat := 0
  /-- PULSES since the previous selection, 32 bits (06 Table MQ-15); reset 0 -/
  pulses : Nat := 0
deriving DecidableEq, Repr, Inhabited

/-- Metering as a whole. -/
structure Meter where
  /-- The 112 streams (05 R133) -/
  streams : List Stream := List.replicate 112 {}
  /-- The 72 phases in the order 3p + x -/
  phs : List Ph := List.replicate 72 {}
  /-- The four voltage groups -/
  grps : List Grp := List.replicate 4 {}
  /-- The six converters: SAR0 to SAR4 active, SAR5 spare (01 R26); restored from the spare map -/
  sars : List Sar := [⟨0, 0, 0, 0, 0⟩, ⟨0, 1, 0, 0, 0⟩, ⟨0, 2, 0, 0, 0⟩, ⟨0, 3, 0, 0, 0⟩, ⟨0, 4, 0, 0, 0⟩, ⟨1, 0xFF, 0, 0, 0⟩]
  /-- The lanes -/
  lanes : Lanes := {}
  /-- PLS_P and PLS_Q (06 R180) -/
  pulses : List Pulse := [{}, {}]
deriving DecidableEq, Repr, Inhabited

end Sys2Proof.Machine
end

