-- ==== Sys2Proof/Machine/StNf.lean ====
section
/-!
DEFINITION. The state of the contactless front-ends (16). Each field's docstring is its line of the inventory: width,
source, reset value.
-/

namespace Sys2Proof.Machine

/-- A staged profile write (16 R389). -/
structure Staged where
  /-- UID, 4, 7 or 10 bytes -/
  uid : List Byte := []
  /-- DATA, LEN bytes -/
  data : List Byte := []
  /-- Tick of staging -/
  at_ : Nat := 0
deriving DecidableEq, Repr, Inhabited

/-- The card application session (16 R385 to R389). -/
structure CardRun where
  /-- UID gathered, 0 to 10 bytes (16 R383) -/
  uid : List Byte := []
  /-- Cascade level, 0 to 2 (16 R383) -/
  level : Nat := 0
  /-- Known bits of the level, bit 0 first (16 R383) -/
  known : List Bool := []
  /-- Restarts of the level (16 R383) -/
  restarts : Nat := 0
  /-- The card supports part 4, 1 bit (16 R384) -/
  part4 : Bool := false
  /-- RC, 16 bytes (16 R386) -/
  rc : List Byte := []
  /-- RR, 16 bytes (16 R386) -/
  rr : List Byte := []
  /-- Kc, in the AES engine's session registers (16 R386) -/
  kc : List Byte := []
  /-- Ks, likewise (16 R386) -/
  ks : List Byte := []
  /-- CTR, 16 bits (16 R386) -/
  ctr : Nat := 0
  /-- Record being read (16 R385) -/
  rcd : Nat := 0
  /-- Records read, in order (16 R385) -/
  recs : List (List Byte) := []
  /-- Load-modulation amplitudes of the last 3 responses, newest first (16 R389) -/
  lms : List Nat := []
  /-- Counter record in use, none without one (16 R387) -/
  use : Option (List Byte) := none
  /-- Account of the card, none without one (14 R358) -/
  acct : Option Nat := none
  /-- Step of the purse absorption that SE works on: 1, 2, 4, 5 or 6, 0 none (14 Table PP-9) -/
  purse : Nat := 0
  /-- Record being written to the card (16 R388, R389) -/
  wr : List Byte := []
  /-- Its slot, 1 to 4 -/
  slot : Nat := 0
  /-- Read-backs that differed (16 R388) -/
  bad : Nat := 0
  /-- Staged profile write that D2 and D3 carry out (16 R389) -/
  prof : Option Staged := none
  /-- Largest frame that the card takes, FSC of its ATS, bytes (16 R382) -/
  fsc : Nat := 32
  /-- Block number of the reader, 1 bit (16 Table CL-4) -/
  bn : Nat := 0
  /-- Bytes of the command not yet sent in a block (16 Table CL-4) -/
  out : List Byte := []
  /-- Bytes of the answer received in chained blocks (16 Table CL-4) -/
  acc : List Byte := []
  /-- Last I-block sent (16 Table CL-4) -/
  last : List Byte := []
  /-- R(NAK) blocks sent in a row (16 Table CL-4, log 154) -/
  naks : Nat := 0
deriving DecidableEq, Repr, Inhabited

/-- One front-end (16). -/
structure Nf where
  /-- Its part of table 0x0C01 in force, 16 bytes (16 Table CL-3); reset none -/
  cfg : List Byte := []
  /-- Step of the exchange: 0 none, 1 REQA, 2 ANTICOLLISION, 3 SELECT, 4 RATS, 5 PPS, 6 SELECT_APP, 7 AUTH_1, 8 AUTH_2,
  9 READ, 10 repair WRITE, 11 AP works, 12 to 15 V1 to V4, 16 D2, 17 D3, 18 S(DESELECT), 19 HLTA (16 R380 to R389); reset 0 -/
  ph : Nat := 0
  /-- Carrier on, 1 bit (16 R378); reset 0 -/
  carrier : Bool := false
  /-- A baseline has been taken since the full reset, 1 bit (16 R379); reset 0 -/
  based : Bool := false
  /-- A_base, exact, code (16 R379); DESIGN CHOICE 0, log 5 -/
  aBase : Rat := 0
  /-- phi_base, exact, 0.1 degree (16 R379); DESIGN CHOICE 0, log 5 -/
  phiBase : Rat := 0
  /-- LAST_DELTA, 16 bits (16 Table CL-14); DESIGN CHOICE 0, log 5 -/
  delta : Nat := 0
  /-- The next ping is taken as the baseline, 1 bit (16 R380); reset 0 -/
  rebase : Bool := false
  /-- Tick of the next ping (16 R378); reset 0 -/
  nextPing : Nat := 0
  /-- REQAs sent in a row without an answer, 2 bits (16 R380); reset 0 -/
  reqa : Nat := 0
  /-- The card on the antenna (16 R385); reset none -/
  card : CardRun := {}
  /-- UIDs handled: UID and tick (16 R380); reset none -/
  handled : List (List Byte × Nat) := []
  /-- Last frame sent, without its CRC (16 R382); DESIGN CHOICE none, log 5 -/
  tx : List Byte := []
  /-- PINGS, 32 bits saturating (16 Table CL-14); DESIGN CHOICE 0, log 5 -/
  pings : Nat := 0
  /-- SKIPPED, 32 bits saturating; DESIGN CHOICE 0, log 5 -/
  skipped : Nat := 0
  /-- POLLS, 32 bits saturating; DESIGN CHOICE 0, log 5 -/
  polls : Nat := 0
  /-- CARDS, 32 bits saturating; DESIGN CHOICE 0, log 5 -/
  cards : Nat := 0
  /-- RECOVERED, 32 bits saturating; DESIGN CHOICE 0, log 5 -/
  recovered : Nat := 0
  /-- WRITE_ABORTS, 32 bits saturating; DESIGN CHOICE 0, log 5 -/
  aborts : Nat := 0
  /-- FIELD_WAKES, 32 bits saturating; DESIGN CHOICE 0, log 5 -/
  wakes : Nat := 0
  /-- An external field is seen, 1 bit (16 R392); reset 0 -/
  field : Bool := false
  /-- Tick in which the field ended (16 R392); reset none -/
  ended : Option Nat := none
  /-- A field-detect wake is pending at this front-end, 1 bit (16 R392); reset 0 -/
  wake : Bool := false
  /-- UID in emulation, 4 bytes (16 R391); reset none -/
  emuUid : List Byte := []
  /-- Card state in emulation: 0 IDLE, 1 READY, 2 ACTIVE, 3 HALT, 4 in part 4 (16 Table CL-4, R391); reset IDLE -/
  emu : Nat := 0
  /-- READY was entered from HALT, 1 bit (16 Table CL-4); reset 0 -/
  emuHalt : Bool := false
  /-- Block number in emulation, 1 bit (16 Table CL-4); reset 1 -/
  ebn : Nat := 1
  /-- Largest frame that the reader takes, FSD of its RATS, bytes (16 Table CL-4); reset 16 -/
  efsd : Nat := 16
  /-- Bytes of LE's answer not yet sent in a block (16 R393); reset none -/
  eout : List Byte := []
  /-- Last block sent in emulation, none since RATS (16 Table CL-4); reset none -/
  elast : List Byte := []
  /-- RH of the maintenance authentication, 16 bytes (16 R394); reset none -/
  rh : List Byte := []
  /-- Ks of the maintenance session, none while none is open (16 R394); reset none -/
  mks : Option (List Byte) := none
  /-- MCTR of the last message, 32 bits (16 Table CL-11); reset 0 -/
  mctr : Nat := 0
  /-- Tick of the last message of the session (16 R394); reset 0 -/
  mAt : Nat := 0
  /-- A message of the session is being served, 1 bit (16 R394); reset 0 -/
  mBusy : Bool := false
deriving DecidableEq, Repr, Inhabited

/-- The contactless unit (16). -/
structure Contactless where
  /-- NF0, NF1 -/
  fe : List Nf := [{}, {}]
  /-- Profile writes staged, at most 16 (16 R389); reset none -/
  staged : List Staged := []
deriving DecidableEq, Repr, Inhabited

end Sys2Proof.Machine
end

