-- ==== Sys2Proof/Machine/StPort.lean ====
section
/-!
DEFINITION. The state of one port: pilot, proximity, lock, allocation, residual current, contactor, safe stop,
session and availability (09 to 12, 14, 25), and the state of Lintel and of the safety functions as a whole.
-/

namespace Sys2Proof.Machine

/-- What a pilot generator drives during one period (09 R222 to R224); times in 1/16,384 us since the tick reset. -/
structure Drive where
  /-- Generator mode, 0 to 4 (09 Table VH-2) -/
  mode : Nat := 0
  /-- Duty code, 0.1 % (09 R223) -/
  duty : Nat := 0
  /-- Time of the rising edge that opens the period -/
  start : Nat := 0
  /-- Time of the last CPO edge before or at the start -/
  edge : Nat := 0
deriving DecidableEq, Repr, Inhabited

/-- Pilot, proximity and lock of one port (09). -/
structure Pilot where
  /-- Period in progress (09 R224); reset STEADY_HIGH -/
  cur : Drive := {}
  /-- Period before it (09 R229); reset STEADY_HIGH -/
  prev : Drive := {}
  /-- Mode selected at the start of the tick (09 R224); reset STEADY_HIGH -/
  mode : Nat := 0
  /-- Duty selected at the start of the tick (09 R224); reset 0 -/
  duty : Nat := 0
  /-- A rising edge falls in this tick and is not yet taken, 1 bit (09 R223); reset 0 -/
  edgeDue : Bool := false
  /-- A period has ended and waits for its classification, 1 bit (09 R229); reset 0 -/
  endDue : Bool := false
  /-- Session permit, 1 bit (09 R222, 14 R346); reset 0 -/
  permit : Bool := false
  /-- CP_MODE selection: 0 NOMINAL, 1 HLC, 2 OFF (09 R241); reset 0 -/
  cpMode : Nat := 0
  /-- Available, 1 bit (09 R245); reset AVAILABLE_AT_BOOT when first ready -/
  avail : Bool := true
  /-- A PORT_AVAIL was accepted since the full reset, 1 bit (09 R245); reset 0 -/
  availSet : Bool := false
  /-- PORT_RDY has set since the full reset, 1 bit (09 R231); reset 0 -/
  seen : Bool := false
  /-- Wake requested: ticks of the edges at which it begins and ends (09 R244); reset none -/
  wake : Option (Nat × Nat) := none
  /-- Sums of the period in progress: high sum, high count, low sum, low count (09 R226); reset 0 -/
  hiSum : Nat := 0
  /-- High samples (09 R226); reset 0 -/
  hiN : Nat := 0
  /-- Sum of low samples (09 R226); reset 0 -/
  loSum : Nat := 0
  /-- Low samples (09 R226); reset 0 -/
  loN : Nat := 0
  /-- The drive of the period that ended and waits for its classification (09 R229); reset STEADY_HIGH -/
  past : Drive := {}
  /-- That period does not count: the debounce counts restarted at its end, 1 bit (09 R230); reset 0 -/
  fresh : Bool := false
  /-- Sums of the period that ended: high sum, high count, low sum, low count (09 R229); reset 0 -/
  done : Nat × Nat × Nat × Nat := (0, 0, 0, 0)
  /-- VH of the last period, code, none when no sample (09 R226); reset none -/
  vh : Option Rat := none
  /-- VL of the last period, code, none when no sample (09 R226); reset none -/
  vl : Option Rat := none
  /-- Periods since the last low sample (09 R228); reset 0 -/
  noLow : Nat := 0
  /-- The next period is a diode probe, 1 bit (09 R228); reset 0 -/
  probe : Bool := false
  /-- Start of the probed period until it is judged (09 R228); reset none -/
  probeAt : Option Nat := none
  /-- PROBES, 16 bits saturating (09 Table VH-10); DESIGN CHOICE 0, log 5 -/
  probes : Nat := 0
  /-- DIODE_FAILS, 16 bits saturating (09 Table VH-10); DESIGN CHOICE 0, log 5 -/
  diodeFails : Nat := 0
  /-- STATE, 0 to 10 (09 Table VH-6); reset INIT 0 -/
  st : Nat := 0
  /-- E_REASON, 0 to 4 (09 Table VH-10); reset 0 -/
  eReason : Nat := 0
  /-- Class of the run in progress: 0 none, 1 A, 2 B, 3 C, 4 D, 5 E_0V, 6 INDET, 7 F, 8 E_NOT_F (09 R229); reset 0 -/
  cls : Nat := 0
  /-- Judged periods of that run (09 R231); reset 0 -/
  clsN : Nat := 0
  /-- Periods with diode_fail in a row (09 R231); reset 0 -/
  diodeN : Nat := 0
  /-- A class has held for its debounce and is not yet the state: class, 9 for diode_fail (09 R231); reset none -/
  due : Option Nat := none
  /-- Energy request to Keystone, 1 bit (09 R232); reset 0 -/
  req : Bool := false
  /-- Control-pilot state table in force at this port (09 R230); reset the installed one or the defaults -/
  tbl : List Byte := []
  /-- A version of it takes effect at the next rising edge, 1 bit (09 R230); reset 0 -/
  tblNew : Bool := false
  /-- Sum of PP conversions of the period (09 R235); reset 0 -/
  ppSum : Nat := 0
  /-- Count of those conversions (09 R235); reset 0 -/
  ppN : Nat := 0
  /-- Sum and count of those of the period that ended (09 R235); reset 0 -/
  ppDone : Nat × Nat := (0, 0)
  /-- PP_CODE: PP value of the last period, exact (09 R235, Table VH-10); DESIGN CHOICE 0, log 5 -/
  ppCode : Rat := 0
  /-- Band of the PP run, 8 for none (09 R235); reset 8 -/
  ppBand : Nat := 8
  /-- Periods in that band in a row (09 R235); reset 0 -/
  ppRun : Nat := 0
  /-- PP_STATE: 0 no cable, 1 cable, 2 short, 3 invalid, 4 settling, 5 tethered (09 Table VH-10); reset 4 -/
  ppSt : Nat := 4
  /-- Band in force, 8 for none (09 R235); reset 8 -/
  ppIn : Nat := 8
  /-- A band has held for PP_DEB and is not yet the PP state, 1 bit (09 R235); reset 0 -/
  ppDue : Bool := false
  /-- Tick in which the energy request last ended (11 Table RC-8); reset none -/
  reqOff : Option Nat := none
  /-- BAND_A that counts, which does not grow under a permit or with a switch closed, 0xFF before the first (09 R236);
  reset 0xFF -/
  bandA : Nat := 0xFF
  /-- Band that the rating comes from, 0xFF none (09 R236); reset 0xFF -/
  bandIn : Nat := 0xFF
  /-- Cable limit in force, A (09 R235, R236); reset 0 -/
  cable : Nat := 0
  /-- LOCK: 0 unlocked, 1 pulling, 2 locked, 3 fault, 4 none (09 Table VH-10); reset 0 -/
  lock : Nat := 0
  /-- The lock condition of a granted permit held at the last tick, 1 bit (09 R238); reset 0 -/
  lockCond : Bool := false
  /-- The lock condition of LOCK_AT_PLUG held at the last tick, 1 bit (09 R238); reset 0 -/
  lockPlug : Bool := false
  /-- A lock request waits to be taken, 1 bit (09 R238); reset 0 -/
  lockReq : Bool := false
  /-- Tick of the lock request (09 R238); reset 0 -/
  lockAt : Nat := 0
  /-- Level of the lock channel, %: 0 off, 100 pull-in, LOCK_HOLD_PCT (09 R237); reset 0 -/
  lockPct : Nat := 0
  /-- Last 8 sense samples of the lock channel, newest first, mA (09 R238); reset none -/
  sense : List Nat := []
  /-- Means in the window in a row (09 R238); reset 0 -/
  lockGood : Nat := 0
  /-- Ticks of the mean outside the window in a row (09 R240); reset 0 -/
  lockBad : Nat := 0
  /-- A release waits for open switches, 1 bit (09 R239); reset 0 -/
  relWait : Bool := false
  /-- The waiting release also ends FAULT: it comes from state A or PORT_LOCK, 1 bit (09 R240); reset 0 -/
  relClear : Bool := false
  /-- Currents coded in the past: tick and limit in 0.1 mA, newest first (09 R243); reset none -/
  coded : List (Nat × Nat) := []
  /-- Cycles above the overdraw threshold, phases A to C (09 R243); reset 0 -/
  overN : List Nat := [0, 0, 0]
  /-- HLC_LIMIT last notified: 0.1 A and tick (09 R242); reset none -/
  hlc : Option (Nat × Nat) := none
  /-- Coded current in force, 0.1 mA (09 R225); reset 0 -/
  limit : Nat := 0
deriving DecidableEq, Repr, Inhabited

/-- Lintel's state for one port (10). -/
structure Alloc where
  /-- PRIORITY, 0 to 7 (10 R261); reset from table 0x0601 -/
  prio : Nat := 4
  /-- HOST_MAX, 0.1 A (10 R266); reset from table 0x0601 -/
  hostMax : Nat := 800
  /-- CAP, 0.1 A (10 R249); reset 0 -/
  cap : Nat := 0
  /-- DEMAND, 0.1 A (10 R251); reset 0 -/
  demand : Nat := 0
  /-- TARGET, 0.1 A (10 R253); reset 0 -/
  target : Nat := 0
  /-- ALLOC computed in this tick, 0.1 A (10 R247); reset 0 -/
  alloc : Nat := 0
  /-- Allocation in force in this tick, 0.1 A (10 R247); reset 0 -/
  force : Nat := 0
  /-- HOLD, 0.1 A (10 R255); reset 0 -/
  hold : Nat := 0
  /-- Tick of the rising edge from which SETTLE_S of the hold counts, none before it (10 R255); reset none -/
  holdEdge : Option Nat := none
  /-- Tick of the decision that started the hold (10 R255); reset 0 -/
  holdAt : Nat := 0
  /-- Demand reclaimed, 1 bit (10 R251); reset 0 -/
  recl : Bool := false
  /-- Demand held while reclaimed, 0.1 A (10 R251); reset 0 -/
  reclDem : Nat := 0
  /-- Cycles in a row in which the highest in-use phase of a reclaimed port exceeds its mark, 2 bits (10 R251); reset 0 -/
  reclN : Nat := 0
  /-- Given 6.0 A by admission, 1 bit (10 R253); reset 0 -/
  admitted : Bool := false
  /-- Forced stop selected, 1 bit (10 R258); reset 0 -/
  forced : Bool := false
  /-- Tick since which the allocation is unchanged (10 R251); reset 0 -/
  same : Nat := 0
  /-- Tick since which the allocation is not 0, none while 0 (10 R250); reset none -/
  nz : Option Nat := none
  /-- All phases count as in use until SETTLE_S of a non-zero allocation, 1 bit (10 R250); reset 1 -/
  all : Bool := true
  /-- Phases in use, A to C (10 R250); reset in use -/
  use : List Bool := [true, true, true]
  /-- Cycles at PHASE_USE_DA or above in a row, per phase (10 R250); reset 0 -/
  useN : List Nat := [0, 0, 0]
  /-- Cycle Irms squared of the last SETTLE_S seconds, per phase, newest first, with their ticks (10 R250); reset none -/
  recent : List (List (Nat × Rat)) := [[], [], []]
  /-- Share of a port in safe stop kept, 1 bit (01 R25); reset 0 -/
  kept : Bool := false
deriving DecidableEq, Repr, Inhabited

/-- Residual current of one port (11 R269 to R276). -/
structure Residual where
  /-- Samples received, newest first, codes, 178 (11 R269); reset none -/
  hist : List Int := []
  /-- No sample in this tick, 1 bit (11 R269); reset 0 -/
  skip : Bool := false
  /-- DC value, mA, exact (11 R269); reset 0 -/
  dc : Rat := 0
  /-- AC value squared, mA squared, exact (11 R269); reset 0 -/
  ac2 : Rat := 0
  /-- OFFSET of the session, mA, exact (11 R275); reset 0 -/
  offset : Rat := 0
  /-- NOISE squared of the last plausibility check, mA squared (11 R275); reset 0 -/
  noise2 : Rat := 0
  /-- Trip counters DC 0 to 3, AC 0 to 3 (11 R271); reset 0 -/
  cnt : List Nat := [0, 0, 0, 0, 0, 0, 0, 0]
  /-- Points tripped, in the same order (11 R271); reset 0 -/
  tripped : List Bool := [false, false, false, false, false, false, false, false]
  /-- Counters armed, 1 bit (11 R271); reset 0 -/
  armed : Bool := false
  /-- Trip veto: 0 none, 1 DC, 2 AC (11 R273, Table RC-10); reset 0 -/
  trip : Nat := 0
  /-- A point has tripped in this arming, 1 bit (11 R271); reset 0 -/
  first : Bool := false
  /-- Ticks of successful RC_CLEARs, newest first (11 R274); reset none -/
  clears : List Nat := []
  /-- RC_CLEAR succeeded: the veto ends at the next tick, 1 bit (11 Table RC-11); reset 0 -/
  clearing : Bool := false
  /-- Ticks in a row with DC and AC below half of point 0 (11 Table RC-11); reset 0 -/
  calm : Nat := 0
  /-- Samples of the plausibility window (11 R275); reset none -/
  win : List Int := []
  /-- A substituted or missing sample lies in the window, 1 bit (11 R275); reset 0 -/
  winBad : Bool := false
deriving DecidableEq, Repr, Inhabited

/-- The contactor of one port (11 R277 to R287). -/
structure Contactor where
  /-- CHS commanded on, 1 bit (11 R277); reset 0 -/
  chs : Bool := false
  /-- CLS commanded on, 1 bit (11 R277); reset 0 -/
  cls : Bool := false
  /-- Tick of the last command that changed a switch (11 R283); reset 0 -/
  cmdTick : Nat := 0
  /-- STAGE: 0 idle, 1 plausibility, 2 switch test, 3 pull-in, 4 conducting, 5 opening, 6 drop (11 Table RC-10); reset 0 -/
  stage : Nat := 0
  /-- Step of the closing sequence, 1 to 7, 0 outside (11 Table RC-6); reset 0 -/
  step : Nat := 0
  /-- Ticks of the step in progress (11 R280); reset 0 -/
  stepN : Nat := 0
  /-- A wrong state was seen in the step, 1 bit (11 R280); reset 0 -/
  stepBad : Bool := false
  /-- CFB has not read OPEN in step 1, 1 bit (11 R280); reset 0 -/
  notOpen : Bool := false
  /-- Tick of the retry, none while none waits (11 R276, R280); reset none -/
  retry : Option Nat := none
  /-- PLAUS_FAILs in a row (11 R276); reset 0 -/
  plausN : Nat := 0
  /-- CLOSE_FAILs in a row (11 R280); reset 0 -/
  closeN : Nat := 0
  /-- CFB tick state: pattern 0 to 7, 0xFE UNSETTLED, 0xFF INVALID (11 R279); DESIGN CHOICE 0xFE, log 5 -/
  cfb : Nat := 0xFE
  /-- Ticks in a row of that state (11 R286); reset 0 -/
  cfbN : Nat := 0
  /-- Tick states, newest first, at most 16 (11 R286); reset none -/
  cfbHist : List Nat := []
  /-- Off-pulse in progress or not yet judged: 0 none, 1 high side, 2 low side (11 R284); reset 0 -/
  pulse : Nat := 0
  /-- Tick in which the pulse started (11 R284); reset 0 -/
  pulseTick : Nat := 0
  /-- Conversions of the tick of the pulse not yet judged, 1 bit (11 R285); reset 0 -/
  pulseDue : Bool := false
  /-- Qualified conversions of the pulse, patterns (11 R285); reset none -/
  pulseQ : List Nat := []
  /-- Conversions from 40 us after the pulse, patterns (11 R285); reset none -/
  pulseAfter : List Nat := []
  /-- Inconclusive proofs in a row, high side (11 R285); reset 0 -/
  incH : Nat := 0
  /-- Inconclusive proofs in a row, low side (11 R285); reset 0 -/
  incL : Nat := 0
  /-- LAST_FAULT, code of Table RC-7, 0 none (11 Table RC-10); DESIGN CHOICE 0, log 5 -/
  fault : Nat := 0
  /-- PROOFS, 32 bits saturating (11 Table RC-10); DESIGN CHOICE 0, log 5 -/
  proofs : Nat := 0
  /-- CLOSINGS, 32 bits saturating (11 Table RC-10); DESIGN CHOICE 0, log 5 -/
  closings : Nat := 0
  /-- Cycles at WELD_DA or above while off, per phase (11 R283); reset 0 -/
  weldN : List Nat := [0, 0, 0]
  /-- Fault held until its fence is lifted: WELDED (12 R297); reset 0 -/
  welded : Bool := false
  /-- Fault held until its fence is lifted: MIRROR_OPEN (12 R297); reset 0 -/
  mirror : Bool := false
  /-- Fault held until its fence is lifted: CFB_FAULT (12 R297); reset 0 -/
  cfbFault : Bool := false
  /-- Opening on low current since this tick (11 R282); reset none -/
  opening : Option Nat := none
  /-- Residual and contactor table in force at this port (11 R270); reset the installed one or the defaults -/
  tbl : List Byte := []
  /-- Veto of a fault of Table RC-7, until the fence is lifted, 1 bit (11 R286); reset 0 -/
  vFault : Bool := false
  /-- Veto of VAUX_DROP, 1 bit (11 Table RC-7); reset 0 -/
  vVaux : Bool := false
  /-- Veto of PP_LOST, 1 bit (09 R236); reset 0 -/
  vPp : Bool := false
  /-- Veto of state E, 1 bit (09 Table VH-6); reset 0 -/
  vE : Bool := false
  /-- Veto of a calibration withdrawal, 1 bit (07 R191); reset 0 -/
  vCal : Bool := false
  /-- Veto of an overcurrent report, 1 bit (05 R149); reset 0 -/
  vOver : Bool := false
deriving DecidableEq, Repr, Inhabited

/-- Safe stop of one port (12 R300 to R304). -/
structure Stop where
  /-- STAGE: 0 none, 1 ramp-down, 2 energy removal, 3 safe (12 Table SF-15); reset 0 -/
  stage : Nat := 0
  /-- CAUSE of Table SF-3 (12 Table SF-15); reset 0 -/
  cause : Nat := 0
  /-- RESULT, 0 to 5 (12 Table SF-15); reset 0 -/
  result : Nat := 0
  /-- Start tick s (12 R301); reset 0 -/
  start : Nat := 0
  /-- I0 squared, 0.1 mA squared, exact (12 R301); reset 0 -/
  i0 : Rat := 0
  /-- low_cnt (12 R301); reset 0 -/
  low : Nat := 0
  /-- over_cnt (12 R301); reset 0 -/
  overN : Nat := 0
  /-- Ticks since the start (12 Table SF-15 ELAPSED); reset 0 -/
  ticks : Nat := 0
  /-- Safe-stop table of this stop (12 R303); reset none -/
  tbl : List Byte := []
  /-- Override of the pilot: 0 STEADY_HIGH, 3 ZERO (12 R301, R302); reset none -/
  override : Option Nat := none
  /-- Fence to apply at the end: class and detail (12 R302); reset none -/
  fence : Option (Nat × Nat × Bool) := none
  /-- Causes waiting to start at the next tick (10 R258, 12 Table SF-14); reset none -/
  pend : List Nat := []
deriving DecidableEq, Repr, Inhabited

/-- A session or reservation on one port (14 R344 to R354). -/
structure Session where
  /-- Stage: 0 none, 1 record being written, 2 open, 3 permit ended, 4 settlement being written, 5 reservation with Orchard (14 R346, R352); reset 0 -/
  stage : Nat := 0
  /-- SESSION_ID, 32 bits (14 R346); reset 0 -/
  id : Nat := 0
  /-- Account number, 18 bits (14 R339); reset 0 -/
  account : Nat := 0
  /-- SOURCE: 0 host, 1 card at NF0, 2 card at NF1 (14 Table PP-6); reset 0 -/
  source : Nat := 0
  /-- KIND: 0 prepaid, 1 postpaid (14 Table PP-1); reset 0 -/
  kind : Nat := 0
  /-- FLAGS of the account, 16 bits (14 Table PP-1); reset 0 -/
  flags : Nat := 0
  /-- BALANCE of the reservation, S64 (14 R346); reset 0 -/
  balance : Int := 0
  /-- BALANCE at the session start, S64 (14 Table PP-6); reset 0 -/
  balance0 : Int := 0
  /-- LOW_WARN, 32 bits (14 R346); reset 0 -/
  low : Nat := 0
  /-- e, 32 bits (14 R344, R346); reset 0 -/
  emerg : Nat := 0
  /-- START: A_IMP VALUEs of the port's rates at the start of the running price segment (14 R347, R350); reset none -/
  start : List Nat := []
  /-- SEG: sum of the floored charges of earlier segments, 64 bits (14 R347); reset 0 -/
  seg : Nat := 0
  /-- Energy of earlier segments, mWh (14 R353); reset 0 -/
  segE : Nat := 0
  /-- Charge, 64 bits (14 R347); reset 0 -/
  charge : Nat := 0
  /-- Energy charged, mWh (14 R353); reset 0 -/
  energy : Nat := 0
  /-- Credit state: 0 NORMAL, 1 LOW, 2 EMERGENCY, 3 FRIENDLY, 4 EXHAUSTED (14 R348); reset 0 -/
  credit : Nat := 0
  /-- TARIFF_VERSION of the running segment, 16 bits (14 Table PP-6); reset 0 -/
  tariff : Nat := 0
  /-- Tick of the reservation or of its acceptance (14 R346); reset 0 -/
  at_ : Nat := 0
  /-- Reservations refused so far (14 R346); reset 0 -/
  tries : Nat := 0
  /-- Channel whose response is outstanding, 0xFF none (14 Table PP-17); reset 0xFF -/
  ch : Nat := 0xFF
  /-- Tick of the last checkpoint (14 R353); reset 0 -/
  ckpt : Nat := 0
  /-- END_CAUSE, 8 bits (14 Table PP-6); reset 0 -/
  cause : Nat := 0
  /-- The end commit is done and its charge reported, 1 bit (14 R352); reset 0 -/
  ended : Bool := false
deriving DecidableEq, Repr, Inhabited

/-- Availability counters of one port in one scope (25 R545). -/
structure Avail where
  /-- MAINS, 64 bits (25 Table SP-9) -/
  mains : Nat := 0
  /-- UNAVAIL, 64 bits -/
  unavail : Nat := 0
  /-- FENCE, 64 bits -/
  fence : Nat := 0
  /-- RESET, 64 bits -/
  reset : Nat := 0
  /-- OTHER, 64 bits -/
  other : Nat := 0
deriving DecidableEq, Repr, Inhabited

/-- One port. -/
structure Port where
  /-- Pilot, proximity and lock (09) -/
  hs : Pilot := {}
  /-- Allocation (10) -/
  li : Alloc := {}
  /-- Residual current (11) -/
  rc : Residual := {}
  /-- Contactor (11) -/
  ct : Contactor := {}
  /-- Safe stop (12) -/
  ss : Stop := {}
  /-- Session (14) -/
  se : Session := {}
  /-- Availability, YEAR (25 R545); NV, DESIGN CHOICE 0, log 6 -/
  year : Avail := {}
  /-- Availability, LIFE (25 R545); NV, DESIGN CHOICE 0, log 6 -/
  life : Avail := {}
  /-- Ticks of OPEN in state A for a fence lift (25 Table SP-2); reset 0 -/
  liftOpen : Nat := 0
  /-- Switch-test runs passed for a fence lift (25 Table SP-2); reset 0 -/
  liftRuns : Nat := 0
  /-- Tick of the last lift run (25 Table SP-2); reset none -/
  liftAt : Option Nat := none
  /-- Cause of the fence in force: class, detail (25 Table SP-10); NV, none -/
  fenceBy : Option (Nat × Nat) := none
  /-- The fence in force came with the fence of the port's group, 1 bit (25 Table SP-2); NV, 0 -/
  byGroup : Bool := false
deriving DecidableEq, Repr, Inhabited

/-- One line of one group in Lintel (10 R256 to R259). -/
structure LineSt where
  /-- Overload accumulator a, exact, 0 to 1 (10 R256); reset 0 -/
  acc : Rat := 0
  /-- Warning stage, 1 bit (10 R257); reset 0 -/
  warn : Bool := false
  /-- Measured line current I, 0.1 mA (10 R256); reset 0 -/
  meas : Nat := 0
  /-- Ports selected for a forced stop on this line and not yet released (10 R259); reset none -/
  sel : List Nat := []
deriving DecidableEq, Repr, Inhabited

/-- Lintel as a whole (10). -/
structure Lintel where
  /-- The computation of this tick is still to be made: its window comes after those of the other units, 1 bit (10 R248,
  02 Table TK-3); reset 0 -/
  passDue : Bool := false
  /-- The 12 lines, 3 g + l (10 R256) -/
  lines : List LineSt := List.replicate 12 {}
  /-- Rotation pointers of the classes 0 to 7 (10 R254); reset 0 -/
  ptr : List Nat := List.replicate 8 0
  /-- Last port admitted per class in this tick, none (10 R254); reset none -/
  lastAdm : List (Option Nat) := List.replicate 8 none
  /-- Tick of the last rotation (10 R254); reset 0 -/
  rotAt : Nat := 0
  /-- Share per line by the last grant, 0.1 A (10 R262); reset 20,000, without effect before a grant -/
  share : List Nat := [20000, 20000, 20000]
  /-- Share source of a member or master: 0 none yet, 1 grant, 2 kept, 3 FALLBACK (10 Table HA-7); reset 0 -/
  source : Nat := 0
  /-- Grant received, for the next boundary, per line (10 R262); reset none -/
  grant : Option (List Nat) := none
  /-- Last grant accepted per line (10 R262); reset none -/
  last : Option (List Nat) := none
  /-- SUPERFRAMES_SINCE_GRANT, 16 bits (10 Table HA-7); reset 0 -/
  since : Nat := 0
  /-- EPOCH of this hub, 16 bits (17 R421); reset 7 -/
  epoch : Nat := 7
  /-- Lowest epoch heard and superframes since (10 R265); reset none -/
  lowHeard : Option (Nat × Nat) := none
  /-- MIXED, 1 bit (10 R265); reset 0 -/
  mixed : Bool := false
  /-- Master: demands of the 32 hubs per line, heard flag (10 R263); reset 0 -/
  demands : List (Bool × List Nat) := List.replicate 32 (false, [0, 0, 0])
  /-- Master: previous grants of the 32 hubs per line (10 R265); reset none -/
  grants : List (Option (List Nat)) := List.replicate 32 none
  /-- Superframes counted since reset (17 R412); reset 0 -/
  superframe : Nat := 0
  /-- A superframe has started and waits for its work, 1 bit (10 R262, 17 R412); reset 0 -/
  due : Bool := false
  /-- Tick of the last superframe start (13 R318, 17 R412); reset none -/
  sfTick : Option Nat := none
  /-- Superframes for which a conflict of two masters still holds, up to 4 (17 R420); reset 0 -/
  conflict : Nat := 0
deriving DecidableEq, Repr, Inhabited

/-- One channel of a safety input (12 R293). -/
structure SafeCh where
  /-- Ticks in a row at the demand level (12 R293); reset 0 -/
  dem : Nat := 0
  /-- Ticks in a row at the healthy level (12 R293); reset 0 -/
  ok : Nat := 0
  /-- In demand, 1 bit (12 R293); DESIGN CHOICE 1, log 5 -/
  on : Bool := true
deriving DecidableEq, Repr, Inhabited

/-- A safety input, SIN or SSR (12 R293 to R296). -/
structure SafeIn where
  /-- Channel A -/
  a : SafeCh := {}
  /-- Channel B -/
  b : SafeCh := {}
  /-- The demand has been acted upon, 1 bit (12 R295); DESIGN CHOICE 0, log 5 -/
  taken : Bool := false
  /-- Ticks of one channel in demand and the other healthy (12 R294); reset 0 -/
  disN : Nat := 0
  /-- DISCREPANCY, 1 bit (12 R294); reset 0 -/
  dis : Bool := false
  /-- Both channels were in demand in one tick since the latch, 1 bit (12 R294); reset 0 -/
  disBoth : Bool := false
  /-- Veto of this input, 1 bit (12 R295, R296); reset 0 -/
  veto : Bool := false
  /-- Tick since which it is healthy without a latched discrepancy (12 R295); reset none -/
  since : Option Nat := none
  /-- Change of a channel not yet reported as healthy, 1 bit (12 R315); reset 0 -/
  okDue : Bool := false
deriving DecidableEq, Repr, Inhabited

/-- Keystone record (12 R311). -/
structure KsRecord where
  /-- SEQ, 64 bits -/
  seq : Nat := 0
  /-- TICK, 64 bits -/
  tick : Nat := 0
  /-- CLOSED_MAP, 32 bits -/
  map : Nat := 0
  /-- FLAGS, 16 bits -/
  flags : Nat := 0
  /-- CRC, 32 bits -/
  crc : Nat := 0
deriving DecidableEq, Repr, Inhabited

/-- The safety functions as a whole (12). -/
structure Safety where
  /-- SIN (12 R295) -/
  sin : SafeIn := {}
  /-- SSR (12 R296) -/
  ssr : SafeIn := {}
  /-- SOK drive: reached, 1 bit (12 R297); reset not reached -/
  sok : Bool := false
  /-- SOK fault, 1 bit (12 R298); reset 0 -/
  sokFault : Bool := false
  /-- Ticks in a row in which SOK_A differs from its drive (12 R298); reset 0 -/
  sokA : Nat := 0
  /-- Ticks in a row in which SOK_B differs from its drive (12 R298); reset 0 -/
  sokB : Nat := 0
  /-- Ticks with identical levels in both cores (12 R299); reset 0 -/
  sameN : Nat := 0
  /-- Start-up test of SOK: 0 "not reached" driven, 1 "reached" driven, 2 both read back (12 R299); reset 0 -/
  sokTest : Nat := 0
  /-- SWITCH_WORD in force, 16 bits (12 R306); reset by the boot scan -/
  word : Nat := 0
  /-- A word is in force, 1 bit (12 R306); reset 0 -/
  wordOk : Bool := false
  /-- LAST_SCAN, 16 bits (12 Table SF-15); reset 0 -/
  last : Nat := 0
  /-- SCAN outcome, 0 to 3 (12 Table SF-7); reset 0 -/
  scan : Nat := 0
  /-- Seconds in a row with disagreeing directions (12 R307); reset 0 -/
  disSec : Nat := 0
  /-- Last changed word logged (12 R307); reset none -/
  logged : Option Nat := none
  /-- The scans at boot did not all give one word, 1 bit (12 R306); reset 0 -/
  bootBad : Bool := false
  /-- The test-pattern injection has passed on each input synchroniser, 1 bit (12 R299); reset 0 -/
  injected : Bool := false
  /-- Agreeing boot scans so far (12 R306); reset 0 -/
  bootN : Nat := 0
  /-- Tick of the last scan in service (12 R307); reset 0 -/
  scanAt : Nat := 0
  /-- Keystone record, two copies, none while never written (12 R311); NV, none -/
  recs : List (Option KsRecord) := [none, none]
  /-- UNCONTROLLED_MAP found at the last boot, 32 bits (12 Table SF-15); reset 0 -/
  uncontrolled : Nat := 0
  /-- Token of the UNCONTROLLED_STOP entry that KS_RDY waits for (03 R100); reset none -/
  waitEntry : Option Nat := none
  /-- Lockstep self-test passed in this boot, 1 bit (03 Table PU-16); reset 0 -/
  lockstep : Bool := false
deriving DecidableEq, Repr, Inhabited

end Sys2Proof.Machine
end

