-- ==== Sys2Proof/Machine/Hash.lean ====
section
/-!
DEFINITION. SHA-256 (FIPS 180-4), AES and AES-CMAC (FIPS 197, NIST SP 800-38B) and ECDSA verification on P-256
(FIPS 186-4), to the extent of Table SC-6 (00 R17). PRESUMED: the manual names the standards; the algorithms are
written from the standards.
-/

namespace Sys2Proof.Machine

/-- Words of 32 bits as numbers. -/
def w32 (n : Nat) : Nat := n % 4294967296
def rotr32 (n x : Nat) : Nat := w32 ((x / 2 ^ n) ||| (x * 2 ^ (32 - n)))

/-- The round constants of SHA-256, eight in each number, the first in its lowest 32 bits. -/
def shaTable : List Nat :=
  [0xAB1C5ED5923F82A459F111F13956C25BE9B5DBA5B5C0FBCF71374491428A2F98,
   0xC19BF1749BDC06A780DEB1FE72BE5D74550C7DC3243185BE12835B01D807AA98,
   0x76F988DA5CB0A9DC4A7484AA2DE92C6F240CA1CC0FC19DC6EFBE4786E49B69C1,
   0x1429296706CA6351D5A79147C6E00BF3BF597FC7B00327C8A831C66D983E5152,
   0x92722C8581C2C92E766A0ABB650A735453380D134D2C6DFC2E1B213827B70A85,
   0x106AA070F40E3585D6990624D192E819C76C51A3C24B8B70A81A664BA2BFE8A1,
   0x682E6FF35B9CCA4F4ED8AA4A391C0CB334B0BCB52748774C1E376C0819A4C116,
   0xC67178F2BEF9A3F7A4506CEB90BEFFFA8CC7020884C8781478A5636F748F82EE]
/-- The round constant of round t; Laws/Hash.lean derives it from the cube root of a prime. -/
def shaK (t : Nat) : Nat := nth shaTable (t / 8) 0 / 2 ^ (32 * (t % 8)) % 2 ^ 32

/-- The initial hash value, packed like the constants; Laws/Hash.lean derives it from square roots. -/
def shaInit : List Nat :=
  (List.range 8).map fun i =>
    0x5BE0CD191F83D9AB9B05688C510E527FA54FF53A3C6EF372BB67AE856A09E667 / 2 ^ (32 * i) % 2 ^ 32

/-- Bytes in groups of k (a last short group is kept), by fuel. -/
def chunksGo (k : Nat) : Nat → List Byte → List (List Byte)
  | 0, _ => []
  | f + 1, bs => if bs.isEmpty then [] else bs.take k :: chunksGo k f (bs.drop k)
def chunksOf (k : Nat) (bs : List Byte) : List (List Byte) := chunksGo k (bs.length / k + 1) bs

/-- The message schedule, newest word first. -/
def shaSched : Nat → List Nat → List Nat
  | 0, ws => ws
  | k + 1, ws =>
    let w15 := nth ws 14 0
    let w2 := nth ws 1 0
    let s0 := rotr32 7 w15 ^^^ rotr32 18 w15 ^^^ (w15 / 8)
    let s1 := rotr32 17 w2 ^^^ rotr32 19 w2 ^^^ (w2 / 1024)
    shaSched k (w32 (nth ws 15 0 + s0 + nth ws 6 0 + s1) :: ws)

/-- One round on the eight working words. -/
def shaRound (v : List Nat) (kw : Nat × Nat) : List Nat :=
  match v with
  | [a, b, c, d, e, f, g, h] =>
    let s1 := rotr32 6 e ^^^ rotr32 11 e ^^^ rotr32 25 e
    let ch := (e &&& f) ^^^ ((0xFFFFFFFF ^^^ e) &&& g)
    let t1 := h + s1 + ch + kw.1 + kw.2
    let s0 := rotr32 2 a ^^^ rotr32 13 a ^^^ rotr32 22 a
    let mj := (a &&& b) ^^^ (a &&& c) ^^^ (b &&& c)
    [w32 (t1 + s0 + mj), a, b, c, w32 (d + t1), e, f, g]
  | _ => v

/-- The compression of one 64-byte block. -/
def shaBlock (h : List Nat) (blk : List Byte) : List Nat :=
  let ws := (shaSched 48 ((chunksOf 4 blk).map rdBE).reverse).reverse
  List.zipWith (fun a b => w32 (a + b)) h ((ws.zipIdx.map fun e => (shaK e.2, e.1)).foldl shaRound h)

/-- The padding: a 1 bit, zeros to 56 modulo 64, and the length in bits as 8 bytes. -/
def shaPad (bs : List Byte) : List Byte :=
  let n := bs.length
  bs ++ [0x80] ++ zeros ((119 - n % 64) % 64) ++ be 8 (8 * n)

/-- SHA-256, 32 bytes in the byte order of FIPS 180-4. -/
def sha256 (bs : List Byte) : List Byte :=
  (((chunksOf 64 (shaPad bs)).foldl shaBlock shaInit).map (be 4)).flatten

/-- Multiplication by x in the field of AES. -/
def aesX (a : Nat) : Nat := if a < 128 then a * 2 else (a * 2 % 256) ^^^ 0x1B

/-- Multiplication in the field of AES, over the bits of b. -/
def aesMulGo : Nat → Nat → Nat → Nat → Nat
  | 0, _, _, r => r
  | k + 1, a, b, r => aesMulGo k (aesX a) (b / 2) (if b % 2 = 1 then r ^^^ a else r)
def aesMul (a b : Nat) : Nat := aesMulGo 8 a b 0

/-- The inverse as the power 254. -/
def aesInv (a : Nat) : Nat :=
  let a2 := aesMul a a
  let a4 := aesMul a2 a2
  let a8 := aesMul a4 a4
  let a16 := aesMul a8 a8
  let a32 := aesMul a16 a16
  let a64 := aesMul a32 a32
  let a128 := aesMul a64 a64
  aesMul a2 (aesMul a4 (aesMul a8 (aesMul a16 (aesMul a32 (aesMul a64 a128)))))

/-- The substitution of FIPS 197 as its definition gives it: inverse, then the affine map. -/
def aesSubDef (a : Nat) : Nat :=
  let b := aesInv a
  let r := fun k => (b * 2 ^ k % 256) ||| (b / 2 ^ (8 - k))
  b ^^^ r 1 ^^^ r 2 ^^^ r 3 ^^^ r 4 ^^^ 0x63

/-- The substitution of the 256 bytes, 32 in each number, the lowest in the lowest byte. -/
def aesTable : List Nat :=
  [0xC072A49CAFA2D4ADF04759FA7DC982CA76ABD7FE2B670130C56F6BF27B777C63,
   0x75B227EBE28012079A059618C323C7041531D871F1E5A534CCF73F362693FDB7,
   0xCF584C4A39BECB6A5BB1FC20ED00D153842FE329B3D63B52A05A6E1B1A2C8309,
   0xD2F3FF1021DAB6BCF5389D928F40A351A89F3C507F02F94585334D43FBAAEFD0,
   0xDB0B5EDE14B8EE4688902A22DC4F816073195D643D7EA7C41744975FEC130CCD,
   0x08AE7A65EAF4566CA94ED58D6D37C8E779E4959162ACD3C25C2406490A3A32E0,
   0x9E1DC186B95735610EF6034866B53E708A8BBD4B1F74DDE8C6B4A61C2E2578BA,
   0x16BB54B00F2D99416842E6BF0D89A18CDF2855CEE9871E9B948ED9691198F8E1]

/-- The substitution by table; Laws/Hash.lean shows it equal to the definition. -/
def aesSub (a : Nat) : Nat := nth aesTable (a / 32) 0 / 2 ^ (8 * (a % 32)) % 256

/-- Exclusive or of byte lists. -/
def xorL (a b : List Nat) : List Nat := List.zipWith (· ^^^ ·) a b

/-- The key schedule: words of 4 bytes, newest first; nk is 4 or 8. -/
def aesSchedGo (nk : Nat) : Nat → Nat → Nat → List (List Nat) → List (List Nat)
  | 0, _, _, ws => ws
  | k + 1, i, rc, ws =>
    let t := nth ws 0 []
    let t1 := if i % nk = 0 then xorL ((t.drop 1 ++ t.take 1).map aesSub) [rc, 0, 0, 0]
              else if nk = 8 ∧ i % nk = 4 then t.map aesSub else t
    aesSchedGo nk k (i + 1) (if i % nk = 0 then aesX rc else rc) (xorL (nth ws (nk - 1) []) t1 :: ws)

/-- Groups of k numbers. -/
def groupsGo {α : Type} (k : Nat) : Nat → List α → List (List α)
  | 0, _ => []
  | f + 1, l => if l.isEmpty then [] else l.take k :: groupsGo k f (l.drop k)
def groupsOf {α : Type} (k : Nat) (l : List α) : List (List α) := groupsGo k (l.length / k + 1) l

/-- The round keys of 16 bytes, first round first. -/
def aesKeys (key : List Nat) : List (List Nat) :=
  let nk := key.length / 4
  let ws := (aesSchedGo nk (4 * (nk + 7) - nk) nk 1 (groupsOf 4 key).reverse).reverse
  (groupsOf 4 ws).map List.flatten

/-- The row shift on 16 bytes in column order. -/
def aesShift (s : List Nat) : List Nat :=
  [0, 5, 10, 15, 4, 9, 14, 3, 8, 13, 2, 7, 12, 1, 6, 11].map fun i => nth s i 0

/-- The mixing of one column. -/
def aesMixCol (c : List Nat) : List Nat :=
  match c with
  | [a, b, d, e] =>
    [aesX a ^^^ (aesX b ^^^ b) ^^^ d ^^^ e, a ^^^ aesX b ^^^ (aesX d ^^^ d) ^^^ e,
     a ^^^ b ^^^ aesX d ^^^ (aesX e ^^^ e), (aesX a ^^^ a) ^^^ b ^^^ d ^^^ aesX e]
  | _ => c

/-- The rounds after the first key addition. -/
def aesRounds : List (List Nat) → List Nat → List Nat
  | [], s => s
  | [k], s => xorL (aesShift (s.map aesSub)) k
  | k :: ks, s => aesRounds ks (xorL (((groupsOf 4 (aesShift (s.map aesSub))).map aesMixCol).flatten) k)

/-- One block of AES; a key of 32 bytes is AES-256, of 16 bytes AES-128. -/
def aesBlockN (key blk : List Nat) : List Nat :=
  match aesKeys key with
  | [] => blk
  | k :: ks => aesRounds ks (xorL blk k)

def toN (bs : List Byte) : List Nat := bs.map BitVec.toNat
def ofN (l : List Nat) : List Byte := l.map byteOf

/-- AES encryption of one 16-byte block. -/
def aesEnc (key blk : List Byte) : List Byte := ofN (aesBlockN (toN key) (toN blk))

/-- Exclusive or of bytes. -/
def xorB (a b : List Byte) : List Byte := List.zipWith (· ^^^ ·) a b

/-- Doubling in the field of 128 bits (SP 800-38B). -/
def cmacDbl (b : List Byte) : List Byte :=
  let n := rdBE b
  let d := n * 2 % 2 ^ 128
  be 16 (if n < 2 ^ 127 then d else d ^^^ 0x87)

/-- AES-CMAC, 16 bytes. -/
def cmac (key msg : List Byte) : List Byte :=
  let k1 := cmacDbl (aesEnc key (zeros 16))
  let k2 := cmacDbl k1
  let n := (msg.length + 15) / 16
  let whole := msg.length ≠ 0 ∧ msg.length % 16 = 0
  let m := if n = 0 then 1 else n
  let init := msg.take (16 * (m - 1))
  let last := msg.drop (16 * (m - 1))
  let lastB := if whole then xorB last k1 else xorB (padTo 16 (last ++ [0x80])) k2
  let c := (chunksOf 16 init).foldl (fun c b => aesEnc key (xorB c b)) (zeros 16)
  aesEnc key (xorB c lastB)

/-- CTR keystream applied to data: successive counter blocks from ctr on. -/
def aesCtrGo (key : List Byte) : Nat → Nat → List Byte → List Byte
  | 0, _, _ => []
  | f + 1, ctr, d =>
    if d.isEmpty then [] else xorB (d.take 16) (aesEnc key (be 16 ctr)) ++ aesCtrGo key f (ctr + 1) (d.drop 16)
def aesCtr (key : List Byte) (ctr : Nat) (d : List Byte) : List Byte := aesCtrGo key (d.length / 16 + 1) ctr d

/-- P-256: the field, the order and the base point. -/
def p256p : Nat := 2 ^ 256 - 2 ^ 224 + 2 ^ 192 + 2 ^ 96 - 1
def p256n : Nat := 0xffffffff00000000ffffffffffffffffbce6faada7179e84f3b9cac2fc632551
def p256b : Nat := 0x5ac635d8aa3a93e7b3ebbd55769886bc651d06b0cc53b0f63bce3c3e27d2604b
def p256gx : Nat := 0x6b17d1f2e12c4247f8bce6e563a440f277037d812deb33a0f4a13945d898c296
def p256gy : Nat := 0x4fe342e2fe1a7f9b8ee7eb4a7c0f9e162bce33576b315ececbb6406837bf51f5

/-- Modular power by the bits of the exponent. -/
def modPowGo (m : Nat) : Nat → Nat → Nat → Nat → Nat
  | 0, _, _, r => r
  | k + 1, b, e, r => modPowGo m k (b * b % m) (e / 2) (if e % 2 = 1 then r * b % m else r)
def modInv (m a : Nat) : Nat := modPowGo m 256 (a % m) (m - 2) 1

/-- Points in projective coordinates (x, y, z) with z = 0 for the point at infinity; Jacobian form. -/
abbrev Pt := Nat × Nat × Nat

def subP (a b : Nat) : Nat := (a + p256p - b % p256p) % p256p

/-- Doubling on the curve with a = -3. -/
def ptDbl (q : Pt) : Pt :=
  let (x, y, z) := q
  if z = 0 then q else
  let d := z * z % p256p
  let g := y * y % p256p
  let b := x * g % p256p
  let al := 3 * (subP x d) * (x + d) % p256p
  let x3 := subP (al * al) (8 * b)
  let z3 := subP (subP ((y + z) * (y + z)) g) d
  (x3, subP (al * subP (4 * b) x3) (8 * g * g), z3)

/-- Addition on the curve. -/
def ptAdd (q1 q2 : Pt) : Pt :=
  let (x1, y1, z1) := q1
  let (x2, y2, z2) := q2
  if z1 = 0 then q2 else if z2 = 0 then q1 else
  let a := z1 * z1 % p256p
  let b := z2 * z2 % p256p
  let u1 := x1 * b % p256p
  let u2 := x2 * a % p256p
  let s1 := y1 * z2 * b % p256p
  let s2 := y2 * z1 * a % p256p
  if u1 = u2 then (if s1 = s2 then ptDbl q1 else (1, 1, 0)) else
  let h := subP u2 u1
  let r := subP s2 s1
  let hh := h * h % p256p
  let hhh := h * hh % p256p
  let v := u1 * hh % p256p
  let x3 := subP (subP (r * r) hhh) (2 * v)
  (x3, subP (r * subP v x3) (s1 * hhh), h * z1 * z2 % p256p)

/-- Multiplication of a point by a number, by its bits. -/
def ptMulGo : Nat → Nat → Pt → Pt → Pt
  | 0, _, _, r => r
  | k + 1, e, q, r => ptMulGo k (e / 2) (ptDbl q) (if e % 2 = 1 then ptAdd r q else r)
def ptMul (e : Nat) (q : Pt) : Pt := ptMulGo 256 e q (1, 1, 0)

/-- The affine x of a point. -/
def ptX (q : Pt) : Nat :=
  let zi := modInv p256p q.2.2
  q.1 * (zi * zi % p256p) % p256p

/-- A point of the curve given by its coordinates. -/
def onCurve (x y : Nat) : Bool :=
  decide (x < p256p ∧ y < p256p ∧ y * y % p256p = (x * x * x + (p256p - 3) * x + p256b) % p256p)

/-- ECDSA verification on P-256 with SHA-256: key and signature as 64 bytes, big-endian halves (03 R86). -/
def ecdsaOk (key msg sig : List Byte) : Bool :=
  let x := rdBE (bytesAt key 0 32)
  let y := rdBE (bytesAt key 32 32)
  let r := rdBE (bytesAt sig 0 32)
  let s := rdBE (bytesAt sig 32 32)
  if onCurve x y && decide (0 < r ∧ r < p256n ∧ 0 < s ∧ s < p256n) then
    let w := modInv p256n s
    let e := rdBE (sha256 msg)
    let q := ptAdd (ptMul (e * w % p256n) (p256gx, p256gy, 1)) (ptMul (r * w % p256n) (x, y, 1))
    q.2.2 ≠ 0 && decide (ptX q % p256n = r)
  else false

end Sys2Proof.Machine
end

