-- ==== Sys2Proof/Machine/StQuarry.lean ====
section
/-!
DEFINITION. The state of the Quarry store and of the ledger it keeps (18, 14 R339 to R343). Each field's docstring is
its line of the inventory: width, source, reset value.
-/

namespace Sys2Proof.Machine

/-- A record of a journal unit (18 R441). -/
structure JRec where
  /-- TYPE: 1 INTENT, 2 STEP, 3 COMMIT, 4 DATA, 5 MAP -/
  ty : Nat := 0
  /-- OP of Table QS-6, 0 for a record of no operation -/
  op : Nat := 0
  /-- OP_ID, 32 bits -/
  id : Nat := 0
  /-- Body of an INTENT: the new Ashlar records, by account -/
  recs : List (Nat × List Byte) := []
  /-- Body of an INTENT or a DATA record: session records, Cairn entry, profile record, blob, version -/
  data : List (List Byte) := []
  /-- Body of an INTENT: the victim's channel, chip and block -/
  victim : Nat × Nat × Nat := (0, 0, 0)
  /-- Body of an INTENT: table ID, key slot or checkpoint slot -/
  item : Nat := 0
  /-- Body of a MAP: bucket key 2b + copy and unit address -/
  map : Nat × Nat := (0, 0)
deriving DecidableEq, Repr, Inhabited

/-- A unit as programmed (18 R432, Table QS-3). -/
structure NUnit where
  /-- KIND, 8 bits -/
  kind : Nat := 0
  /-- INDEX, 24 bits: bucket number, table ID, key slot, or first item number -/
  idx : Nat := 0
  /-- WSEQ, 32 bits: the channel's unit write count -/
  wseq : Nat := 0
  /-- Items that it carries; of a ledger unit its 16 records, empty for one never written -/
  data : List (List Byte) := []
  /-- Number of the unit in an item that takes several -/
  part : Nat := 0
  /-- A unit of a zone other than the ledger that nothing has replaced, 1 bit (18 R444) -/
  live : Bool := true
  /-- Read uncorrectable or erased, 1 bit: treated as unwritten (18 R433) -/
  lost : Bool := false
  /-- JSEQ of a journal unit; of a checkpoint unit the JSEQ that its slot covers (18 R441) -/
  jseq : Nat := 0
  /-- CKPT_JSEQ of a journal unit (18 R441) -/
  ckpt : Nat := 0
  /-- Records of a journal unit (18 R441) -/
  recs : List JRec := []
deriving DecidableEq, Repr, Inhabited

/-- One block of a NAND chip (18 R434 to R436). -/
structure Blk where
  /-- KIND of the zone it belongs to, 0 erased and free (18 Table QS-3) -/
  kind : Nat := 0
  /-- Units programmed since its erase, in order (18 R432) -/
  units : List NUnit := []
  /-- Takes no program until it is erased, or erased and its COMMIT outstanding, 1 bit (18 R442, R444) -/
  shut : Bool := false
  /-- Erase count (18 R435) -/
  erases : Nat := 0
  /-- Reads since the last erase (18 R436) -/
  reads : Nat := 0
  /-- Its read-through for read disturb has been asked for, 1 bit (18 R436) -/
  thru : Bool := false
  /-- RTC SECONDS of its first program since the erase (18 R436) -/
  since : Nat := 0
  /-- RTC SECONDS of its last read-through or erase (18 R436) -/
  scrubbed : Nat := 0
  /-- Holds a weak unit, 1 bit (18 R433) -/
  weak : Bool := false
  /-- RTC SECONDS at which uncorrectable units were found (18 R433) -/
  uncs : List Nat := []
  /-- In the bad-block table, 1 bit (18 R434) -/
  bad : Bool := false
deriving DecidableEq, Repr, Inhabited

/-- One NAND chip (18 R430 to R435). -/
structure Chip where
  /-- Fitted and within Table QS-2, 1 bit: what the integrator connects (18 R429, log 50) -/
  fit : Bool := false
  /-- STATE: 0 absent, 1 mounted, 2 read-only, 3 fenced (18 Table QS-13); reset 0 -/
  st : Nat := 0
  /-- ID, 24 bits: the identification bytes (18 R430, Table QS-13); DESIGN CHOICE 0, log 50 -/
  id : Nat := 0
  /-- CLOCK: 0 100 MHz, 1 50, 2 25 (18 R431); reset 0 -/
  clock : Nat := 0
  /-- Delay of the return clock, steps of 0.5 ns (18 R431); reset 0 -/
  delay : Nat := 0
  /-- Steps of the delay line at which the identification bytes read right at 100, 50 and 25 MHz, bit k step k: what the
  board gives (18 R431); DESIGN CHOICE all, log 147 -/
  eyes : List Nat := [0x1FFFF, 0x1FFFF, 0x1FFFF]
  /-- BLOCKS, 16 bits (18 Table QS-13); DESIGN CHOICE 2,048, log 50 -/
  blocks : Nat := 2048
  /-- Pages of 4 KiB, two units each, 1 bit (18 Table QS-2, R432); DESIGN CHOICE 0, log 50 -/
  page4 : Bool := false
  /-- Blocks that carry the maker's mark (18 Table QS-2, R434); DESIGN CHOICE none, log 50 -/
  marks : List Nat := []
  /-- BAD_FACTORY, 16 bits: the marks found at the first mount (18 R434); NV, DESIGN CHOICE 0, log 50 -/
  badF : Nat := 0
  /-- The bad-block table in its two copies in the system zone (18 R434); NV, DESIGN CHOICE empty, log 50 -/
  bbt : List (List Nat) := [[], []]
  /-- Writes of the bad-block table, 0 before the first mount; the copies alternate (18 R434); NV, DESIGN CHOICE 1, log 50 -/
  bbtN : Nat := 1
  /-- BAD_RUNTIME, 16 bits (18 R434); NV, DESIGN CHOICE 0, log 6 -/
  badR : Nat := 0
  /-- WEAK, 32 bits saturating (18 Table QS-13); DESIGN CHOICE 0, log 5 -/
  weak : Nat := 0
  /-- UNCORRECTABLE, 32 bits saturating (18 Table QS-13); DESIGN CHOICE 0, log 5 -/
  unc : Nat := 0
  /-- Mount record: first 8 bytes of the SHA-256 of the device identity that formatted it, none where it has none (18 R439);
  NV, DESIGN CHOICE that of an identity of 0, log 50 -/
  mount : List Byte := (sha256 (List.replicate 16 0)).take 8
  /-- Blocks that the session, profile and event zones have lost (18 R434); NV, DESIGN CHOICE 0, log 6 -/
  shrunk : Nat := 0
  /-- Ticks of NAND operations that ran beyond their limit (25 Table SP-2); reset none -/
  late : List Nat := []
  /-- Blocks by number, those that are not as erased at delivery; NV, none -/
  blks : List (Nat × Blk) := []
deriving DecidableEq, Repr, Inhabited

/-- A checkpoint slot (18 R439). -/
structure Ckpt where
  /-- JSEQ of the last journal unit that its content covers, 64 bits (18 R441) -/
  jseq : Nat := 0
  /-- Its last unit is programmed and its CHECKPOINT record is in the journal, 1 bit -/
  done : Bool := false
  /-- Both bucket maps -/
  bmap : List (Nat × Nat) := []
  /-- UID index -/
  uids : List (Nat × Nat) := []
  /-- Erase counts by chip and block -/
  erases : List (List (Nat × Nat)) := []
  /-- Ring positions: items programmed so far by KIND -/
  rings : List (Nat × Nat) := []
deriving DecidableEq, Repr, Inhabited

/-- One NAND operation that an operation of SE still needs (18 R441). -/
structure NStep where
  /-- 0 read, 1 program, 2 erase -/
  act : Nat := 0
  /-- Channel, 0 or 1 -/
  chan : Nat := 0
  /-- Chip of the channel, 0 or 1 -/
  chip : Nat := 0
  /-- KIND of the unit (18 Table QS-3), 0 for an erase -/
  kind : Nat := 0
  /-- Record type of a journal unit: 1 INTENT, 2 STEP, 3 COMMIT, 4 DATA (18 R441); bucket or number of another unit -/
  idx : Nat := 0
  /-- Block of an erase, of a read, or of the unit that a program copies -/
  blk : Nat := 0
  /-- Unit of that block -/
  unit : Nat := 0
deriving DecidableEq, Repr, Inhabited

/-- What follows when an operation has committed. -/
inductive Follow where
  | answer (ch status : Nat) (payload : List Byte)
  | reserve (port : Nat)
  | settled (port : Nat)
  | credit (port event old new account : Nat) (value : Int)
  | update (account : Nat)
  | block (account : Nat)
  | purse (nf : Nat)
  | verified (nf account : Nat)
  | mirror (seq : Nat)
  | spill (seq : Nat)
  | profile
  | bill (period : Nat)
  | sweep
  | table (id : Nat)
  | blob (slot : Nat)
  | through (chip blk : Nat)
  | rebuilt (copy : Nat)
  | creditResult (account serial status : Nat) (balance : Int)
deriving DecidableEq, Repr, Inhabited

/-- An operation of SE (18 Table QS-6). -/
structure SeOp where
  /-- OP_ID, 32 bits (18 R441) -/
  id : Nat := 0
  /-- OP of Table QS-6, 0 for work without an intent (18 R440) -/
  code : Nat := 0
  /-- Traffic class, 1 to 5 (01 Table AR-5) -/
  cls : Nat := 3
  /-- Ashlar records to be written: account and record (18 Table QS-6) -/
  recs : List (Nat × List Byte) := []
  /-- Session records, profile records or entries to be written (18 R440) -/
  data : List (List Byte) := []
  /-- Ledger copies that it writes (14 R340) -/
  copies : List Nat := [0, 1]
  /-- KIND of the zone units that it programs, 0 none (18 Table QS-5) -/
  kind : Nat := 0
  /-- Number of those units -/
  units : Nat := 0
  /-- Units that it has programmed: bucket key or number of the unit copied, and address (18 R444) -/
  dests : List (Nat × Nat) := []
  /-- NAND operations still to be done, in order (18 R441) -/
  steps : List NStep := []
  /-- Channels that take its journal units (18 R441) -/
  chans : List Nat := []
  /-- The journal unit that is programmed on one channel and not yet on the other (18 R441) -/
  jnow : Option NUnit := none
  /-- The unit with its INTENT is programmed and its status checked, 1 bit (18 R441) -/
  begun : Bool := false
  /-- STEP COPIED is programmed, 1 bit (18 R444) -/
  copied : Bool := false
  /-- Victim of a RECLAIM, STATIC_MOVE, ERASE or BLOCK_RETIRE: channel, chip, block (18 Table QS-6) -/
  victim : Nat × Nat × Nat := (0, 0, 0)
  /-- What follows its commit -/
  after : List Follow := []
  /-- Job of the AES engine that gives it its MAC or its blob, 0 none (01 R35) -/
  job : Nat := 0
deriving DecidableEq, Repr, Inhabited

/-- One channel: its time and what it last sent (01 R32, 18 R443). -/
structure ChanTime where
  /-- NAND operation that runs: OP_ID of its operation and tick of its start (01 R32); reset none -/
  run : Option (Nat × Nat) := none
  /-- Operations of the last second: tick of the end, class, ticks used (01 Table AR-5, 18 R443); reset none -/
  used : List (Nat × Nat × Nat) := []
  /-- The unit last programmed as it went over the balls: 2,048 bytes of data and 64 of spare (18 Table QS-3); reset none -/
  sent : List Byte := []
deriving DecidableEq, Repr, Inhabited

/-- The Quarry store (18) and the ledger (14 R339). -/
structure Quarry where
  /-- Q0 chip 0, Q0 chip 1, Q1 chip 0, Q1 chip 1 (18 R429); DESIGN CHOICE chip 0 of each channel fitted, log 50 -/
  chips : List Chip := [{ fit := true }, {}, { fit := true }, {}]
  /-- Requests not yet taken by SE, in order of arrival (01 R32); reset empty -/
  asks : List SeOp := []
  /-- Identification bytes in the device list of the SE image (18 R430); DESIGN CHOICE 0, log 50 -/
  devices : List Nat := [0]
  /-- Operations taken, in order of arrival (18 R441); reset none -/
  ops : List SeOp := []
  /-- Next OP_ID, 32 bits (18 R441); DESIGN CHOICE 1, log 5 -/
  nextId : Nat := 1
  /-- JSEQ, 64 bits (18 R441); NV, DESIGN CHOICE 0, log 6 -/
  jseq : Nat := 0
  /-- CKPT_JSEQ, 64 bits (18 R441); NV, DESIGN CHOICE 0, log 6 -/
  ckpt : Nat := 0
  /-- Store generation, 32 bits in the system region of MRAM (18 R439); NV, DESIGN CHOICE 1, log 6 -/
  gen : Nat := 1
  /-- Bucket map in bank 10: key 2b + copy, unit address, 0 never written (18 R438); reset none -/
  bmap : List (Nat × Nat) := []
  /-- UID index in bank 15: slot and entry, f in bits 31:16 and the account in bits 15:0 (18 R438); reset none -/
  uids : List (Nat × Nat) := []
  /-- Maps and index are loaded from the store, 1 bit (18 R442, 03 Table PU-16); reset 0 -/
  loaded : Bool := false
  /-- The two checkpoint slots (18 R439); NV, none -/
  cks : List (Option Ckpt) := [none, none]
  /-- Unit write count of the channels Q0 and Q1, 32 bits (18 Table QS-3); NV, DESIGN CHOICE 0, log 6 -/
  wseq : List Nat := [0, 0]
  /-- Ring positions: items programmed so far by KIND (18 R439); NV, DESIGN CHOICE 0, log 6 -/
  rings : List (Nat × Nat) := []
  /-- END of the newest profile record and SESSION_ID of the newest session record that have left their rings, 0 none (18
  Table QS-12); NV, DESIGN CHOICE 0, log 6 -/
  aged : List Nat := [0, 0]
  /-- Items of zones other than the ledger lost to uncorrectable units (18 R433); NV, DESIGN CHOICE 0, log 6 -/
  lostItems : Nat := 0
  /-- SESSION_ID counter, 32 bits, in the system region of MRAM (14 R346); NV, DESIGN CHOICE 0, log 6 -/
  sessId : Nat := 0
  /-- Counter of ACCOUNT_SET, 64 bits, in the system region of MRAM (14 R567); NV, DESIGN CHOICE 0, log 6 -/
  acctCtr : Nat := 0
  /-- Session records in their zone and in the journal, in order of writing (18 R440); NV, none -/
  sess : List (List Byte) := []
  /-- Session records waiting for the sweep, with a mark on those already in the journal (18 R440); NV as far as marked -/
  sessPend : List (Bool × List Byte) := []
  /-- Tick of the last sweep (18 R440); reset 0 -/
  sweepAt : Nat := 0
  /-- Load-profile records, in order (18 Table QS-7); NV, none -/
  profs : List (List Byte) := []
  /-- Billing snapshots mirrored, by period (18 Table QS-5); NV, none -/
  bills : List (Nat × List Byte) := []
  /-- Open tables stored, one per TABLE_ID (04 R123, 18 Table QS-5); NV, DESIGN CHOICE none, log 6 -/
  opens : List TableRec := []
  /-- Key blobs by slot, 64 bytes (19 R457); NV, none -/
  blobs : List (Nat × List Byte) := []
  /-- Cairn entries in the journal and not yet in their zone (18 R440); NV, 0 -/
  mirrorN : Nat := 0
  /-- Profile records in the journal and not yet in their zone (18 R440); NV, 0 -/
  profN : Nat := 0
  /-- The channels Q0 and Q1 (01 R32, 18 R443) -/
  time : List ChanTime := [{}, {}]
  /-- Accounts with a CARD_VERIFIED record in the journal and no credit yet (14 Table PP-9); NV, none -/
  verified : List Nat := []
  /-- A copy of the ledger is being rebuilt before it serves reads: copy 0, copy 1 (18 Table QS-11); NV, DESIGN CHOICE 0, log 6 -/
  rebuild : List Bool := [false, false]
deriving DecidableEq, Repr, Inhabited

end Sys2Proof.Machine
end

