-- ==== Sys2Proof/Machine/StRest.lean ====
section
/-!
DEFINITION. The state of time and tariffs, accounts, the contactless reader, the Chashao link, Quarry, the vault and
the tamper envelope, updates, load switches, the display, power states, spares and fences. Each field's docstring is
its line of the inventory: width, source, reset value.
-/

namespace Sys2Proof.Machine

/-- Real-time clock (04 Table HL-14, 13 R317, R333). -/
structure Rtc where
  /-- SECONDS, 48 bits (04 Table HL-14); NV, DESIGN CHOICE 0, log 6 -/
  sec : Nat := 0
  /-- SUBSEC, 15 bits (04 Table HL-14); NV, DESIGN CHOICE 0, log 6 -/
  sub : Nat := 0
  /-- 1/100,000 of a SUBSEC unit gathered from ticks (model's own, log 21); DESIGN CHOICE 0 -/
  frac : Nat := 0
  /-- TIME_VALID, 1 bit (04 Table HL-14); NV, DESIGN CHOICE 0, log 6 -/
  valid : Bool := false
deriving DecidableEq, Repr, Inhabited

/-- Spares and fences (25). -/
structure Fences where
  /-- FENCE_MAP, 256 bits (25 Table SP-3); NV, DESIGN CHOICE 0, log 6 -/
  map : BitVec 256 := 0
  /-- REQUESTED_MAP, 256 bits (25 R542); NV, DESIGN CHOICE 0, log 6 -/
  requested : BitVec 256 := 0
  /-- Fences on faults found at reset release, which lift when their domain passes its start-up test, 256 bits (25
  R543); DESIGN CHOICE 0, log 5 -/
  atBoot : BitVec 256 := 0
  /-- SRAM_ROWS_FREE of the 16 banks (25 Table SP-8); NV, DESIGN CHOICE 16 each, log 6 -/
  rows : List Nat := List.replicate 16 16
  /-- SRAM_CORRECTED, 32 bits saturating (25 Table SP-8); DESIGN CHOICE 0, log 5 -/
  corrected : Nat := 0
  /-- Group fences that wait for the safe stops of their ports: class, detail, REQUESTED (25 R541); reset none -/
  grp : List (Option (Nat × Nat × Bool)) := [none, none, none, none]
  /-- Corrected rows of the last 24 h: bank, row, tick (25 R539); reset none -/
  rowErrs : List (Nat × Nat × Nat) := []
  /-- Run-time repair map: bank and row (25 R539); NV, DESIGN CHOICE none, log 6 -/
  repair : List (Nat × Nat) := []
  /-- START of YEAR and of LIFE, RTC SECONDS (25 Table SP-9); NV, DESIGN CHOICE 0, log 6 -/
  yearStart : Nat := 0
  /-- START of LIFE (25 Table SP-9); NV, DESIGN CHOICE 0, log 6 -/
  lifeStart : Nat := 0
  /-- Mains at each group in its last complete cycle before the last full reset, 4 bits (25 R546); NV, DESIGN CHOICE 0, log 6 -/
  mains : List Bool := [false, false, false, false]
deriving DecidableEq, Repr, Inhabited

/-- One load-switch channel (22). -/
structure LsCh where
  /-- CMD: commanded on, 1 bit (22 Table LS-8); reset 0 -/
  cmd : Bool := false
  /-- LEVEL of the command, 0 to 100 % (22 R497); reset 0 -/
  level : Nat := 0
  /-- Output on, 1 bit (22 Table LS-8 OUT); reset 0 unless held -/
  out : Bool := false
  /-- DUTY in force, 0.1 % (22 R497); reset 0 -/
  duty : Nat := 0
  /-- SENSE, mA or 0xFFF (22 R502); DESIGN CHOICE 0, log 5 -/
  sense : Nat := 0
  /-- Thermal latch, 1 bit (22 R500); reset 0 -/
  latched : Bool := false
  /-- End tick of the inrush window (22 R499); reset none -/
  win : Option Nat := none
  /-- Limit set by a fold-back, mA (22 R501); reset none -/
  fold : Option Nat := none
  /-- OPEN_LOAD, 1 bit (22 R503); reset 0 -/
  openLoad : Bool := false
  /-- Checks in a row against the flag (22 R503); reset 0 -/
  openN : Nat := 0
  /-- LATCHES, 8 bits saturating (22 Table LS-8); DESIGN CHOICE 0, log 5 -/
  latches : Nat := 0
  /-- LAMP_CAPPED, 1 bit (22 R498); reset 0 -/
  capped : Bool := false
  /-- Held on through a full reset, 1 bit (22 R505); reset 0 -/
  held : Bool := false
  /-- Switched off for STANDBY, 1 bit (24 R526); reset 0 -/
  parked : Bool := false
  /-- Start-up test passed, 1 bit (22 R506); reset 0 -/
  tested : Bool := false
  /-- Level of the ball LSn as the tick begins, 1 high: the PWM of the duty in force (22 R497); reset 0, a held channel 1 -/
  high : Bool := false
deriving DecidableEq, Repr, Inhabited

/-- The load-switch unit (22). -/
structure LoadSw where
  /-- The 16 channels -/
  chans : List LsCh := List.replicate 16 {}
  /-- VAUX readings of the last 16 ticks, newest first, mV means (22 R498); reset none -/
  vaux : List Nat := []
  /-- Hold-down, 1 bit (22 R504); reset 0 -/
  hold : Bool := false
  /-- Channels waiting to resume (22 R504); reset none -/
  resume : List Nat := []
  /-- Tick of the next resume (22 R504); reset 0 -/
  resumeAt : Nat := 0
  /-- SENSE_SEL, 0xFF none (22 R502); DESIGN CHOICE 0xFF, log 5 -/
  sel : Nat := 0xFF
  /-- Reset-hold latch, 16 bits in the always-on domain (22 R505); DESIGN CHOICE 0, log 5 -/
  latch : Nat := 0
  /-- SENSE_OUT, mV without its tolerances (22 R502, log 146); reset 0 -/
  senseOut : Nat := 0
deriving DecidableEq, Repr, Inhabited

end Sys2Proof.Machine
end

