-- ==== Sys2Proof/Machine/StTariff.lean ====
section
/-!
DEFINITION. The state of tariffs, maximum demand and clock setting (13). Each field's docstring is its line of the
inventory: width, source, reset value.
-/

namespace Sys2Proof.Machine

/-- A clock set accepted and not yet in force (13 R333). -/
structure ClockSet where
  /-- NEW_SECONDS, 48 bits (13 Table TD-13) -/
  sec : Nat := 0
  /-- NEW_SUBSEC, 15 bits (13 Table TD-13) -/
  sub : Nat := 0
  /-- SOURCE of its CLOCK_SET entry: 0 TIME_SET, 1 broadcast (15 Table SA-3) -/
  source : Nat := 0
  /-- The running interval has closed for it, 1 bit (13 Table TD-6) -/
  closed : Bool := false
deriving DecidableEq, Repr, Inhabited

/-- Tariffs and maximum demand (13). -/
structure Tariff where
  /-- Rate for the next tick, 3 bits (13 R321, R322); reset 0, at restore R336 -/
  rate : Nat := 0
  /-- friendly_now for the next tick, 1 bit (14 R351); reset 0 -/
  friendly : Bool := false
  /-- Sub-interval energies held per scope, oldest first: mWh and flags (13 R327); reset none -/
  subs : List (List (Nat × Nat)) := List.replicate 25 []
  /-- Last demand per scope: mW, end, flags (13 Table TD-11); reset 0 -/
  last : List (Nat × Nat × Nat) := List.replicate 25 (0, 0, 0)
  /-- Flags of the running interval, 8 bits (13 Table TD-4); reset 0 -/
  run : Nat := 0
  /-- Next sub-interval end, RTC SECONDS (13 R324, R336); NV, 0 before the first interval, log 152 -/
  nextD : Nat := 0
  /-- LAST_DEMAND where nextD was formed (13 R336); NV, 0 before the first interval, log 152 -/
  endOf : Nat := 0
  /-- Tick-count mode, 1 bit (13 R325); reset 0 -/
  tcm : Bool := false
  /-- Next sub-interval end in tick-count mode, tick (13 R325); reset 0 -/
  nextTick : Nat := 0
  /-- Next billing boundary not yet closed, RTC SECONDS (13 R329); reset from the demand-state word -/
  nextClose : Nat := 0
  /-- Latest billing boundary closed, RTC SECONDS (13 R329); NV, 0 before the first -/
  closedTo : Nat := 0
  /-- Tick at which tick-count mode began (13 Table TD-3); reset from the demand-state word -/
  unknown : Nat := 0
  /-- Tick from which its ends are counted (13 R325); reset 0 -/
  countFrom : Nat := 0
  /-- The two snapshot slots, 5,232 bytes each (13 R331); NV, none -/
  snaps : List (List Byte) := [[], []]
  /-- Tick in which a snapshot was last written (13 R331, R332); reset none -/
  snapTick : Option Nat := none
  /-- Counter of TIME_SET, 64 bits, in the system region (13 R335); NV, DESIGN CHOICE 0, log 6 -/
  counter : Nat := 0
  /-- Content and version of the active table before the last activation, in the other table slot (13 R322, 14 R354); NV, none -/
  oldTab : Nat × List Byte := (0, [])
  /-- Instant of a pending TARIFF_ACTIVATE (13 R322); reset none -/
  act : Option Nat := none
  /-- Clock set accepted and not yet in force (13 R333); reset none -/
  set : Option ClockSet := none
  /-- Set tick s of the last set, for the closures of Table TD-6; reset none -/
  setTick : Option Nat := none
  /-- Billing flags that a set leaves for the closure in tick s (13 Table TD-6); reset 0 -/
  bFlags : Nat := 0
  /-- Slew still to be done, in 1/100,000 of a SUBSEC unit, signed (13 R333); DESIGN CHOICE 0, log 5 -/
  slew : Int := 0
  /-- Trims: RTC SECONDS and magnitude in SUBSEC units (13 R333); NV, DESIGN CHOICE none, log 6 -/
  trims : List (Nat × Nat) := []
  /-- Tick of the last boundary that closed an interval (13 R333); reset none -/
  closedAt : Option Nat := none
  /-- Total VALUEs at the end of the last profile interval, 25 x 4 (18 Table QS-7); reset at restore -/
  profBase : List (List Nat) := []
  /-- Next profile end, RTC SECONDS (18 Table QS-7); reset 0 -/
  nextP : Nat := 0
  /-- Next profile end in tick-count mode, tick; reset 0 -/
  nextPTick : Nat := 0
  /-- Flags of the running profile interval (18 Table QS-7); reset GAP and POWER_OFF -/
  profRun : Nat := 3
deriving DecidableEq, Repr, Inhabited

end Sys2Proof.Machine
end

