-- ==== Sys2Proof/Machine/StVault.lean ====
section
/-!
DEFINITION. The state of the Drupe key vault and the Rind tamper envelope (19). Each field's docstring is its line of
the inventory: width, source, reset value.
-/

namespace Sys2Proof.Machine

/-- One entry of a vault cell (19 R451); the bytes are empty while cleared. -/
structure VEntry where
  /-- P, stored pattern, 32 bytes (19 R451) -/
  pat : List Byte := []
  /-- M, mask, 32 bytes (19 R451) -/
  mask : List Byte := []
  /-- V, polarity, 1 bit (19 R451) -/
  pol : Bool := false
  /-- Attribute, 2 bits (19 Table KV-1) -/
  attr : Nat := 0
  /-- Length, 16 or 32, 0 while cleared (19 R451) -/
  klen : Nat := 0
  /-- KCV, 4 bytes (19 R456) -/
  kcv : List Byte := []
deriving DecidableEq, Repr, Inhabited

/-- One physical cell: two entries and a selector (19 R451). -/
structure VCell where
  /-- Entry 0 (19 R451); NV, DESIGN CHOICE cleared, log 6 -/
  a : VEntry := {}
  /-- Entry 1 (19 R451); NV, DESIGN CHOICE cleared, log 6 -/
  b : VEntry := {}
  /-- Selector: true entry 1 (19 R451); NV, DESIGN CHOICE entry 0, log 6 -/
  sel : Bool := false
  /-- Read-back mismatches in consecutive remasks (19 R458); DESIGN CHOICE 0, log 5 -/
  miss : Nat := 0
  /-- Failed, 1 bit (19 R458); NV, DESIGN CHOICE 0, log 6 -/
  bad : Bool := false
deriving DecidableEq, Repr, Inhabited

/-- A job of the AES engine (01 R35 to R37). -/
structure AesJob where
  /-- Number of a job whose client goes on with other work meanwhile, 0 for one whose client waits within its step (01 R35) -/
  id : Nat := 0
  /-- Client by Table AR-6: 1 LE contactless, 2 LE Chashao, 3 AP, 4 SE (01 R35) -/
  client : Nat := 0
  /-- Slot that it names and the attribute that the operation needs, none for a key held in the engine (01 R36) -/
  slot : Option (Nat × Nat) := none
  /-- Bytes still to be worked on (01 R35) -/
  left : Nat := 0
  /-- Result that the job leaves in the output buffer (01 R37) -/
  res : List Byte := []
deriving DecidableEq, Repr, Inhabited

/-- The AES engine (01 R35 to R37). -/
structure Aes where
  /-- Job whose part of at most 4 KiB runs (01 R35); reset none -/
  run : Option AesJob := none
  /-- What is left of longer jobs that the engine has divided, in order (01 R35); reset empty -/
  rest : List AesJob := []
  /-- Queue, up to 16 jobs in order of entry (01 R35); reset empty -/
  queue : List AesJob := []
  /-- Jobs that their clients hold back while the queue is full (01 R35); reset empty -/
  held : List AesJob := []
  /-- Output buffer (01 R37); DESIGN CHOICE empty, log 5 -/
  out : List Byte := []
  /-- Number of the last job whose client goes on meanwhile (the model's own, log 120); DESIGN CHOICE 0 -/
  ids : Nat := 0
  /-- Jobs of such clients that ended in an error not yet taken by the client (01 R37); reset none -/
  fails : List Nat := []
  /-- Errors returned to the clients 1 to 4, 32 bits saturating (01 R37, 19 R449); reset 0 -/
  errs : List Nat := [0, 0, 0, 0]
deriving DecidableEq, Repr, Inhabited

/-- The Drupe vault (19 R448 to R458). -/
structure Vault where
  /-- The 128 cells (19 R448) -/
  cells : List VCell := List.replicate 128 {}
  /-- Cell of each of the 120 slots (19 R448); NV, slot n in cell n -/
  map : List Nat := List.range 120
  /-- KSEQ of each slot, 32 bits (19 Table KV-5); NV, DESIGN CHOICE 0, log 6 -/
  kseq : List Nat := List.replicate 120 0
  /-- Slots lost, 120 bits (19 Table KV-12 STATE 2); NV, DESIGN CHOICE 0, log 6 -/
  lost : List Bool := List.replicate 120 false
  /-- Key-update counter in the system region, 64 bits (19 R456); NV, DESIGN CHOICE 0, log 6 -/
  counter : Nat := 0
  /-- Random source failed, 1 bit (19 R452); reset 0 -/
  rngBad : Bool := false
  /-- Random bytes drawn so far (the model's own, log 3); DESIGN CHOICE 0 -/
  drawn : Nat := 0
  /-- REMASKS, 32 bits saturating (19 Table KV-12); DESIGN CHOICE 0, log 5 -/
  remasks : Nat := 0
  /-- INVERSIONS, 32 bits saturating (19 Table KV-12); DESIGN CHOICE 0, log 5 -/
  inversions : Nat := 0
  /-- Remasks since the last inversion (19 R452); DESIGN CHOICE 0, log 5 -/
  turn : Nat := 0
  /-- Tick of the last remask, none since reset (19 R451); reset none -/
  last : Option Nat := none
  /-- A remask since reset release has passed on every cell, 1 bit (19 R458); reset 0 -/
  passed : Bool := false
  /-- Zeroised since the last key written, 1 bit (19 Table KV-12); NV, DESIGN CHOICE 0, log 6 -/
  zeroised : Bool := false
  /-- The AES engine (01 R35) -/
  aes : Aes := {}
  /-- Cover-zeroise bit, 1 bit (19 R461); NV, 0 on a device that has never booted -/
  coverBit : Bool := false
deriving DecidableEq, Repr, Inhabited

/-- A latched tamper event (19 R464). -/
structure Tamper where
  /-- CODE of its Cairn entry, 0x62 COVER or 0x63 MESH_BREAK (15 Table SA-3) -/
  code : Nat := 0
  /-- DATA of its Cairn entry (15 Table SA-3) -/
  data : List Byte := []
  /-- Token of the queued entry, none before Keystone takes it (19 R464) -/
  token : Option Nat := none
deriving DecidableEq, Repr, Inhabited

/-- The Rind monitor and the magnetic input (19 R459 to R465). -/
structure Rind where
  /-- LFSR of the mesh drive, 31 bits (19 R460); seeded at reset release -/
  lfsr : Nat := 1
  /-- Mesh broken, 1 bit (19 R460); DESIGN CHOICE 0, log 5 -/
  broken : Bool := false
  /-- MESH_READING, 16 bits (19 R464); DESIGN CHOICE 0, log 5 -/
  reading : Nat := 0
  /-- Ticks in a row in which the mesh has run intact, up to 8 (19 R458); reset 0 -/
  meshTicks : Nat := 0
  /-- Cover open, 1 bit (19 R461); NV, DESIGN CHOICE closed, log 6 -/
  cover : Bool := false
  /-- Tamper latch, in order of the events (19 R464); NV, DESIGN CHOICE empty, log 6 -/
  latch : List Tamper := []
  /-- ZEROISE_COUNT, 32 bits (19 Table KV-13); NV, DESIGN CHOICE 0, log 6 -/
  zCount : Nat := 0
  /-- LAST_ZEROISE_TICK, 64 bits (19 Table KV-13); NV, DESIGN CHOICE 0, log 6 -/
  zTick : Nat := 0
  /-- Ticks for which the zeroise line stays asserted, up to 8 (19 R462); reset 0 -/
  zLine : Nat := 0
  /-- MAG_PWR, 1 bit (19 Table KV-6); reset 0 -/
  magPwr : Bool := false
  /-- Magnetic event active, 1 bit (19 R465); reset 0 -/
  mag : Bool := false
  /-- The event is a sensor fault, 1 bit (19 R465); reset 0 -/
  fault : Bool := false
  /-- LEVEL, 16 bits (19 Table KV-13); DESIGN CHOICE 0, log 5 -/
  level : Nat := 0
  /-- PEAK, 16 bits (19 Table KV-13); DESIGN CHOICE 0, log 5 -/
  peak : Nat := 0
  /-- Mean of the MAGS codes of the tick, exact (19 R465); reset 0 -/
  mean : Rat := 0
  /-- Ticks in a row with the level at MAG_SET or above (19 R465); reset 0 -/
  setN : Nat := 0
  /-- Ticks in a row with the level below MAG_CLEAR (19 R465); reset 0 -/
  clrN : Nat := 0
  /-- Ticks in a row with the mean outside 20 to 4,075 (19 R465); reset 0 -/
  outN : Nat := 0
  /-- Ticks in a row with the mean within 20 to 4,075 (19 R465); reset 0 -/
  inN : Nat := 0
  /-- Place in the four-tick pattern of the mesh bits during a full reset, 2 bits (19 R459); reset 0 -/
  held : Nat := 0
  /-- Tick in which the event began (19 R465); reset 0 -/
  start : Nat := 0
deriving DecidableEq, Repr, Inhabited

end Sys2Proof.Machine
end

