-- ==== Sys2Proof/Machine/State.lean ====
section
/-!
DEFINITION. The state of the block as a whole, its faults and refusals, and the state after reset.
-/

namespace Sys2Proof.Machine

/-- The state of the OT2484. -/
structure State where
  /-- Clocks and tick (02) -/
  clk : Clk := {}
  /-- Reset, Plinth and images (03) -/
  boot : Boot := {}
  /-- One-time programmable memory (03 R87, 19 R453) -/
  otp : Otp := {}
  /-- Host link and mailboxes (04) -/
  link : Link := {}
  /-- Parameter tables (04 R123) -/
  tabs : Tables := {}
  /-- Event recorder (21) -/
  ev : EvRec := {}
  /-- Cairn log (15) -/
  cairn : Cairn := {}
  /-- Seal input (15 R363) -/
  sealIn : Seal := {}
  /-- Metering front end and quantities (05, 06) -/
  meter : Meter := {}
  /-- Calibration and temperature (07) -/
  cal : Cal := {}
  /-- Energy registers (08) -/
  eg : Energy := {}
  /-- The 24 ports (09 to 12, 14) -/
  ports : List Port := List.replicate 24 {}
  /-- Lintel (10) -/
  lintel : Lintel := {}
  /-- Safety functions (12) -/
  safety : Safety := {}
  /-- Real-time clock (13) -/
  rtc : Rtc := {}
  /-- Tariffs and maximum demand (13) -/
  tar : Tariff := {}
  /-- Contactless front-ends (16) -/
  nf : Contactless := {}
  /-- Spares and fences (25) -/
  fences : Fences := {}
  /-- Load switches (22) -/
  ls : LoadSw := {}
  /-- Drupe vault (19) -/
  vault : Vault := {}
  /-- Rind monitor (19) -/
  rind : Rind := {}
  /-- Quarry store and ledger (18, 14) -/
  qr : Quarry := {}
  /-- Firmware update (20) -/
  upd : Upd := {}
  /-- Chashao link (17) -/
  pl : Pl := {}
  /-- Display controller (23) -/
  disp : Disp := {}
  /-- Power management (24) -/
  pw : Power := {}
  /-- Free values drawn so far (model's own, log 2); DESIGN CHOICE 0 -/
  draws : Nat := 0
  /-- Commands waiting, first in first out (the model's queue); reset empty -/
  pending : List Instr := []
deriving DecidableEq, Repr, Inhabited

/-- Faults. None is raised: every command of the table has an effect in every state. -/
inductive Fault where
  /-- Not raised by any meaning; kept so that the type has a name for a stop. Safe. -/
  | unreachable
deriving DecidableEq, Repr

/-- Refusals. -/
inductive Refusal where
  /-- A command without a meaning in the dispatch. Safe. -/
  | notModelled (mnemonic : String)
deriving DecidableEq, Repr

/-- The machine right after a full reset is asserted, on a new device (03 R74, R75; logs 5 and 6). -/
def State.reset : State := {}

end Sys2Proof.Machine
end

