-- ==== Sys2Proof/Machine/Tables.lean ====
section
/-!
DEFINITION. The defaults of the parameter tables and their fixed sizes (04 R123, 27 Table IX-2). While no version has
been loaded, these contents apply.
-/

namespace Sys2Proof.Machine

/-- Front-end map (05 Table MF-9). -/
def def4301 : List Byte :=
  ((List.range 24).map fun p => [byteOf (p / 6), 0, 1, 0]).flatten ++
  ((List.range 4).map fun _ => [1, 0, 0, 0]).flatten ++ zeros 8

/-- Supply-event table (06 Table MQ-8). -/
def def4302 : List Byte :=
  le 2 2300 ++ [50, 10, 50, 90, 110, 120] ++ le 2 250 ++ le 2 300 ++ le 2 150 ++ [10, 5, 1, 0] ++ le 2 60 ++ zeros 4

/-- Meter constant (06 Table MQ-9). -/
def def4303 : List Byte := le 4 10000 ++ le 4 68

/-- 1.0 in Q2.30 (07 R187). -/
def q30 : List Byte := le 4 0x40000000

/-- A path block of seven words with gains 1.0 and offsets 0 (07 Tables CA-3, CA-5). -/
def unitBlock : List Byte := q30 ++ zeros 4 ++ q30 ++ zeros 4 ++ q30 ++ zeros 4 ++ q30

/-- Temperature-coefficient table (07 Table CA-5). -/
def def4401 : List Byte :=
  ([-200, 0, 200, 400, 600, 800, 1000] : List Int).flatMap (leI 2) ++ [3, 0] ++ zeros 24 ++ zeros 4 ++ zeros 4 ++
  (List.replicate 32 (q30 ++ unitBlock ++ unitBlock ++ zeros 4)).flatten

/-- Control-pilot state table (09 Table VH-5). -/
def def4501 : List Byte :=
  ([3456, 3712, 3072, 3328, 2688, 2944, 2304, 2560, 1920, 2176, 384, 640] : List Nat).flatMap (le 2) ++
  [3, 0, 2, 3, 3, 3, 2, 3] ++ le 2 50 ++ le 2 75 ++ le 2 930 ++ le 2 1000 ++ [0, 10] ++ le 2 10 ++ [50, 5] ++
  le 2 4000 ++ zeros 16

/-- Connector table (09 Table VH-7). -/
def def4502 : List Byte :=
  (List.replicate 24 ([1, 0xFF, 32, 32, 0, 0, 0, 0] : List Byte)).flatten ++
  (([(3900, 4095, 2, 0), (2150, 2750, 1, 13), (1380, 1950, 1, 20), (560, 930, 1, 32), (260, 480, 1, 63),
     (0, 100, 3, 0), (0, 0, 0, 0), (0, 0, 0, 0)] : List (Nat × Nat × Nat × Nat)).flatMap
    fun b => le 2 b.1 ++ le 2 b.2.1 ++ [byteOf b.2.2.1, byteOf b.2.2.2]) ++
  le 2 50 ++ le 2 300 ++ [40, 50] ++ le 2 60 ++ le 2 300 ++ zeros 6

/-- Handshake options (09 R245). -/
def def0501 : List Byte := (List.replicate 24 ([0, 0, 1, 0] : List Byte)).flatten

/-- Feeder table (10 Table HA-4). -/
def def4601 : List Byte :=
  (List.replicate 4 (le 2 630 ++ le 2 630 ++ le 2 630 ++ le 2 630 ++ zeros 8)).flatten ++
  (([(110, 3600000), (125, 1200000), (150, 300000), (200, 60000), (300, 10000), (400, 3000), (600, 600),
     (1000, 100)] : List (Nat × Nat)).flatMap fun c => le 2 c.1 ++ le 4 c.2) ++
  le 2 600 ++ [10, 0] ++ le 2 20000 ++ le 2 630 ++ [1] ++ zeros 7

/-- Allocation options (10 Table HA-5). -/
def def0601 : List Byte :=
  (List.replicate 24 ([4, 80, 16, 0, 0, 0, 0, 0] : List Byte)).flatten ++
  le 2 20 ++ le 2 20 ++ le 2 10 ++ le 2 900 ++ zeros 8

/-- Residual and contactor table (11 Table RC-2). -/
def def4701 : List Byte :=
  (([(60, 8000), (600, 200), (2000, 40), (0, 0), (300, 240), (600, 100), (1500, 5), (0, 0)] :
     List (Nat × Nat)).flatMap fun c => le 2 c.1 ++ le 4 c.2) ++
  [2, 3] ++ le 2 200 ++ le 2 15 ++ le 2 150 ++ le 2 80 ++ le 2 60 ++ le 2 12 ++ le 2 200 ++ le 2 100 ++ le 2 100 ++
  le 2 5 ++ [3, 4, 3] ++ zeros 23

/-- Safe-stop table (12 Table SF-4). -/
def def4801 : List Byte :=
  (([(0, 110, 20), (2000, 60, 20), (2500, 25, 10), (0xFFFF, 0, 0), (0xFFFF, 0, 0), (0xFFFF, 0, 0), (0xFFFF, 0, 0),
     (0xFFFF, 0, 0)] : List (Nat × Nat × Nat)).flatMap
    fun c => le 2 c.1 ++ [byteOf c.2.1, 0] ++ le 2 c.2.2 ++ zeros 2) ++
  [80, 16, 2, 8] ++ le 2 100 ++ [2, 0]

/-- Magnetic table (19 Table KV-7). -/
def def4F01 : List Byte := le 2 2048 ++ le 2 400 ++ le 2 250 ++ le 2 100 ++ le 2 1000 ++ zeros 6

/-- Prepayment options (14 Table PP-3). -/
def def0A01 : List Byte := zeros 4 ++ le 4 0xFFFFFF ++ le 4 0xFFFFFF ++ le 4 1000

/-- Credit rules (14 Table PP-5). -/
def def4A01 : List Byte := le 4 5000 ++ le 4 10000 ++ [0x7F, 0] ++ le 2 1080 ++ le 2 360 ++ zeros 18 ++ [1] ++ zeros 7

/-- Tariff table (13 Table TD-2). -/
def def4901 : List Byte :=
  zeros 8 ++ zeros 2 ++ [0, 0] ++ zeros 8 ++ [0, 15, 1, 1, 0] ++ zeros 3 ++ zeros 4 ++ zeros 32 ++
  [1, 1] ++ zeros 10 ++ (List.replicate 11 (([0, 1] : List Byte) ++ zeros 10)).flatten ++
  (List.replicate 32 (zeros 4 ++ (List.replicate 15 ([0xFF, 0xFF, 0, 0] : List Byte)).flatten)).flatten ++
  zeros 256 ++ zeros 16

/-- Contactless options (16 Table CL-3). -/
def def0C01 : List Byte :=
  ([2, 1] : List Nat).flatMap fun m =>
    [byteOf m, 1, 30, 16] ++ le 2 200 ++ le 2 15 ++ le 2 3000 ++ le 2 400 ++ [1, 0, 0, 0]

/-- Load-switch role table (22 Table LS-2). -/
def def1201 : List Byte := zeros 136

/-- Link options (17 Table PL-3). -/
def def0D01 : List Byte := [0, 6, 40, 1, 0, 0, 0, 0, 0, 0, 1] ++ zeros 5

/-- Panel timing (23 Table DC-3). -/
def def1301 : List Byte :=
  le 2 800 ++ le 2 128 ++ le 2 480 ++ le 2 45 ++ le 2 1370 ++ [0, 0] ++ le 2 816 ++ le 2 64 ++ le 2 16 ++ le 2 24 ++
  [1, 60, 20, 0] ++ zeros 8 ++ le 2 50 ++ zeros 2

/-- Power options (24 Table PS-6). -/
def def1401 : List Byte := [0, 0] ++ le 2 500 ++ zeros 4

end Sys2Proof.Machine
end

