-- ==== Sys2Proof/Machine/Ops.lean ====
section
/-!
DEFINITION. The operations that the meanings share: access to ports, phases and groups, tables, readiness, logs,
notifications, fences.
-/

namespace Sys2Proof.Machine

/-- The outcome type of a meaning. -/
abbrev Out := Host.Outcome State Fault Refusal

/-- The current tick (02 R54). -/
def now (s : State) : Nat := s.clk.tick

def getPort (s : State) (p : Nat) : Port := nth s.ports p {}
def updPort (p : Nat) (f : Port → Port) (s : State) : State := { s with ports := s.ports.modify p f }
def getPh (s : State) (p x : Nat) : Ph := nth s.meter.phs (3 * p + x) {}
def updPh (i : Nat) (f : Ph → Ph) (s : State) : State :=
  { s with meter := { s.meter with phs := s.meter.phs.modify i f } }
def getGrp (s : State) (g : Nat) : Grp := nth s.meter.grps g {}
def updGrp (g : Nat) (f : Grp → Grp) (s : State) : State :=
  { s with meter := { s.meter with grps := s.meter.grps.modify g f } }
def getStream (s : State) (k : Nat) : Stream := nth s.meter.streams k {}
def updStream (k : Nat) (f : Stream → Stream) (s : State) : State :=
  { s with meter := { s.meter with streams := s.meter.streams.modify k f } }

/-- A step applied to each number below n, lowest first. -/
def foldN {α : Type} (n : Nat) (f : Nat → α → α) (a : α) : α := (List.range n).foldl (fun a i => f i a) a

/-- A step applied to each port, lowest first. -/
def eachPort (f : Nat → State → State) (s : State) : State := foldN 24 f s

/-- The default content of a table (04 R123). -/
def defTab (id : Nat) : List Byte :=
  match id with
  | 0x4301 => def4301
  | 0x4302 => def4302
  | 0x4303 => def4303
  | 0x4401 => def4401
  | 0x4501 => def4501
  | 0x4502 => def4502
  | 0x0501 => def0501
  | 0x4601 => def4601
  | 0x0601 => def0601
  | 0x4701 => def4701
  | 0x4801 => def4801
  | 0x1201 => def1201
  | 0x4F01 => def4F01
  | 0x0A01 => def0A01
  | 0x4A01 => def4A01
  | 0x4901 => def4901
  | 0x0C01 => def0C01
  | 0x0D01 => def0D01
  | 0x1301 => def1301
  | 0x1401 => def1401
  | _ => []

def tabRec (s : State) (id : Nat) : Option TableRec := s.tabs.installed.find? fun r => r.id == id

/-- The content of a table in force: the installed version, or the defaults. -/
def tab (s : State) (id : Nat) : List Byte :=
  match tabRec s id with
  | some r => r.bytes
  | none => defTab id

/-- An open table is loaded: the store has been read and no version of it waits for its effect (04 R123, R125). -/
def tabLoaded (s : State) (id : Nat) : Bool := s.tabs.restored && s.tabs.waiting.all fun w => w.tab.id != id

/-- A little-endian field of a table in force. -/
def tf (s : State) (id off len : Nat) : Nat := fld (tab s id) off len

/-- The front-end map (05 Table MF-9). -/
def groupOf (s : State) (p : Nat) : Nat := tf s 0x4301 (4 * p) 1
def rotOf (s : State) (p : Nat) : Nat := tf s 0x4301 (4 * p + 1) 1
def fitted (s : State) (p : Nat) : Bool := decide (p < 24) && tf s 0x4301 (4 * p + 2) 1 == 1
def grpFitted (s : State) (g : Nat) : Bool := decide (g < 4) && tf s 0x4301 (96 + 4 * g) 1 == 1
/-- The line that phase x of port p is paired with (05 Table MF-8). -/
def lineOf (s : State) (p x : Nat) : Nat := (x + rotOf s p) % 3

/-- Stream numbers (05 Table MF-4). -/
def iStream (p x : Nat) : Nat := 4 * p + x
def uStream (g l : Nat) : Nat := 96 + 4 * g + l

/-- Bits of READY_MAP (03 Table PU-16). -/
def rVG : Nat := 24
def rKS : Nat := 28
def rOR : Nat := 29
def rSE : Nat := 30
def rLE : Nat := 31
def rAP : Nat := 32
def rQ0 : Nat := 33
def rLedger : Nat := 35
def rCairn : Nat := 36
def rNF : Nat := 37
def rPL : Nat := 39
def rLS : Nat := 42
def rDisp : Nat := 43
def rDrupe : Nat := 44
def rPulse : Nat := 45
def rSafety : Nat := 46

def rdy (s : State) (b : Nat) : Bool := s.boot.ready.getLsbD b

/-- A bit vector with one bit set or cleared. -/
def bvSet {w : Nat} (v : BitVec w) (i : Nat) (b : Bool) : BitVec w :=
  if b then v ||| (1#w <<< i) else v &&& ~~~(1#w <<< i)

/-- IRQ_STATUS bits (04 Table HL-9). -/
def irqSet (i : Nat) (s : State) : State := { s with link := { s.link with irq := bvSet s.link.irq i true } }

/-- A READY_MAP bit takes a value; a change sets READY_CHG (03 R94, 04 Table HL-9). -/
def setReady (b : Nat) (v : Bool) (s : State) : State :=
  if s.boot.ready.getLsbD b == v then s
  else irqSet 8 { s with boot := { s.boot with ready := bvSet s.boot.ready b v } }

/-- HL_STATUS error bit i (8 to 11, 15) and HL_ERROR (04 Tables HL-8, HL-9). -/
def hlErr (i : Nat) (s : State) : State :=
  irqSet 11 { s with link := { s.link with hlStatus := bvSet s.link.hlStatus i true } }

/-- An entry offered to the event recorder's write port (21 R489). -/
def evrec (code unit subject : Nat) (data : List Byte) (s : State) : State :=
  { s with ev := { s.ev with queue := s.ev.queue ++ [⟨0, code, unit, subject, padTo 16 data⟩] } }

/-- The units that write memory (01 Tables AR-1, AR-2, R20, R21). -/
inductive BusUnit where
  | ap | ks | or_ | le | se | host | recorder | power
deriving DecidableEq, Repr

/-- The writing unit in FIREWALL_WRITE (21 Tables EV-1, EV-2; log 124). -/
def unitByte : BusUnit → Byte
  | .ap => 0 | .ks => 1 | .or_ => 2 | .le => 3 | .se => 4 | .host => Config.hostUnit | .recorder => 6 | .power => 5

/-- The SRAM banks, and the areas of bank 11 (01 R20, Table AR-2). -/
inductive Area where
  | bank (b : Nat) | hostReq | maintReq | resp | staging | ring | spare
deriving DecidableEq, Repr

/-- The bank of an area. -/
def areaBank : Area → Nat
  | .bank b => b
  | _ => 11

/-- The owner of a bank that is not shared (01 Table AR-2). -/
def bankOwner (b : Nat) : BusUnit := nth [.ap, .ap, .ap, .ap, .ap, .ap, .ap, .ap, .ap, .le, .se, .recorder, .or_, .or_, .ks, .se] b .power

/-- The unit is a writer of the area (01 R20). -/
def mayWrite : Area → BusUnit → Bool
  | .bank b, u => b != 11 && bankOwner b == u
  | .hostReq, u => u == .host
  | .maintReq, u => u == .le
  | .resp, u => u == .ap
  | .staging, u => u == .ap
  | .ring, u => u == .recorder
  | .spare, u => u == .ap

/-- A refused write is counted in the event recorder (01 R20, 21 Table EV-2). -/
def firewallRec (u : BusUnit) (bank : Byte) (addr : Nat) (s : State) : State :=
  evrec 0x0001 5 0xFF ([unitByte u, bank, 0, 0] ++ le 4 addr) s

/-- The firewall: a write f of a unit into an area, discarded and counted where the unit is none of its writers (01 R20). -/
def fwWrite (u : BusUnit) (a : Area) (addr : Nat) (f : State → State) (s : State) : State :=
  if mayWrite a u then f s else firewallRec u (byteOf (areaBank a)) addr s

/-- The words of the system region of MRAM (01 R21). -/
inductive SysWord where
  | sessionId | timeCounter | accountCounter | keyCounter | clearedSeq | seqReserved | fcnt | fcntHigh | generation | spares
  | avail | power
deriving DecidableEq, Repr

/-- The one writer of a word (01 R21). -/
def sysOwner : SysWord → BusUnit
  | .sessionId | .timeCounter | .accountCounter | .keyCounter | .clearedSeq | .seqReserved => .ap
  | .fcnt | .fcntHigh => .le
  | .generation => .se
  | .spares | .avail => .ks
  | .power => .power

/-- Words that carry a replay counter or a sequence mark (01 R21). -/
def sysMonotone : SysWord → Bool
  | .sessionId | .generation | .spares | .avail | .power => false
  | _ => true

/-- The system port: unit u writes new over old by f. A write by another unit is discarded and counted, and one that would
lower a monotonic word is refused (01 R21). -/
def sysWrite (u : BusUnit) (w : SysWord) (old new : Nat) (f : Nat → State → State) (s : State) : State :=
  if sysOwner w != u then firewallRec u Config.mramBank 0 s
  else if sysMonotone w && decide (new < old) then s
  else f new s

/-- Wake sources that show as an event of a fitted port or of protection, and housekeeping by a billing closure (24
Table PS-3): the bit and its value. -/
def wakeOf (s : State) (op : Nat) (p : List Byte) : Option (Nat × Nat) :=
  let b := fld p 0 1
  if op == 0x0580 && fld p 1 1 == 1 && fitted s b then some (4, b)
  else if op == 0x0780 || op == 0x0880 || op == 0x0380 then some (5, 0)
  else if op == 0x0980 && b == 3 then some (7, 0)
  else none

/-- A wake source fires in STANDBY or while it is being entered (24 R525, R529). -/
def wakeFire (bit value : Nat) (s : State) : State :=
  if (s.pw.mode == 2 || s.pw.entry.isSome) && !(s.pw.fired.any fun f => f.1 == bit) then
    { s with pw := { s.pw with fired := s.pw.fired ++ [(bit, value)] } }
  else s

/-- What the spec orders among the notifications of one tick: what two of them must share, and the rank of one (09 R246, 10
R267, 11 R288, 12 R315, 14 R361). -/
def noteRank (op : Nat) (p : List Byte) : Option (List Byte × Nat) :=
  match op with
  | 0x0580 | 0x0780 => some (bytesAt p 0 1 ++ bytesAt p 4 8, fld p 1 1)
  | 0x0680 => some (bytesAt p 4 8, 65536 * fld p 0 1 + 256 * fld p 1 1 + fld p 3 1)
  | 0x0880 => some (bytesAt p 4 8, if fld p 0 1 == 0xFF then fld p 1 1 else 256 + fld p 0 1)
  | 0x0A80 => some (bytesAt p 8 8, fld p 0 1)
  | _ => none

/-- A residual trip is reported before the other reasons of its port in its tick: those of a safe stop and a forced stop
of Lintel (11 Table RC-8). -/
def tripFirst (n m : Note) : Bool :=
  n.op == 0x0780 && decide (fld n.payload 1 1 ≤ 2) && bytesAt n.payload 4 8 == bytesAt m.payload 4 8 &&
  ((m.op == 0x0880 && fld m.payload 0 1 == fld n.payload 0 1 && fld m.payload 1 1 ≤ 2) ||
   (m.op == 0x0680 && fld m.payload 2 1 == 3 && fld m.payload 3 1 == fld n.payload 0 1))

/-- A queued notification has to follow another. -/
def noteAfter (n m : Note) : Bool :=
  tripFirst n m || n.op == m.op && (match noteRank n.op n.payload, noteRank m.op m.payload with
    | some a, some b => a.1 == b.1 && decide (a.2 < b.2)
    | _, _ => false)

/-- A notification is queued: behind the others, but before those of its tick that have to follow it. -/
def notePlace (n : Note) (q : List Note) : List Note :=
  let i := q.findIdx (noteAfter n)
  q.take i ++ [n] ++ q.drop i

/-- A notification of the owning subsystem, queued where the subsystem is routed; the oldest of 64 gives way (04 R120). -/
def notify (op : Nat) (payload : List Byte) (s0 : State) : State :=
  let s := match wakeOf s0 op payload with
    | some (b, v) => wakeFire b v s0
    | none => s0
  if s.link.noteCh != 0xFF && s.link.noteMask.testBit (op / 256) then
    let q := notePlace ⟨op, payload⟩ s.link.notes
    if q.length > 64 then { s with link := { s.link with notes := q.drop 1, lost := true } }
    else { s with link := { s.link with notes := q } }
  else s

/-- RTC_TIME as a 64-bit word (04 Table HL-14). -/
def rtcWord (s : State) : Nat := s.rtc.sec * 65536 + b2n s.rtc.valid * 32768 + s.rtc.sub

/-- The token that the next queued Cairn entry gets (15 R367, log 12). -/
def cairnToken (s : State) : Nat := s.cairn.next

/-- A queued entry of the same tick that has to follow one of Orchard's: Keystone's, and SEAL_CLOSED after BAND_CHANGE
(15 Table SA-8). -/
def cairnAfter (j k : CairnJob) : Bool :=
  k.entry.tick == j.entry.tick && j.entry.writer == 0 &&
    (k.entry.writer == 1 || (j.entry.code == 0x13 && k.entry.code == 2))

/-- An entry is queued behind the others, but before those of its tick that have to follow it (15 Table SA-8). -/
def cairnPlace (j : CairnJob) (q : List CairnJob) : List CairnJob :=
  let i := q.findIdx (cairnAfter j)
  q.take i ++ [j] ++ q.drop i

/-- A seal entry that comes behind SUPPLY_LOSS: the seal opened between the confirmed fall of PFAIL_N and the forced
commit, or closed after such an opening (15 Table SA-8). -/
def cairnHeld (code : Nat) (s : State) : Bool :=
  s.eg.pfailTick.isSome && s.eg.forced.isSome && (code == 1 || (code == 2 && !s.cairn.behind.isEmpty))

/-- A Cairn entry is queued (15 R367). -/
def cairnQ (writer code subject : Nat) (data : List Byte) (tamper : Bool) (s : State) : State :=
  let j : CairnJob := ⟨⟨0, 0, now s, code, writer, subject, padTo 24 data, []⟩, s.cairn.next, tamper⟩
  if cairnHeld code s then
    { s with cairn := { s.cairn with behind := s.cairn.behind ++ [j], next := s.cairn.next + 1 } }
  else { s with cairn := { s.cairn with queue := cairnPlace j s.cairn.queue, next := s.cairn.next + 1 } }

/-- Orchard's and Keystone's entries. -/
def cairnO (code subject : Nat) (data : List Byte) (s : State) : State := cairnQ 0 code subject data false s
def cairnK (code subject : Nat) (data : List Byte) (s : State) : State := cairnQ 1 code subject data false s

/-- The entry with a token is no longer queued: it is in MRAM, or it was counted as lost (15 R367, R369). -/
def cairnDone (tok : Nat) (s : State) : Bool := s.cairn.queue.all fun j => j.token != tok

/-- The entry with a token was counted in LOST: what waits for it is refused as with the seal closed (15 R369). -/
def cairnLost (tok : Nat) (s : State) : Bool := s.cairn.lostToks.contains tok

/-- Entries that await mirroring (15 R369, R370). -/
def cairnAwait (s : State) : Nat := s.cairn.head - s.cairn.mirrorSeq

/-- The seal-gated write port: open only while the seal allows it and fewer than 960 entries await mirroring
(15 R363, R369). -/
def sealPort (s : State) : Bool := s.sealIn.port && decide (cairnAwait s < 960)

/-- The first bit of each fence domain in FENCE_MAP, and its width (25 Table SP-3). -/
def fenceOff (dom : Nat) : Nat := nth [0, 24, 28, 34, 62, 64, 67, 83, 84, 86, 90, 98] dom 0
def fenceCnt (dom : Nat) : Nat := nth [24, 4, 6, 28, 2, 3, 16, 1, 2, 4, 8, 128] dom 0

/-- A domain is fenced. -/
def fencedB (s : State) (dom idx : Nat) : Bool := s.fences.map.getLsbD (fenceOff dom + idx)
/-- A fence was requested by the host. -/
def requestedB (s : State) (dom idx : Nat) : Bool := s.fences.requested.getLsbD (fenceOff dom + idx)

/-- A port is fenced itself or by its group (25 Table SP-2). -/
def portFenced (s : State) (p : Nat) : Bool :=
  fencedB s 0 p || fencedB s 1 (groupOf s p) || (nth s.fences.grp (groupOf s p) none).isSome

/-- The pulses of MC05 reach the bus domain: the crossing has not overrun in this tick (02 R59, Table TK-4). -/
def mc05 (s : State) : Bool := !(nth s.clk.cross 4 {}).merged

/-- FENCE_EVENT: notification and event-recorder entry (25 R547); those of the tick and Keystone domains cross MC05 as
pulses. -/
def fenceEvent (dom idx ev : Nat) (req : Bool) (value : Nat) (s : State) : State :=
  if dom < 4 && !mc05 s then s
  else
  let h := [byteOf dom, byteOf idx, byteOf ev, byteOf (b2n req)]
  let unit := if dom < 4 then 1 else 0
  let subj := if dom == 0 then idx else if dom == 1 then 0x80 + idx else if dom == 10 then 0xC0 + idx else 0xFF
  evrec (0x1500 + ev) unit subj (h ++ le 4 value) (notify 0x1580 (h ++ le 8 (now s) ++ le 4 value) s)

/-- READY_MAP bits that a fence of a domain clears (03 R94). -/
def fenceReady (dom idx : Nat) (s : State) : State :=
  match dom with
  | 0 => setReady idx false s
  | 1 => eachPort (fun p s => if groupOf s p == idx then setReady p false s else s) (setReady (rVG + idx) false s)
  | 4 => setReady (rNF + idx) false s
  | 5 => setReady (rPL + idx) false s
  | 7 => setReady rDisp false s
  | 8 => setReady (rQ0 + idx) false s
  | _ => s

/-- A mailbox channel takes a state. -/
def setChan (c : Nat) (st : ChSt) (s : State) : State :=
  { s with link := { s.link with chans := s.link.chans.modify c fun k => { k with st := st } } }

/-- The FENCE_MAP bit of a domain sets, with FENCE_CHG and the event (25 R541). A fault on a domain fenced by
request takes the REQUESTED mark away (25 Table SP-4). -/
def fenceBit (dom idx : Nat) (req grp : Bool) (cls det : Nat) (s : State) : State :=
  let b := fenceOff dom + idx
  let own : State → State := fun s =>
    if dom == 0 then updPort idx (fun q => { q with
      fenceBy := some (cls, det), byGroup := grp, liftOpen := 0, liftRuns := 0, liftAt := none }) s
    else if dom == 10 then
      let s1 := setChan idx .fenced s
      if s1.tabs.owner == some idx then { s1 with tabs := { s1.tabs with owner := none, bytes := [] } } else s1
    else s
  if s.fences.map.getLsbD b then
    if grp then s
    else if dom == 0 && (getPort s idx).byGroup then
      own { s with fences := { s.fences with requested := bvSet s.fences.requested b req } }
    else if req then s
    else own { s with fences := { s.fences with requested := bvSet s.fences.requested b false } }
  else
    let s1 := { s with fences := { s.fences with
      map := bvSet s.fences.map b true, requested := bvSet s.fences.requested b req } }
    fenceReady dom idx (own (fenceEvent dom idx 1 req (cls * 256 + det) (irqSet 9 s1)))

/-- A domain is fenced; a group takes each of its ports with it (01 R43, 25 Table SP-2). -/
def fenceNow (dom idx : Nat) (req : Bool) (cls det : Nat) (s : State) : State :=
  let s1 := fenceBit dom idx req false cls det s
  if dom == 1 then
    eachPort (fun p s => if fitted s p && groupOf s p == idx then fenceBit 0 p req true cls det s else s) s1
  else s1

/-- The FENCE_MAP bit of a domain clears (25 R542). -/
def unfenceBit (dom idx : Nat) (s : State) : State :=
  let b := fenceOff dom + idx
  let req := s.fences.requested.getLsbD b
  if s.fences.map.getLsbD b then
    let s1 := { s with fences := { s.fences with
      map := bvSet s.fences.map b false
      requested := bvSet s.fences.requested b false
      atBoot := bvSet s.fences.atBoot b false } }
    let s2 := fenceEvent dom idx 2 req 0 (irqSet 9 s1)
    if dom == 0 then updPort idx (fun q => { q with
        fenceBy := none, byGroup := false
        ct := { q.ct with vFault := false, welded := false, mirror := false, cfbFault := false } }) s2
    else if dom == 10 then setChan idx (if s2.link.noteCh == idx then .notifyOnly else .idle) s2
    else s2
  else s

/-- A fence is lifted; with a group, the ports that it took with it (25 Tables SP-2, SP-4). -/
def unfenceNow (dom idx : Nat) (s : State) : State :=
  let s1 := unfenceBit dom idx s
  if dom == 1 then
    eachPort (fun p s => if groupOf s p == idx && (getPort s p).byGroup then unfenceBit 0 p s else s) s1
  else s1

/-- A fence on a fault that was in force at boot lifts when its domain passes its start-up test (25 R543). -/
def bootLift (dom idx : Nat) (s : State) : State :=
  if fencedB s dom idx && !requestedB s dom idx && s.fences.atBoot.getLsbD (fenceOff dom + idx) then unfenceNow dom idx s
  else s

/-- An image is ACTIVE and its processor is not held by an activation; codes 1 AP, 2 KS, 3 OR, 4 LE, 5 SE (03 Table
PU-15, 20 R473). -/
def imgActive (s : State) (code : Nat) : Bool :=
  (nth s.boot.imgs (code - 1) {}).st == .active && s.boot.held != code

/-- Keystone runs: its image is ACTIVE and PLLB is locked (02 Tables TK-1, TK-2). -/
def ksRun (s : State) : Bool := imgActive s 2 && s.clk.pllb

/-- Orchard runs: its image is ACTIVE and PLLC is locked (02 Tables TK-1, TK-2). -/
def orRun (s : State) : Bool := imgActive s 3 && s.clk.pllc

/-- The tick domain runs (02 Table TK-2). -/
def tickRun (s : State) : Bool := s.boot.phase != .reset && s.clk.xref && s.clk.pllc

/-- A unit acts only while its domain is clocked (02 R51). -/
def gated (on : Bool) (f : State → State) (s : State) : State := if on then f s else s

/-- LE runs: its image is ACTIVE and the bus domain is clocked (02 Table TK-2). -/
def leRun (s : State) : Bool := imgActive s 4 && s.clk.busRun

/-- A reserved switch, 6 to 13, is closed (12 R309). -/
def reservedSw (w : Nat) : Bool := w / 64 % 256 != 0

/-- The condition of KS_RDY without the watchdog, which is armed with it (03 Table PU-16, R96, 12 R306, R312). -/
def ksReady (s : State) : Bool :=
  ksRun s && s.safety.lockstep && s.safety.wordOk && s.safety.scan != 1 && !reservedSw s.safety.word &&
    s.safety.waitEntry.all fun t => cairnDone t s

/-- The host-link core runs (02 Table TK-2, 04 R110). -/
def hcRun (s : State) : Bool := s.boot.phase != .reset && s.clk.pllc

/-- A free value drawn from the counter of the state (log 2). -/
def draw (s : State) : Nat × State := (Config.freeValue s.draws, { s with draws := s.draws + 1 })

/-- The bus domain is clocked (02 R68). -/
def busRun (s : State) : Bool := s.clk.busRun

/-- The floor of a rational number. -/
def ratFloor (x : Rat) : Int := x.num / (x.den : Int)

end Sys2Proof.Machine
end

