-- ==== Sys2Proof/Machine/Clocks.lean ====
section
/-!
DEFINITION. Clock sources, their loss and return, and CLK_STATUS (02).
-/

namespace Sys2Proof.Machine

/-- CLK_STATUS (02 Table TK-7). -/
def clkStatus (c : Clk) : Nat :=
  bitsOf [c.apRun, c.busRun, c.nfRun, c.nfSrc, c.pixRun, c.plRun, c.rtcRun, false] + 256 * (c.opp % 4) +
  1024 * b2n c.oppBusy + 65536 * bitsOf [c.rtcStopSeen, c.relockSeen, c.mortarOvr]

/-- IRQ_STATUS.CLK_EVENT (04 Table HL-9). -/
def clkEvent (s : State) : State := irqSet 12 s

/-- The recorder's source code of a clock (21 Table EV-2). -/
def clockCode : Clock → Nat
  | .xref => 0 | .rtc => 1 | .rco0 => 2 | .rco1 => 3 | .plla => 4 | .pllb => 5 | .pllc => 6 | .plln => 7 | .pllp => 8

/-- A clock source runs or is locked. -/
def clockOn (c : Clk) : Clock → Bool
  | .xref => c.xref | .rtc => c.rtcOsc | .rco0 => c.rco0 | .rco1 => c.rco1 | .plla => c.plla | .pllb => c.pllb
  | .pllc => c.pllc | .plln => c.plln | .pllp => c.pllp

/-- CLOCK_EVENT in the event recorder (21 Table EV-2). -/
def clockRec (k : Clock) (kind : Nat) (s : State) : State := evrec 0x0002 5 0xFF [byteOf (clockCode k), byteOf kind] s

/-- BUS_RUN takes a value; a change sets CLK_EVENT (04 Table HL-9). -/
def setBusRun (v : Bool) (s : State) : State :=
  if s.clk.busRun == v then s else clkEvent { s with clk := { s.clk with busRun := v } }

/-- The monitor sees that the RTC oscillator has stopped (02 R49, R69, Table TK-1). -/
def rtcStopped (s : State) : State :=
  clkEvent (clockRec .rtc 0 { s with clk := { s.clk with rtcRun := false, rtcStopSeen := true } })

/-- PLL_RELOCK (02 R48, R71): PLLA, PLLN or PLLP has relocked and its domain resumes: AP where it is not held, the
contactless domain with the source it had, the pixel domain where the display is on. In STANDBY the PLLs are off. -/
def pllRelock (k : Clock) (s : State) : State :=
  if clockOn s.clk k || !s.clk.xref || s.boot.phase == .reset || s.pw.mode == 2 then s
  else
    let f := fun (c : Clk) => match k with
      | .plla => { c with plla := true, apRun := s.pw.mode == 0 }
      | .plln => { c with plln := true, nfRun := true, pllnFails := 0 }
      | _ => { c with pllp := true, pixRun := s.disp.mode != 0, pllpFails := 0 }
    match k with
    | .plla | .plln => clkEvent (clockRec k 1 { s with clk := { f s.clk with relockSeen := true } })
    | .pllp => clkEvent (clockRec k 1 { s with
        clk := { f s.clk with relockSeen := true }, disp := { s.disp with ref := none, mis := 0, hits := 0 } })
    | _ => s

def execPllRelock (k : Clock) (s : State) : Out := .next (pllRelock k s)

/-- A front-end is fenced with its maintenance channel (25 Table SP-2). -/
def fenceNf (i : Nat) (req : Bool) (cls det : Nat) (s : State) : State :=
  fenceNow 10 (6 + i) req cls det (fenceNow 4 i req cls det s)

/-- RELOCK_FAILED (02 Table TK-1): after 3 failed relocks the front-ends or the display are fenced. -/
def relockFailed (k : Clock) (s : State) : State :=
  if clockOn s.clk k then s
  else match k with
    | .plln =>
      let n := min 3 (s.clk.pllnFails + 1)
      let s1 := { s with clk := { s.clk with pllnFails := n } }
      if n == 3 && s.clk.pllnFails != 3 then fenceNf 1 false 6 0 (fenceNf 0 false 6 0 s1) else s1
    | .pllp =>
      let n := min 3 (s.clk.pllpFails + 1)
      let s1 := { s with clk := { s.clk with pllpFails := n } }
      if n == 3 && s.clk.pllpFails != 3 then fenceNow 7 0 false 6 1 s1 else s1
    | _ => s

def execRelockFailed (k : Clock) (s : State) : Out := .next (relockFailed k s)

/-- RTC_OSCILLATOR_RESTART (02 R71). A stop that the monitor had not yet seen leaves RTC_RUN as it was. -/
def rtcRestart (s : State) : State :=
  if s.clk.rtcRun then { s with clk := { s.clk with rtcOsc := true } }
  else clkEvent { s with clk := { s.clk with rtcOsc := true, rtcRun := true } }

def execRtcOscillatorRestart (s : State) : Out := .next (rtcRestart s)

end Sys2Proof.Machine
end

