-- ==== Sys2Proof/Machine/Trig.lean ====
section
/-!
DEFINITION. Sine, cosine, arc tangent and the single-bin DFT in integer arithmetic (06 R161, R170, R175). A turn is
2^48, the unit of a sine and of a radian is 2^-40; what lies below is within the rounding of log 22.
-/

namespace Sys2Proof.Machine

/-- A turn, and the unit of sines and radians. -/
def turn : Nat := 281474976710656
def trigOne : Int := 1099511627776

/-- A series in Horner's form: 1 - x/d1 (1 - x/d2 (1 - ...)), in units of 2^-40. -/
def horner (x : Int) (ds : List Int) : Int := ds.foldr (fun d a => trigOne - x * a / (trigOne * d)) trigOne

/-- Sine and cosine of an angle of the first quarter. -/
def sinQuarter (r : Nat) : Int :=
  let t : Int := ((r * 6908435304715 / turn : Nat) : Int)
  t * horner (t * t / trigOne) [6, 20, 42, 72, 110, 156, 210, 272, 342, 420] / trigOne
def cosQuarter (r : Nat) : Int :=
  let t : Int := ((r * 6908435304715 / turn : Nat) : Int)
  horner (t * t / trigOne) [2, 12, 30, 56, 90, 132, 182, 240, 306, 380]

/-- Sine and cosine of an angle in units of 2^-48 turn. -/
def sinT (a : Nat) : Int :=
  let r := a % (turn / 4)
  match a / (turn / 4) % 4 with
  | 0 => sinQuarter r | 1 => cosQuarter r | 2 => -sinQuarter r | _ => -cosQuarter r
def cosT (a : Nat) : Int := sinT (a + turn / 4)

/-- Arc tangent of a number from 0 to 1, both in 2^-40. -/
def atanSeries (z : Int) : Int :=
  let x := z * z / trigOne
  let odd : List Int := (List.range 24).map fun (k : Nat) => 2 * (k : Int) + 1
  z * odd.foldr (fun d a => trigOne / d - x * a / trigOne) 0 / trigOne
def atanUnit (z : Int) : Int :=
  if 5 * z ≤ 2 * trigOne then atanSeries z
  else 863554413089 + atanSeries ((z - trigOne) * trigOne / (z + trigOne))

/-- The angle of the point (x, y) in 0.01 degree, 0 to 36,000; none at the origin. -/
def angleOf (x y : Rat) : Option Rat :=
  let ax := if x < 0 then -x else x
  let ay := if y < 0 then -y else y
  if ax = 0 && ay = 0 then none
  else
    let q : Rat := if ay ≤ ax then ay / ax else ax / ay
    let z := atanUnit (ratFloor (q * (trigOne : Rat)))
    let a := if ay ≤ ax then z else 1727108826179 - z
    let b := if x < 0 then 3454217652358 - a else a
    let c := if y < 0 then 6908435304715 - b else b
    some ((c : Rat) * 36000 / 6908435304715)

/-- Sum of the samples, oldest first, by cosine and minus sine of an angle that starts at ph and moves by step. -/
def spin (step ph : Nat) : List Int → Int × Int
  | [] => (0, 0)
  | x :: xs =>
    let r := spin step ((ph + step) % turn) xs
    (x * cosT ph + r.1, r.2 - x * sinT ph)

/-- A single bin of a DFT: samples oldest first, the first and the last with the weights given; f in turns per sample,
the angle 0 at the first (06 R170). -/
def dftBin (f w0 w1 : Rat) (xs : List Int) : Rat × Rat :=
  let step := ((ratFloor (f * (turn : Rat) + 1 / 2)).toNat) % turn
  let s := spin step 0 xs
  let a := spin step 0 (xs.take 1)
  let n := xs.length
  let z := spin step ((n - 1) * step % turn) (xs.drop (n - 1))
  (((s.1 : Rat) - (1 - w0) * (a.1 : Rat) - (1 - w1) * (z.1 : Rat)) / (trigOne : Rat),
   ((s.2 : Rat) - (1 - w0) * (a.2 : Rat) - (1 - w1) * (z.2 : Rat)) / (trigOne : Rat))

/-- The square of a bin's magnitude. -/
def binSq (b : Rat × Rat) : Rat := b.1 * b.1 + b.2 * b.2

end Sys2Proof.Machine
end

