-- ==== Sys2Proof/Machine/Calc.lean ====
section
/-!
DEFINITION. The lane arithmetic: coefficients, fast values and cycle values (06 R160 to R169, 07 R186, R187), exact
in rational numbers; a value is rounded only where it is reported or added to a carry, and the way it rounds there is
a free value (log 22).
-/

namespace Sys2Proof.Machine

/-- A value in whole units: the unit below, or the unit above by the free rounding, exact values as they are. -/
def rnd (tag : Nat) (x : Rat) : Int :=
  let f := ratFloor x
  if x = (f : Rat) then f else if Config.roundUp tag x then f + 1 else f

/-- The square root of a value in whole units, likewise. -/
def rndSqrt (tag : Nat) (x : Rat) : Nat :=
  let n := (ratFloor x).toNat
  let r := isqrt n
  if x = ((r * r : Nat) : Rat) then r else if Config.roundUp tag x then r + 1 else r

/-- The upper 32 bits of a 48-bit product (06 R162). -/
def upper32 (a b : Int) : Int := (a * b) / 65536

/-- The 24-bit range of a sample (05 R135) and the operand of the fine path (05 Table MF-6). -/
def sat24 (v : Int) : Int := clampI (-8388607) 8388607 v
def operand (fine : Bool) (v : Int) : Int := if fine then sat24 (16 * v) else v

/-- Volts per voltage code and amperes per current code at nominal scale (05 Table MF-2). -/
def uLsb : Rat := 500 / 6291456
def iLsb : Rat := (14142 : Rat) / 100 / 6291456

/-- Nominal scales K (07 R186): mV per root unit, 0.1 mA per root unit, mW per product unit; a unit is 65,536 code
squared, 16 times finer per current factor on the fine path. DEDUCED from 05 Table MF-2 (log 22). -/
def kU : Rat := 256 * uLsb * 1000
def kI (fine : Bool) : Rat := 256 * iLsb * 10000 / (if fine then 16 else 1)
def kP (fine : Bool) : Rat := 65536 * uLsb * iLsb * 1000 / (if fine then 16 else 1)

/-- A gain in Q2.30 (07 R187). -/
def q30r (n : Nat) : Rat := (n : Rat) / 1073741824

/-- Word i of the block of phase x and path in a port record (07 Table CA-3). -/
def calWord (x : Nat) (fine : Bool) (i : Nat) : Nat := 16 + 56 * x + 28 * b2n fine + 4 * i
/-- Word i of the path block of a port's profile in the band (07 Table CA-5). -/
def tempWord (b : Bank) (p : Nat) (fine : Bool) (i : Nat) : Nat :=
  52 + 512 * fld b.temp (16 + p) 1 + 64 * b.band + 28 * b2n fine + 4 * i

/-- A composed gain is rounded to nearest, with the fraction bits of 48-bit intermediates or more (07 R186). -/
def nearest (x : Rat) : Rat :=
  let d : Rat := ((2 ^ (32 + Config.gainBits) : Nat) : Rat)
  (ratFloor (x * d + 1 / 2) : Rat) / d

/-- Composed gain K c t of a scale and two coefficients (07 R186). -/
def composeGain (k : Rat) (c t : Nat) : Rat := nearest (k * q30r c * q30r t)

/-- Gain of a quantity with its nominal scale, and its offset: words 0 and 1 current, 2 and 3 P, 4 and 5 Q, 6 S
(07 R186). -/
def gainOf (b : Bank) (p x : Nat) (fine : Bool) (i : Nat) : Rat :=
  composeGain (if i == 0 then kI fine else kP fine) (fld b.port (calWord x fine i) 4) (fld b.temp (tempWord b p fine i) 4)
def offI (b : Bank) (p x : Nat) (fine : Bool) : Rat :=
  ((max 0 ((fld b.port (calWord x fine 1) 4 : Int) + fldI b.temp (tempWord b p fine 1) 4) : Int) : Rat)
def offP (b : Bank) (p x : Nat) (fine : Bool) (i : Nat) : Rat :=
  ((fldI b.port (calWord x fine i) 4 + fldI b.temp (tempWord b p fine i) 4 : Int) : Rat) / 1000
/-- Gain of a voltage stream of a group (07 Table CA-4). -/
def gainU (b : Bank) (g l : Nat) : Rat :=
  composeGain kU (fld b.group (12 + 4 * l) 4) (fld b.temp (48 + 512 * fld b.temp (40 + g) 1 + 64 * b.band) 4)

/-- The active bank of a port's lane (07 R196). -/
def bankOf (s : State) (p : Nat) : Bank := (nth s.cal.banks p {}).active

/-- The bank in force 127 ticks ago (07 R197). -/
def bankThen (s : State) (p : Nat) : Bank :=
  let bs := nth s.cal.banks p {}
  match (bs.old.filter fun o => now s < o.1 + 127).getLast? with
  | some o => o.2
  | none => bs.active

/-- What the samples of one path give: Irms squared, P, and S squared per unit of u squared, over the whole time. -/
def pathPart (b : Bank) (p x : Nat) (fine : Bool) (a : PathSum) : Rat × Rat × Rat :=
  let gi := gainOf b p x fine 0
  let gs := gainOf b p x fine 6
  (gi * gi * (a.ii - a.w * offI b p x fine), gainOf b p x fine 2 * a.ui - a.w * offP b p x fine 3, gs * gs * a.ii)

/-- Squares of Urms, Irms, S and the values P, Q of a phase from sums over d ticks, each path by its own set
(05 R139, 06 R163). -/
def valsOf (b : Bank) (p x g l : Nat) (d uu : Rat) (c f : PathSum) (q : Rat) : Vals :=
  let gu := gainU b g l
  let a := pathPart b p x false c
  let e := pathPart b p x true f
  { u2 := gu * gu * uu / d,
    i2 := max 0 ((a.1 + e.1) / d),
    p := (a.2.1 + e.2.1) / d,
    q := q,
    s2 := uu / d * ((a.2.2 + e.2.2) / d) }

/-- The supply-event table in force at a group (06 R179). -/
def evTab (s : State) (g off len : Nat) : Nat :=
  let t := (getGrp s g).tbl
  fld (if t.isEmpty then tab s 0x4302 else t) off len

/-- The mean of the first n numbers of a list, of those it holds while they are fewer, 0 of none. DESIGN CHOICE: the
spec says only that a boxcar restarts at its new length (06 R162, log 137). -/
def meanOf (n : Nat) (l : List Rat) : Rat :=
  let t := l.take n
  if t.isEmpty then 0 else t.foldl (· + ·) 0 / (t.length : Rat)

/-- The length of the result boxcar in force (06 Table MQ-1). -/
def boxLen (fine : Bool) : Nat := if fine then 182 else 17

/-- Response of an antisymmetric filter of 2 n + 1 taps at a frequency in 0.1 mHz: positive where the output lags its input by
90 degrees (06 Table MQ-1, R163). -/
def antisymResp (n : Nat) (t : Nat → Rat) (f : Rat) : Rat :=
  let a := ratFloor (f * (turn : Rat) / 80000000 + 1 / 2)
  2 * foldN n (fun k r => r + t (k + 1) * ((sinT ((k + 1) * a.toNat) : Int) : Rat) / (trigOne : Rat)) 0

/-- The Response of Table MQ-1: the Hilbert filter has magnitude 1 within 0.0005 from 40 Hz to 2.8 kHz, and either filter
lags by 90 degrees, so that Q of a lagging current is positive (06 R160, R163). The free taps of Config stand for taps
that have it; a statement whose truth rests on the response takes it as a premise (log 22). -/
def HilbertFits (t : Nat → Rat) : Prop :=
  ∀ f : Nat, 400000 ≤ f ∧ f ≤ 28000000 → 1999 / 2000 ≤ antisymResp 127 t f ∧ antisymResp 127 t f ≤ 2001 / 2000
def QuadFits (t : Nat → Rat) : Prop := ∀ f : Nat, 450000 ≤ f ∧ f ≤ 650000 → 0 < antisymResp 19 t f

/-- g, the inverse of |H39|, the magnitude of the quadrature stage at a frequency (06 R161). -/
def quadMag (f : Rat) : Rat :=
  let m := antisymResp 19 Config.quadTap f
  if m < 0 then -m else m
def quadGain (f : Rat) : Rat := if quadMag f = 0 then (Config.zeroDiv 0 : Rat) else 1 / quadMag f

/-- The frequency at which g is evaluated: FNOM before the group had one (06 R161, R166, R179). -/
def freqForG (s : State) (g : Nat) : Rat :=
  let q := getGrp s g
  if q.gFreq == 0 then (evTab s g 2 1 * 10000 : Nat) else q.gFreq

/-- The fast values of a phase (06 R163). Q takes g as it is now, outside the boxcar. -/
def fastVals (s : State) (p x : Nat) : Vals :=
  let h := getPh s p x
  let n := boxLen h.fine
  let b := bankOf s p
  let a : PathSum := { w := 1, ii := meanOf n (h.box.map fun e => e.1), ui := meanOf n (h.box.map fun e => e.2.1) }
  valsOf b p x (groupOf s p) (lineOf s p x) 1 (meanOf 17 h.boxU) (if h.fine then {} else a) (if h.fine then a else {})
    (gainOf b p x h.fine 4 * quadGain (freqForG s (groupOf s p)) * meanOf n (h.box.map fun e => e.2.2) - offP b p x h.fine 5)

/-- Fast Irms squared of a phase, 0.1 mA squared. -/
def fastI2 (s : State) (p x : Nat) : Rat := (fastVals s p x).i2
/-- Cycle Irms squared of a phase, 0 before the first cycle. -/
def cycI2 (s : State) (p x : Nat) : Rat :=
  match (getPh s p x).vals with
  | some v => v.i2
  | none => 0
/-- The highest fast Irms squared of a port. -/
def topFastI2 (s : State) (p : Nat) : Rat := max (fastI2 s p 0) (max (fastI2 s p 1) (fastI2 s p 2))

/-- A current of n units of 0.1 A, squared in 0.1 mA squared. -/
def da2 (n : Nat) : Rat := (((1000 * n) * (1000 * n) : Nat) : Rat)

/-- A squared current reported in 0.1 A. -/
def toDa (x : Rat) : Nat := rndSqrt 1 (x / 1000000)
/-- A squared current reported in 0.1 mA. -/
def toMa10 (x : Rat) : Nat := rndSqrt 2 x

end Sys2Proof.Machine
end

