-- ==== Sys2Proof/Machine/Mailbox.lean ====
section
/-!
DEFINITION. Thity mailbox service: taking a request, the checks of Table HL-16 and the response (04 R113 to R119).
-/

namespace Sys2Proof.Machine

/-- The opcodes of firmware 2.4 with the channels each card permits, as a map of bits (27 Table IX-1). -/
def opcodes : List (Nat × Nat) :=
  [(0x0010, 0xFF), (0x0011, 0xFF), (0x0101, 0xFF), (0x0102, 0x3F), (0x0201, 0xFF), (0x0301, 0xFF), (0x0302, 0xFF),
   (0x0303, 0xFF), (0x0304, 0xFF), (0x0305, 0xFF), (0x0306, 0xFF), (0x0307, 0xFF), (0x0401, 0xFF), (0x0402, 0xFF),
   (0x0403, 0xFF), (0x0404, 0xFF), (0x0405, 0xFF), (0x0501, 0xFF), (0x0502, 0xFF), (0x0503, 0xFF), (0x0504, 0xFF),
   (0x0505, 0xFF), (0x0601, 0xFF), (0x0602, 0xFF), (0x0701, 0xFF), (0x0702, 0xFF), (0x0801, 0xFF), (0x0802, 0xFF)] ++
  [(0x0901, 0xFF), (0x0902, 0xFF), (0x0903, 0xFF), (0x0904, 0xFF), (0x0905, 0xFF), (0x0A01, 0xFF), (0x0A02, 0xFF),
   (0x0A03, 0xFF), (0x0A04, 0xFF), (0x0A05, 0xFF), (0x0A06, 0xFF), (0x0B01, 0xFF), (0x0B02, 0xFF), (0x0C01, 0xFF),
   (0x0C02, 0xFF), (0x0D01, 0xFF), (0x0D02, 0x3F), (0x0E01, 0xFF), (0x0E02, 0xFF), (0x0E03, 0xFF), (0x0F01, 0xFF),
   (0x0F02, 0xFF), (0x0F03, 0xFF), (0x1001, 0x3F), (0x1002, 0x3F), (0x1003, 0x3F), (0x1004, 0x3F), (0x1005, 0x3F)] ++
  [(0x1006, 0xFF), (0x1101, 0xFF), (0x1102, 0xFF), (0x1103, 0xFF), (0x1201, 0xFF), (0x1202, 0xFF), (0x1203, 0xFF),
   (0x1204, 0xFF), (0x1301, 0xFF), (0x1302, 0xFF), (0x1303, 0xFF), (0x1401, 0x3F), (0x1402, 0xFF), (0x1501, 0x3F),
   (0x1502, 0x3F), (0x1503, 0xFF), (0x1504, 0xFF)]

/-- The first address of a channel's request and response buffers (04 R113). -/
def reqBase (c : Nat) : Nat := 0x10000 + c * 0x2000
def respBase (c : Nat) : Nat := reqBase c + 0x800

/-- Bytes 0 to 13 of a message header (04 Table HL-15). -/
def hdr14 (c flags tag op len status : Nat) : List Byte :=
  [byteOf c, byteOf flags] ++ le 2 tag ++ le 2 op ++ le 2 0 ++ le 4 len ++ le 2 status

/-- A whole message: header with HCRC, then the payload (04 R114). -/
def message (c flags tag op status : Nat) (payload : List Byte) : List Byte :=
  let h := hdr14 c flags tag op payload.length status
  h ++ le 2 (crc16 h) ++ payload

/-- The response is written, the channel is RESP_READY and MBX_RESP sets for channels 0 to 5 (04 R115). -/
def respond (c tag op status : Nat) (payload : List Byte) (s : State) : State :=
  let s1 := fwWrite .ap .resp (respBase c) (fun s => { s with link := { s.link with
    mem := memWriteBytes s.link.mem (respBase c) (message c 0 tag op status payload) } }) s
  let s2 := setChan c .respReady s1
  if c < 6 then irqSet c s2 else s2

/-- The header fields of the request in a channel's buffer. -/
def reqField (s : State) (c off len : Nat) : Nat := rdLE (memReadBytes s.link.mem (reqBase c + off) len)
def reqTag (s : State) (c : Nat) : Nat := reqField s c 2 2
def reqOp (s : State) (c : Nat) : Nat := reqField s c 4 2
def reqLen (s : State) (c : Nat) : Nat := reqField s c 8 4
def reqPayload (s : State) (c : Nat) : List Byte := memReadBytes s.link.mem (reqBase c + 16) (reqLen s c)

/-- The response to the request in the buffer, with its tag and opcode. -/
def answer (c status : Nat) (payload : List Byte) (s : State) : State :=
  respond c (reqTag s c) (reqOp s c) status payload s

def chan (s : State) (c : Nat) : Chan := nth s.link.chans c {}

/-- The channels with a pending request. -/
def pendingChans (s : State) : List Nat := (List.range 8).filter fun c => (chan s c).st == .pending

/-- The channel that AP serves next (01 R34): of those that have waited 100 ms the first to arrive, else the lowest. -/
def nextServed (s : State) : Option Nat :=
  let ps := pendingChans s
  match ps.filter fun c => now s ≥ (chan s c).since + 800 with
  | [] => ps.head?
  | c :: cs => some (cs.foldl (fun b d => if (chan s d).since < (chan s b).since then d else b) c)

/-- AP runs, does not wait for a warm restart, does not quiesce for an activation, and reaches the buffers. -/
def apServing (s : State) : Bool :=
  imgActive s 1 && s.clk.apRun && s.clk.busRun && !s.boot.apDue && !(s.upd.quiesce && s.upd.image == 1)

/-- AP takes the request of channel c now. -/
def canServe (s : State) (c : Nat) : Bool := apServing s && nextServed s == some c

/-- What a card's meaning gives: status and payload, or no response yet, and the state after. -/
abbrev Served := Option (Nat × List Byte) × State

/-- A response of a card. -/
def ok (status : Nat) (payload : List Byte) (s : State) : Served := (some (status, payload), s)
/-- A refusal of a card: LENGTH 0 (log 31). -/
def no (status : Nat) (s : State) : Served := (some (status, []), s)

/-- The checks 1 to 5 of Table HL-16: the status of the first that fails. -/
def headerFault (s : State) (c : Nat) : Option Nat :=
  if crc16 (memReadBytes s.link.mem (reqBase c) 14) != reqField s c 14 2 then some 0x0101
  else if reqField s c 0 1 != c then some 0x0105
  else if reqTag s c == 0 || reqField s c 1 1 != 0 then some 0x0106
  else if reqLen s c > 2032 then some 0x0104
  else if (opcodes.find? fun e => e.1 == reqOp s c).isNone then some 0x0102
  else none

/-- The response of a card, or the channel IN_SERVICE while the response is outstanding. -/
def finish (c : Nat) (r : Served) : State :=
  match r.1 with
  | some (st, pl) => answer c st pl r.2
  | none => setChan c .inService r.2

/-- Service of a request by the command with opcode op: the checks of Table HL-16, then the card's meaning. A request
with another valid opcode is left to its own command. -/
def serve (op : Nat) (lenOk : Nat → Bool) (body : List Byte → State → Served) (c : Nat) (s : State) : State :=
  if canServe s c then
    match headerFault s c with
    | some st => answer c st [] s
    | none =>
      if reqOp s c != op then s
      else if !((opcodes.find? fun e => e.1 == op).any fun e => e.2.testBit c) then answer c 0x0103 [] s
      else if !lenOk (reqLen s c) then answer c 0x0104 [] s
      else finish c (body (reqPayload s c) s)
  else s

/-- Length checks. -/
def len (n : Nat) : Nat → Bool := fun k => k == n

end Sys2Proof.Machine
end

