-- ==== Sys2Proof/Machine/LoadSwitch.lean ====
section
/-!
DEFINITION. Load-switch channels (22).
-/

namespace Sys2Proof.Machine

def getLs (s : State) (c : Nat) : LsCh := nth s.ls.chans c {}
def updLs (c : Nat) (f : LsCh → LsCh) (s : State) : State :=
  { s with ls := { s.ls with chans := s.ls.chans.modify c f } }

/-- Fields of the role table (22 Table LS-2). -/
def lsRole (s : State) (c : Nat) : Nat := tf s 0x1201 (8 * c) 1
def lsFlag (s : State) (c i : Nat) : Bool := (tf s 0x1201 (8 * c + 1) 1).testBit i
def lsMa (s : State) (c : Nat) : Nat := tf s 0x1201 (8 * c + 2) 2
def lsInrush (s : State) (c : Nat) : Nat := tf s 0x1201 (8 * c + 4) 1
def lsInrushMs (s : State) (c : Nat) : Nat := tf s 0x1201 (8 * c + 5) 1
def lsLampPct (s : State) (c : Nat) : Nat := tf s 0x1201 (8 * c + 6) 1

/-- The channel that commands a half of a pair (22 R494). -/
def lsLead (s : State) (c : Nat) : Nat := if c % 2 == 1 && lsFlag s (c - 1) 0 then c - 1 else c
/-- A channel with its other half. -/
def lsBoth (s : State) (c : Nat) : List Nat :=
  let l := lsLead s c
  if lsFlag s l 0 && l % 2 == 0 then [l, l + 1] else [l]

def lsFenced (s : State) (c : Nat) : Bool := (lsBoth s c).any fun k => fencedB s 6 k

/-- A channel counts as on: commanded on, neither latched off nor fenced (01 R38, 22 R500). -/
def lsIsOn (s : State) (c : Nat) : Bool := (getLs s c).cmd && !(getLs s c).latched && !lsFenced s c

/-- DECLARED_ON: the declared currents of the channels on (01 R38). -/
def declaredOn (s : State) : Nat :=
  (List.range 16).foldl (fun a c => if lsIsOn s c then a + lsMa s c else a) 0

/-- The declared sum with channel c on too. -/
def declaredWith (s : State) (c : Nat) : Nat :=
  declaredOn s + (if lsIsOn s c then 0 else lsMa s c)

/-- VAUX of the last tick, mV. -/
def vauxNow (s : State) : Nat := nth s.ls.vaux 0 0
/-- Mean VAUX of the previous period of 16 ticks, mV. -/
def vauxMean (s : State) : Nat :=
  let l := s.ls.vaux.take 16
  if l.isEmpty then 0 else l.foldl (· + ·) 0 / l.length

/-- The duty that the role gives a channel, 0.1 %, and whether the lamp cap holds it (22 R497, R498). -/
def lsDuty (s : State) (c : Nat) : Nat × Bool :=
  let k := getLs s c
  let lamp := if k.level == 0 then lsLampPct s c else k.level
  match lsRole s c with
  | 1 =>
    let v := vauxMean s
    if v == 0 then (1000, true)
    else
      let d := (roundDiv (lamp * 10 * 576 * 1000000 : Nat) (v * v)).toNat
      if d ≥ 1000 then (1000, decide (1000 < d)) else (d, false)
  | 4 => (10 * k.level, false)
  | _ => (if k.level == 0 then 1000 else 10 * k.level, false)

/-- LS_EVENT; events 1, 4 and 6 go to the event recorder too (22 R508). -/
def lsEvent (c ev det value : Nat) (s : State) : State :=
  let s1 := notify 0x1280 ([byteOf c, byteOf ev] ++ le 2 det ++ le 8 (now s) ++ le 4 value) s
  if ev == 1 || ev == 4 || ev == 6 then
    evrec 0x1201 5 0xFF ([byteOf ev] ++ le 2 det ++ le 4 value) s1
  else s1

/-- A channel is commanded on or off with a level; both halves of a pair follow (22 R494). -/
def lsCommand (c : Nat) (on : Bool) (level : Nat) (s : State) : State :=
  (lsBoth s c).foldl (fun s k => updLs k (fun q => { q with cmd := on, level := level }) s) s

/-- The reset-hold latch is written (22 R505). -/
def lsHoldLatch (s : State) : State :=
  { s with ls := { s.ls with
      latch := bitsOf ((List.range 16).map fun c => lsFlag s (lsLead s c) 1 && s.safety.word.testBit 14) } }

/-- One channel at a tick boundary: the command takes effect, at the duty of its role, and an inrush window opens at a
switch-on (22 R497, R499, log 146). -/
def lsChanTick (s : State) (c : Nat) (q : LsCh) : LsCh :=
  let want := q.cmd && !q.latched && !q.parked && !lsFenced s c && !s.ls.hold && !s.ls.resume.contains c
  let d := if q.held && !rdy s rLS then (1000, false) else lsDuty s (lsLead s c)
  if want then
    if q.out then q
    else { q with
      out := true
      duty := d.1
      capped := d.2
      win := if lsInrushMs s (lsLead s c) == 0 then none else some (now s + 8 * lsInrushMs s (lsLead s c)) }
  else { q with out := false, win := none, fold := none }

/-- The sense reading of a channel: a latched or fenced one reads full scale (22 R502). -/
def lsSense (s : State) (c code : Nat) : Nat := if (getLs s c).latched || lsFenced s c then 0xFFF else code

/-- The PWM period of a channel, that of its pair, is at its start plus so many ticks (22 R494, R497). -/
def lsPhase (s : State) (c : Nat) : Nat := (now s + 16 - lsLead s c % 16) % 16

/-- The level of a channel's ball as a tick begins: the high time opens each period (22 R497). -/
def lsHigh (s : State) (c : Nat) (q : LsCh) : Bool := q.out && decide (1000 * lsPhase s c < 16 * q.duty)

/-- SENSE_OUT: 0.5 V/A of the channel chosen, at most 2.05 V for a healthy one, at least 3.0 V for a faulted one (22 R502). -/
def senseOut (s : State) : Nat :=
  let c := s.ls.sel
  if 16 ≤ c then 0
  else if (getLs s c).latched || lsFenced s c then 3000 + Config.senseFault (now s)
  else min 2050 ((getLs s c).sense / 2)

/-- The load-switch work of one tick, with the sense codes of the channels sampled in the tick before. Without the clock of
the bus domain the channels stay as they are (02 Table TK-2, 24 R526). -/
def lsTick (i : TickIn) (s : State) : State :=
  let first := if now s % 2 == 1 then 0 else 8
  let s1 := { s with ls := { s.ls with
    vaux := ((if i.vaux.isEmpty then vauxNow s else (i.vaux.map Config.vauxMv).foldl (· + ·) 0 / i.vaux.length)
      :: s.ls.vaux).take 16 } }
  let s2 := foldN 8 (fun m s => match i.sense[m]? with
    | some code => updLs (first + m) (fun q => { q with sense := lsSense s (first + m) code }) s
    | none => s) s1
  let s3 := if busRun s then foldN 16 (fun c s => updLs c (fun q => let k := lsChanTick s c q
                                                                  { k with high := lsHigh s c k }) s) s2 else s2
  { s3 with ls := { s3.ls with senseOut := senseOut s3 } }

/-- LS_SET (22 Table LS-7). -/
def lsSetBody (pl : List Byte) (s : State) : Served :=
  let c := fld pl 0 1
  let on := fld pl 1 1
  let level := fld pl 2 1
  if !rdy s rLS then no 0x12F0 s
  else if c > 15 || on > 1 || level > 100 then no 0x12F1 s
  else if lsRole s c == 0 || lsRole s c == 4 || lsLead s c != c then no 0x1211 s
  else if lsFenced s c then no 0x12F4 s
  else if on == 1 && (getLs s c).latched then no 0x1212 s
  else if on == 1 && declaredWith s c > 4000 then no 0x1210 s
  else
    let s1 := lsCommand c (on == 1) level s
    ok 0x1200 ([byteOf c, byteOf on] ++ le 2 (getLs s1 c).duty ++ le 2 (declaredOn s1) ++ zeros 2) s1

def execLsSet (ch : Nat) (s : State) : Out := .next (serve 0x1201 (len 4) lsSetBody ch s)

/-- OUT of LS_STATUS. -/
def lsOut (s : State) (c : Nat) : Nat :=
  let q := getLs s c
  if lsFenced s c then 4 else if q.latched then 3 else if s.ls.hold && q.cmd then 2 else b2n q.out

/-- One entry of LS_STATUS. -/
def lsEntry (s : State) (c : Nat) : List Byte :=
  let q := getLs s c
  [byteOf c, byteOf (lsRole s c), byteOf (b2n q.cmd), byteOf (lsOut s c)] ++ le 2 q.duty ++ le 2 q.sense ++
  [byteOf (bitsOf [q.openLoad, q.win.isSome, q.fold.isSome, q.held, q.capped]), byteOf q.latches, 0, 0]

/-- LS_STATUS (22 Table LS-8). -/
def lsStatusBody (_ : List Byte) (s : State) : Served :=
  if !rdy s rLS then no 0x12F0 s
  else ok 0x1200 (le 2 (vauxNow s) ++ le 2 ((s.ls.chans.map LsCh.sense).foldl (· + ·) 0) ++ le 2 (declaredOn s) ++
    [byteOf s.ls.sel, byteOf (b2n s.ls.hold)] ++ ((List.range 16).flatMap (lsEntry s))) s

def execLsStatus (ch : Nat) (s : State) : Out := .next (serve 0x1202 (len 0) lsStatusBody ch s)

/-- LS_CLEAR (22 Table LS-9): the latch clears on both halves and the channel stays off until commanded on (R500). -/
def lsClearBody (pl : List Byte) (s : State) : Served :=
  let c := fld pl 0 1
  if c > 15 then no 0x12F1 s
  else if lsFenced s c then no 0x12F4 s
  else if !(getLs s c).latched then no 0x1213 s
  else ok 0x1200 [byteOf c, 0, 0, 0]
    ((lsBoth s c).foldl (fun s k => updLs k (fun q => { q with latched := false, cmd := false, sense := 0 }) s) s)

def execLsClear (ch : Nat) (s : State) : Out := .next (serve 0x1203 (len 4) lsClearBody ch s)

/-- LS_SENSE_SELECT (22 Table LS-10). -/
def lsSenseSelectBody (pl : List Byte) (s : State) : Served :=
  let c := fld pl 0 1
  if c > 15 && c != 0xFF then no 0x12F1 s
  else ok 0x1200 [byteOf c, byteOf s.ls.sel, 0, 0] { s with ls := { s.ls with sel := c } }

def execLsSenseSelect (ch : Nat) (s : State) : Out := .next (serve 0x1204 (len 4) lsSenseSelectBody ch s)

/-- LS_LATCH (22 R500): the limiter (cause 1) only outside an inrush window, the temperature sensor (cause 2) at
once; a channel off or latched already does not latch. -/
def lsLatch (c cause ma : Nat) (s : State) : State :=
  let q := getLs s c
  if c < 16 && q.out && !q.latched && (cause == 2 || (cause == 1 && q.win.isNone)) then
    let s1 := (lsBoth s c).foldl (fun s k => updLs k (fun q => { q with
      latched := true, out := false, win := none, fold := none, sense := 0xFFF, latches := satAdd 0xFF q.latches 1 }) s) s
    lsEvent (lsLead s c) 1 cause ma s1
  else s

def execLsLatch (c cause ma : Nat) (s : State) : Out := .next (lsLatch c cause ma s)

/-- The allowance of a channel, mA (22 R501). -/
def lsAllow (s : State) (c : Nat) : Nat := if (getLs s c).win.isSome then 100 * lsInrush s (lsLead s c) else lsMa s c

/-- The channel that folds back for the currents of the output stages, with its limit (22 R501). -/
def foldChoice (s : State) (ma : List Nat) : Option (Nat × Nat) :=
  let free := (List.range 16).filter fun c => (getLs s c).out && (getLs s c).fold.isNone
  let exc := fun c => nth ma c 0 - lsAllow s c
  let best := free.foldl (fun b c => match b with
    | none => if exc c > 0 then some c else none
    | some d => if exc c ≥ exc d && exc c > 0 then some c else some d) none
  match best with
  | some c => some (c, lsAllow s c)
  | none =>
    match (free.filter fun c => (getLs s c).win.isSome).getLast? with
    | some c => some (c, max (lsMa s c) (4000 - (ma.foldl (· + ·) 0 - nth ma c 0)))
    | none => none

/-- GLOBAL_FOLDBACK (22 R501): a sum above 4.0 A folds back one channel. -/
def globalFoldback (ma : List Nat) (s : State) : State :=
  if ma.foldl (· + ·) 0 > 4000 then
    match foldChoice s ma with
    | some (c, lim) => lsEvent c 4 0 (nth ma c 0) (updLs c (fun q => { q with fold := some lim }) s)
    | none => s
  else s

def execGlobalFoldback (ma : List Nat) (s : State) : Out := .next (globalFoldback ma s)

/-- FOLDBACK_END (22 R501): every fold-back ends once the sum has stayed below 3.8 A. -/
def foldbackEnd (sum : Nat) (s : State) : State :=
  if sum < 3800 then
    foldN 16 (fun c s => if (getLs s c).fold.isSome then
      lsEvent c 5 0 0 (updLs c (fun q => { q with fold := none }) s) else s) s
  else s

def execFoldbackEnd (sum : Nat) (s : State) : Out := .next (foldbackEnd sum s)

/-- INRUSH_WINDOW_END (22 R499). -/
def inrushEnd (c : Nat) (s : State) : State :=
  updLs c (fun q => match q.win with
    | some e => if e ≤ now s then { q with win := none } else q
    | none => q) s

def execInrushWindowEnd (c : Nat) (s : State) : Out := .next (inrushEnd c s)

/-- LS_PERIOD_START (22 R497, R498): at the start of a channel's period its duty comes into force, in both halves of a
pair (R494); a channel held through a reset stays at 100 % until LS_RDY (Table LS-3). -/
def lsPeriodStart (c : Nat) (s : State) : State :=
  if c < 16 && lsLead s c == c && lsPhase s c == 0 && !((getLs s c).held && !rdy s rLS) then
    let d := lsDuty s c
    (lsBoth s c).foldl (fun s k => updLs k (fun q => { q with
      duty := if q.out then d.1 else 0, capped := q.out && d.2 }) s) s
  else s

def execLsPeriodStart (c : Nat) (s : State) : Out := .next (gated (busRun s) (lsPeriodStart c) s)

/-- OPEN_LOAD_CHECK (22 R503): three readings in a row against the flag change it. -/
def openLoadCheck (c : Nat) (above : Bool) (s : State) : State :=
  let q := getLs s c
  if c < 16 && lsFlag s c 2 && !q.out && !q.latched then
    if above == q.openLoad then updLs c (fun q => { q with openN := 0 }) s
    else if q.openN + 1 ≥ 3 then
      lsEvent c (if above then 2 else 3) 0 0 (updLs c (fun q => { q with openN := 0, openLoad := above }) s)
    else updLs c (fun q => { q with openN := q.openN + 1 }) s
  else s

def execOpenLoadCheck (c : Nat) (above : Bool) (s : State) : Out := .next (gated (busRun s) (openLoadCheck c above) s)

/-- VAUX_DIP (22 R504): every output off, windows closed, hold-down entered; commands are remembered. -/
def vauxDip (mv : Nat) (s : State) : State :=
  if s.ls.hold then s
  else lsEvent 0xFF 6 0 mv { s with ls := { s.ls with
    hold := true, resume := []
    chans := s.ls.chans.map fun q => { q with out := false, win := none, fold := none } } }

def execVauxDip (mv : Nat) (s : State) : Out := .next (vauxDip mv s)

/-- HOLD_DOWN_END (22 R504): hold-down ends and the channels commanded on wait to resume in rising order. -/
def holdDownEnd (mv : Nat) (s : State) : State :=
  if s.ls.hold then
    lsEvent 0xFF 7 0 mv { s with ls := { s.ls with
      hold := false, resumeAt := now s, resume := (List.range 16).filter fun c => (getLs s c).cmd } }
  else s

def execHoldDownEnd (mv : Nat) (s : State) : Out := .next (holdDownEnd mv s)

/-- LS_RESUME (22 R504): the lowest waiting channel resumes with a new inrush window, one every 1 ms. -/
def lsResume (s : State) : State :=
  match s.ls.resume with
  | [] => s
  | c :: cs =>
    if now s < s.ls.resumeAt || s.ls.hold then s
    else
      let s1 := { s with ls := { s.ls with resume := cs, resumeAt := now s + 8 } }
      updLs c (lsChanTick s1 c) s1

def execLsResume (s : State) : Out := .next (lsResume s)

/-- The condition of LS_RDY: the role table is loaded and every channel has passed its test or been fenced (22 R506, 03
Table PU-16). -/
def lsReady (s : State) : Bool :=
  s.boot.phase != .reset && s.clk.busRun && tabLoaded s 0x1201 && s.ls.chans.all fun q => q.tested || q.held

/-- LS_RDY sets, and then held channels are taken as commanded on and the others as commanded off (22 Table LS-3). -/
def lsRise (s : State) : State :=
  if lsReady s && !rdy s rLS then
    setReady rLS true { s with ls := { s.ls with chans := s.ls.chans.map fun q =>
      { q with cmd := q.held, level := 0, out := q.held && q.out, held := q.held } } }
  else s

/-- LS_STARTUP_TEST (22 R506): a channel passes or is fenced. A fence placed on a fault lifts on a pass (25 R543). -/
def lsStartupTest (c : Nat) (pass : Bool) (s : State) : State :=
  if c < 16 && !(getLs s c).tested then
    let s1 := updLs c (fun q => { q with tested := true }) s
    let s2 := if pass then (if fencedB s1 6 c && !requestedB s1 6 c then unfenceNow 6 c s1 else s1)
              else updLs c (fun q => { q with sense := 0xFFF }) (fenceNow 6 c false 8 0 s1)
    lsRise s2
  else s

def execLsStartupTest (c : Nat) (pass : Bool) (s : State) : Out := .next (gated (busRun s) (lsStartupTest c pass) s)

end Sys2Proof.Machine
end

