-- ==== Sys2Proof/Machine/PortOps.lean ====
section
/-!
DEFINITION. What happens to one port: vetoes, permits, switches, safe stop and fences (09, 11, 12).
-/

namespace Sys2Proof.Machine

/-- A sealed switch of the word in force is closed (12 Table SF-8). -/
def sw (s : State) (i : Nat) : Bool := s.safety.word.testBit i

/-- A switch of the port is commanded on. -/
def anyOn (q : Port) : Bool := q.ct.chs || q.ct.cls
def portOn (s : State) (p : Nat) : Bool := anyOn (getPort s p)

/-- The safety inputs as Keystone judges them (12 R293, R294, Table SF-8). -/
def inDemand (i : SafeIn) : Bool := i.a.on || i.b.on || i.dis
def sinDemand (s : State) : Bool := !sw s 4 && inDemand s.safety.sin
def ssrDemand (s : State) : Bool := !sw s 5 && inDemand s.safety.ssr

/-- Keystone vetoes conduction on the port (01 Table AR-4, 05 R149, 06 R177, 07 R191, 09 R236, 11 R273, R286,
12 R295, R296). -/
def vetoed (s : State) (p : Nat) : Bool :=
  let q := getPort s p
  (s.safety.sin.veto && !sw s 4) || (s.safety.ssr.veto && !sw s 5) || (getGrp s (groupOf s p)).veto ||
  q.rc.trip != 0 || q.ct.vFault || q.ct.vVaux || q.ct.vPp || q.ct.vE || q.ct.vCal || q.ct.vOver

/-- CLOSED_MAP: the ports with a switch commanded on (12 Table SF-10). -/
def closedMap (s : State) : Nat := bitsOf (s.ports.map anyOn)

/-- Bytes 0 to 27 of a Keystone record (12 Table SF-10). -/
def ksBytes (k : KsRecord) : List Byte := le 8 k.seq ++ le 8 k.tick ++ le 4 k.map ++ le 2 k.flags ++ zeros 6

/-- A copy of the Keystone record is valid (12 R311). -/
def ksValid (k : KsRecord) : Bool := k.crc == crc32 (ksBytes k)

/-- The newest Keystone record: the valid copy with the higher SEQ (12 R311). -/
def ksNewest (s : State) : Option KsRecord :=
  (s.safety.recs.map fun r => r.filter ksValid).foldl (fun b r => match b, r with
    | some x, some y => if x.seq < y.seq then some y else some x
    | none, y => y
    | x, none => x) none

/-- SEQ of the newest Keystone record. -/
def ksSeq (s : State) : Nat := match ksNewest s with
  | some k => k.seq
  | none => 0

/-- The ports of an uncontrolled stop whose entry is not yet in MRAM (12 R312). -/
def ksOwed (s : State) : Nat := if s.safety.waitEntry.any fun t => !cairnDone t s then s.safety.uncontrolled else 0

/-- Keystone's record is written over the older copy (12 R311). Until the entry of an uncontrolled stop is in MRAM its
ports stay in the map (R312). -/
def writeKsRecord (map : Nat) (s : State) : State :=
  let k0 : KsRecord :=
    { seq := ksSeq s + 1, tick := now s, map := map ||| ksOwed s, flags := bitsOf [s.eg.pfailTick.isSome, sinDemand s, ssrDemand s] }
  let k := { k0 with crc := crc32 (ksBytes k0) }
  { s with safety := { s.safety with recs := s.safety.recs.set ((ksSeq s + 1) % 2) (some k) } }

/-- Both switches are commanded in one Keystone clock cycle; a change of the closed map is recorded (11 R281,
12 R311). A new version of table 0x4701 applies from the next time both are commanded off (11 R270). A pulse ends
unjudged (11 Table RC-8). -/
def setSwitches (p : Nat) (chs cls : Bool) (s : State) : State :=
  let q := getPort s p
  if q.ct.chs == chs && q.ct.cls == cls then s
  else
    let tbl := if chs || cls then (if q.ct.tbl.isEmpty then tab s 0x4701 else q.ct.tbl) else []
    let s1 := updPort p (fun q => { q with
      ct := { q.ct with chs := chs, cls := cls, cmdTick := now s, tbl := tbl, pulse := 0, pulseDue := false } }) s
    if anyOn q == (chs || cls) then s1 else writeKsRecord (closedMap s1) s1

/-- SAFETY_EVENT (12 R315). -/
def safetyEvent (port ev det value : Nat) (s : State) : State :=
  notify 0x0880 ([byteOf port, byteOf ev] ++ le 2 det ++ le 8 (now s) ++ le 4 value) s

/-- CP_EVENT (09 R246). -/
def cpEvent (p ev old new det : Nat) (s : State) : State :=
  notify 0x0580 ([byteOf p, byteOf ev, byteOf old, byteOf new] ++ le 8 (now s) ++ le 4 det) s

/-- RC_EVENT with its event-recorder entry and LAST_FAULT (11 R286, R288). -/
def rcEvent (p code det value : Nat) (s : State) : State :=
  let s1 := updPort p (fun q => { q with ct := { q.ct with fault := code } }) s
  evrec 0x0701 1 p ([byteOf code, 0] ++ le 2 det ++ le 4 value)
    (notify 0x0780 ([byteOf p, byteOf code] ++ le 2 det ++ le 8 (now s) ++ le 4 value) s1)

/-- The connector table (09 Table VH-7). -/
def isSocket (s : State) (p : Nat) : Bool := tf s 0x4502 (8 * p) 1 == 0
def lockCh (s : State) (p : Nat) : Nat := tf s 0x4502 (8 * p + 1) 1
def lockAtPlug (s : State) (p : Nat) : Bool := tf s 0x0501 (4 * p + 1) 1 == 1
def hlcAllowed (s : State) (p : Nat) : Bool := tf s 0x0501 (4 * p) 1 == 1

/-- A release of the lock is requested (09 R239). -/
def lockRelease (p : Nat) (s : State) : State :=
  if isSocket s p then updPort p (fun q => { q with hs := { q.hs with relWait := true } }) s else s

/-- A release that also ends FAULT: on entry to state A or by PORT_LOCK (09 R240). -/
def lockFree (p : Nat) (s : State) : State :=
  if isSocket s p then updPort p (fun q => { q with hs := { q.hs with relWait := true, relClear := true } }) s else s

/-- All phases of a port count as in use until it has again held a non-zero allocation for SETTLE_S (10 R250). -/
def allPhases (n : Nat) (q : Alloc) : Alloc := { q with all := true, nz := if q.alloc == 0 then none else some n }

/-- A session permit is granted (14 R346, 10 R250). -/
def grantPermit (p : Nat) (s : State) : State :=
  updPort p (fun q => { q with hs := { q.hs with permit := true }, li := allPhases (now s) q.li }) s

/-- The session permit of a port is withdrawn with the cause of the session's end (09 R239, 12 R302, 14 R352). -/
def withdrawPermit (p cause : Nat) (s : State) : State :=
  if (getPort s p).hs.permit then
    let s1 := updPort p (fun q => { q with
      hs := { q.hs with permit := false }
      se := if q.se.stage == 2 then { q.se with stage := 3, cause := cause } else q.se }) s
    if lockAtPlug s p then s1 else lockRelease p s1
  else s

/-- A cause starts at energy removal (12 Table SF-3). -/
def removalCause (s : State) (cause : Nat) : Bool := decide (0x10 ≤ cause) || (cause == 0x0C && sw s 2)

/-- Energy removal: both switches low in this tick, STEADY_HIGH commanded (12 R302, 11 R273). -/
def removeEnergy (p cause result : Nat) (s : State) : State :=
  let i := toDa (topFastI2 s p)
  let s1 := setSwitches p false false s
  let s2 := updPort p (fun q => { q with
    ss := { q.ss with stage := 2, cause := cause, result := result, override := some 0 }
    ct := { q.ct with stage := 6, step := 0, pulse := 0, pulseDue := false, opening := none } }) s1
  safetyEvent p 2 result i s2

/-- A fence that the cause calls for is kept for the end of the stop (12 R302, 25 R541). -/
def keepFence (p : Nat) (f : Option (Nat × Nat × Bool)) (s : State) : State :=
  match f with
  | none => s
  | some _ => updPort p (fun q => { q with ss := { q.ss with fence := match q.ss.fence with
      | some (c, d, false) => some (c, d, false)
      | _ => f } }) s

/-- The closing sequence ends without a fault: both switches off (11 R287). -/
def endSequence (p : Nat) (s : State) : State :=
  let q := getPort s p
  if 1 ≤ q.ct.stage ∧ q.ct.stage ≤ 3 then
    updPort p (fun q => { q with
      ct := { q.ct with stage := if q.ct.stage == 3 then 6 else 0, step := 0, stepN := 0, stepBad := false }
      rc := { q.rc with win := [], winBad := false } }) (setSwitches p false false s)
  else s

/-- A port that is not conducting is fenced at once; its closing sequence and its permit end (25 R541, R543). -/
def fencePort (p cause : Nat) (req : Bool) (cls det : Nat) (s : State) : State :=
  withdrawPermit p cause (fenceNow 0 p req cls det (endSequence p s))
def fenceIdle (p cause : Nat) (f : Option (Nat × Nat × Bool)) (s : State) : State :=
  match f with
  | none => s
  | some (c, d, r) => fencePort p cause r c d s

/-- A safe stop with a cause, or what the cause means for a stop already running (12 R300, Table SF-5). A ramp-down cause
in the tick of the removal is recorded as an event (11 Table RC-8). Where no switch is closed the closing sequence ends. -/
def startStop (p cause : Nat) (f : Option (Nat × Nat × Bool)) (s : State) : State :=
  let q := getPort s p
  match q.ss.stage with
  | 1 =>
    if removalCause s cause then keepFence p f (removeEnergy p cause 5 s)
    else keepFence p f (safetyEvent p 1 cause (toDa q.ss.i0) s)
  | 2 =>
    keepFence p f (if q.ct.cmdTick == now s && !removalCause s cause then safetyEvent p 1 cause (toDa q.ss.i0) s else s)
  | _ =>
    if anyOn q then
      let i0 := topFastI2 s p
      let s1 := updPort p (fun q => { q with
        ss := { q.ss with
          stage := 1, cause := cause, result := 0, start := now s, i0 := i0, low := 0, overN := 0, ticks := 0
          tbl := tab s 0x4801, fence := f, override := some 3 }
        li := { q.li with kept := true } }) s
      if removalCause s cause then removeEnergy p cause 4 s1
      else safetyEvent p 1 cause (toDa i0) s1
    else fenceIdle p cause f (endSequence p s)

/-- The end of the stop of a port: safe, or with a weld or mirror fault (12 R302). -/
def endStop (p : Nat) (safe : Bool) (s : State) : State :=
  let f := (getPort s p).ss.fence
  let s1 := updPort p (fun q => { q with
    ss := { q.ss with stage := if safe then 3 else 0, override := none, fence := none }
    li := { q.li with kept := false, forced := false }
    ct := { q.ct with stage := if q.ct.stage == 6 then 0 else q.ct.stage } }) s
  let s2 := withdrawPermit p (getPort s p).ss.cause s1
  let s3 := fenceIdle p (getPort s p).ss.cause f s2
  if safe then safetyEvent p 3 0 0 s3 else s3

/-- Fields of the residual and contactor table in force at the port (11 Table RC-2). -/
def rcTab (s : State) (p off len : Nat) : Nat :=
  let q := getPort s p
  fld (if q.ct.tbl.isEmpty then tab s 0x4701 else q.ct.tbl) off len

/-- A port is safe (12 R297). -/
def portSafe (s : State) (p : Nat) : Bool :=
  let q := getPort s p
  !anyOn q && decide (q.ct.cmdTick + 8 * rcTab s p 58 2 ≤ now s) && q.ct.cfb == 4 &&
  decide (rcTab s p 71 1 ≤ q.ct.cfbN) && !q.ct.welded && !q.ct.mirror && !q.ct.cfbFault

end Sys2Proof.Machine
end

