-- ==== Sys2Proof/Machine/Handshake.lean ====
section
/-!
DEFINITION. The vehicle handshake: pilot generator, state table, proximity pilot, socket lock, and the commands and
events of the ports (09). Times inside a tick are in units of 1/16,384 us: a tick has 2,048,000 and an XREF cycle 500.
-/

namespace Sys2Proof.Machine

/-- The control-pilot state table in force at the port (09 Table VH-5). -/
def cpTab (s : State) (p off len : Nat) : Nat :=
  let q := getPort s p
  fld (if q.hs.tbl.isEmpty then tab s 0x4501 else q.hs.tbl) off len

/-- The duty code for a coded current in 0.1 A, 0 for mode ZERO (09 R225). -/
def dutyOf (da : Nat) : Nat :=
  if da < 60 then 0 else if da < 528 then min 850 (da * 10 / 6) else min 960 (da * 4 / 10 + 640)

/-- The decoded current of a duty code, 0.1 mA (09 R225). -/
def decoded (d : Nat) : Nat := if d ≤ 850 then 600 * d else 2500 * (d - 640)

/-- A CP_WAKE is in force at the start of this tick (09 R244). -/
def inWake (s : State) (p : Nat) : Bool :=
  match (getPort s p).hs.wake with
  | some (a, b) => decide (a ≤ now s ∧ now s < b)
  | none => false

/-- The mode and duty of Table VH-3 for a port (09 R222). -/
def selectMode (s : State) (p : Nat) : Nat × Nat :=
  let q := getPort s p
  if !rdy s p then (0, 0)
  else if !q.hs.avail || inWake s p then (4, 0)
  else match q.ss.override with
    | some m => if m == 3 then (3, cpTab s p 34 2) else (0, 0)
    | none =>
      if !q.hs.permit then (0, 0)
      else if q.hs.cpMode == 2 then (0, 0)
      else if q.hs.cpMode == 1 then (2, 50)
      else if 60 ≤ q.li.force then (1, dutyOf q.li.force)
      else (3, cpTab s p 34 2)

/-- High time of a duty code, in time units (09 R223): the nearest whole number of cycles. -/
def highTime (d : Nat) : Nat := (d * 32768 + 500) / 1000 * 500

/-- Time of the rising edge of port p in the tick n that holds it (09 R223). -/
def edgeTime (n p : Nat) : Nat := n * 2048000 + (p * 4096 / 3) % 4096 * 500
/-- The tick n holds a rising edge of port p (09 R223). -/
def edgeTick (n p : Nat) : Bool := n % 8 == p / 3
/-- The first tick from n on that holds a rising edge of port p. -/
def nextEdge (n p : Nat) : Nat := n + (p / 3 + 8 - n % 8) % 8

/-- Time of slot position j of port p in tick n (05 R152, R153). -/
def slotTime (n p j : Nat) : Nat :=
  let slot := if p < 20 then 5 * j + p % 5 else 4 * j + (p - 20)
  n * 2048000 + (4 * slot + 1) * 4096

/-- A CP conversion at a time under a drive: 0 not used, 1 high sample, 2 low sample (09 R226). -/
def sampleKind (d : Drive) (settleUs t : Nat) : Nat :=
  let st := settleUs * 16384
  match d.mode with
  | 0 => if d.edge + st ≤ t then 1 else 0
  | 4 => if d.edge + st ≤ t then 2 else 0
  | _ =>
    let x := t - d.start
    let h := highTime d.duty
    if x < h then (if st ≤ x ∧ x + 16384 ≤ h then 1 else 0)
    else if h + st ≤ x ∧ x + 16384 ≤ 16384000 then 2 else 0

/-- One CP conversion added to the sums (high sum, high count, low sum, low count) of its period. -/
def addSample (kind code : Nat) (a : Nat × Nat × Nat × Nat) : Nat × Nat × Nat × Nat :=
  match kind with
  | 1 => (a.1 + code, a.2.1 + 1, a.2.2.1, a.2.2.2)
  | 2 => (a.1, a.2.1, a.2.2.1 + code, a.2.2.2 + 1)
  | _ => a

/-- The CP and PP conversions of the tick before, taken by the handshake unit in this tick (09 R226, 05 R154). A period has
had its last conversion in the tick of its end, or in the tick before where the edge opens a tick (09 R229). -/
def pilotSamples (s : State) (i : TickIn) (p : Nat) (q : Pilot) : Pilot :=
  let n := now s - 1
  let settle := cpTab s p 24 1
  let cp := nth i.cp p []
  let ts := (List.range cp.length).map fun m => (slotTime n p (6 * (m / 4) + m % 4), nth cp m 0)
  let old := ts.filter fun e => e.1 < q.cur.start
  let new := ts.filter fun e => q.cur.start ≤ e.1
  let sums := (q.hiSum, q.hiN, q.loSum, q.loN)
  let acc := fun d l a => l.foldl (fun a (e : Nat × Nat) => addSample (sampleKind d settle e.1) e.2 a) a
  let pp := (nth i.pp p []).zipIdx.map fun e => (slotTime n p (6 * e.2 + 4), e.1)
  let ppo := (pp.filter fun e => e.1 < q.cur.start).map Prod.snd
  let ppc := (pp.filter fun e => q.cur.start ≤ e.1).map Prod.snd
  let c := acc q.cur new
  if p % 3 == 0 && edgeTick (now s) p then
    { q with
      past := q.cur, done := c sums, endDue := true, hiSum := 0, hiN := 0, loSum := 0, loN := 0
      ppDone := (q.ppSum + ppc.foldl (· + ·) 0, q.ppN + ppc.length), ppSum := 0, ppN := 0 }
  else if p % 3 != 0 && n * 2048000 ≤ q.cur.start && q.cur.start != 0 then
    let d := c (0, 0, 0, 0)
    { q with
      past := q.prev, done := acc q.prev old sums, endDue := true, hiSum := d.1, hiN := d.2.1, loSum := d.2.2.1, loN := d.2.2.2
      ppDone := (q.ppSum + ppo.foldl (· + ·) 0, q.ppN + ppo.length), ppSum := ppc.foldl (· + ·) 0, ppN := ppc.length }
  else
    let d := c sums
    { q with
      hiSum := d.1, hiN := d.2.1, loSum := d.2.2.1, loN := d.2.2.2
      ppSum := q.ppSum + ppc.foldl (· + ·) 0, ppN := q.ppN + ppc.length }

/-- The conditions of the energy request of R232. -/
def reqNow (s : State) (p : Nat) : Bool :=
  let q := getPort s p
  (q.hs.st == 6 || (q.hs.st == 8 && cpTab s p 40 1 == 1)) && (q.hs.cur.mode == 1 || q.hs.cur.mode == 2) &&
  q.hs.permit && (!isSocket s p || (q.hs.ppSt == 1 && q.hs.lock == 2))

/-- The cause that names the failing condition of R232 (12 Table SF-3). -/
def reqCause (s : State) (p : Nat) : Nat :=
  let q := getPort s p
  if !q.hs.permit then 0x02
  else if isSocket s p && (q.hs.ppSt != 1 || q.hs.lock != 2) then 0x06
  else if q.hs.st == 9 then 0x07
  else 0x0D

/-- An off-pulse runs in this tick (11 R284). -/
def pulseRuns (s : State) (p : Nat) : Bool :=
  let q := (getPort s p).ct
  q.pulse != 0 && decide (500 * (now s - q.pulseTick) < 40 + 4 * rcTab s p 62 2)

/-- The energy request is judged anew: its end after a move to B opens the port under R282, any other end stops it
(09 R232). In the tick of a pulse both switches go off and the pulse is not judged: the safe stop of any other end then
begins, or goes on, at energy removal (11 Table RC-8, log 140). -/
def judgeReq (p : Nat) (s : State) : State :=
  let q := getPort s p
  let r := reqNow s p
  let ends := q.hs.req && !r
  let s1 := updPort p (fun q => { q with hs := { q.hs with req := r, reqOff := if ends then some (now s) else q.hs.reqOff } }) s
  if ends then
    if 1 ≤ q.ct.stage ∧ q.ct.stage ≤ 3 then endSequence p s1
    else if q.ct.stage == 4 && q.ss.stage != 1 && q.ss.stage != 2 && q.ct.opening.isNone then
      if q.hs.st == 3 || q.hs.st == 4 then
        if pulseRuns s p then
          updPort p (fun q => { q with ct := { q.ct with stage := 6, step := 0, stepN := 0 } }) (setSwitches p false false s1)
        else updPort p (fun q => { q with ct := { q.ct with opening := some (now s), stage := 5 } }) s1
      else
        let s2 := startStop p (reqCause s p) none s1
        if pulseRuns s p && (getPort s2 p).ss.stage == 1 then removeEnergy p (reqCause s p) 4 s2 else s2
    else if q.ss.stage == 1 && pulseRuns s p then removeEnergy p q.ss.cause 4 s1
    else s1
  else s1

/-- The rating of the cable that counts, A, and the band it comes from: under a permit or with a switch closed a change to a
higher-rated band does not raise it (09 R236). -/
def bandLimit (s : State) (q : Port) : Nat × Nat :=
  let kept := (q.hs.permit || anyOn q) && q.hs.bandIn < 8
  if q.hs.ppSt == 1 && q.hs.ppIn < 8 then
    let a := tf s 0x4502 (197 + 6 * q.hs.ppIn) 1
    if kept && q.hs.ppIn != q.hs.bandIn && q.hs.bandA ≤ a then (q.hs.bandA, q.hs.bandIn) else (a, q.hs.ppIn)
  else if kept then (q.hs.bandA, q.hs.bandIn) else (0xFF, 0xFF)

/-- The cable limit that the PP state and the table give, A (09 R235). -/
def cableLimit (s : State) (p : Nat) : Nat :=
  let q := getPort s p
  let top := tf s 0x4502 (8 * p + 2) 1
  if isSocket s p then (if q.hs.ppSt == 1 then min top (bandLimit s q).1 else 0)
  else min top (tf s 0x4502 (8 * p + 3) 1)

/-- The cable limit in force follows the table and the cable (09 R235, R236). -/
def cableTick (s : State) (p : Nat) (q : Port) : Port :=
  { q with hs := { q.hs with
      bandA := (bandLimit s q).1, bandIn := (bandLimit s q).2
      cable := cableLimit s p
      ppSt := if isSocket s p then (if q.hs.ppSt == 5 then 4 else q.hs.ppSt) else 5
      lock := if isSocket s p then (if q.hs.lock == 4 then 0 else q.hs.lock) else 4 } }

/-- The state of a socket port in which R238 asks for the lock. -/
def lockCond (s : State) (p : Nat) (q : Port) : Bool := isSocket s p && decide (3 ≤ q.hs.st ∧ q.hs.st ≤ 8)

/-- Mean of the last 8 sense samples, and whether it lies in the window (09 R238). -/
def lockInWindow (s : State) (l : List Nat) : Bool :=
  let m := l.foldl (· + ·) 0
  decide (l.length = 8 ∧ 8 * tf s 0x4502 246 2 ≤ m ∧ m ≤ 8 * tf s 0x4502 248 2)

/-- The lock's work of one tick: a request as the condition becomes true or a permit is granted, and the sense samples (09
R238, R240). -/
def lockTick (s : State) (p : Nat) (q : Port) : Port :=
  let permit := lockCond s p q && q.hs.permit
  let plug := lockCond s p q && lockAtPlug s p
  let ch := lockCh s p
  let sampled := if now s % 2 == 1 then ch < 8 else 8 ≤ ch
  let active := q.hs.lock == 1 || q.hs.lock == 2
  let sense := if active && sampled then ((getLs s ch).sense :: q.hs.sense).take 8 else q.hs.sense
  let inW := lockInWindow s sense
  { q with hs := { q.hs with
      lockCond := permit, lockPlug := plug
      lockReq := q.hs.lockReq || (permit && !q.hs.lockCond) || (plug && !q.hs.lockPlug && !q.hs.lockCond)
      sense := sense
      lockGood := if active && sampled then (if inW then q.hs.lockGood + 1 else 0) else q.hs.lockGood
      lockBad := if q.hs.lock == 2 && !inW && sense.length == 8 then q.hs.lockBad + 1 else 0 } }

/-- The mode and duty in force from the start of this tick, and the rising edge that falls in it (09 R224). -/
def selectTick (s : State) (p : Nat) (q : Port) : Port :=
  let m := selectMode s p
  { q with hs := { q.hs with mode := m.1, duty := m.2, edgeDue := edgeTick (now s) p } }

/-- Past coded currents that still bear on the reference of R243. -/
def trimCoded (from_ : Nat) : List (Nat × Nat) → List (Nat × Nat)
  | [] => []
  | e :: l => if from_ < e.1 then e :: trimCoded from_ l else [e]

/-- A coded current takes effect (09 R243). -/
def setCoded (s : State) (p lim : Nat) (q : Port) : Port :=
  if q.hs.limit == lim then q
  else { q with hs := { q.hs with
    limit := lim, coded := trimCoded (now s - 8000 * cpTab s p 45 1) ((now s, lim) :: q.hs.coded) } }

/-- The reference limit of R243: the highest current coded over the last SETTLE_S seconds, 0.1 mA. -/
def codedRef (s : State) (p : Nat) : Nat :=
  ((trimCoded (now s - 8000 * cpTab s p 45 1) (getPort s p).hs.coded).map Prod.snd).foldl max 0

/-- HLC_LIMIT is notified when the allocation has changed by 0.1 A or more, at most once per 100 ms (09 R242). -/
def hlcTick (p : Nat) (s : State) : State :=
  let q := getPort s p
  if q.hs.cur.mode == 2 then
    let s1 := updPort p (setCoded s p (1000 * q.li.force)) s
    match q.hs.hlc with
    | some (v, t) =>
      if v != q.li.force && decide (t + 800 ≤ now s) then
        cpEvent p 9 0 0 q.li.force (updPort p (fun q => { q with hs := { q.hs with hlc := some (q.li.force, now s) } }) s1)
      else s1
    | none => s1
  else s

/-- The handshake unit's work of one tick for one port (02 Table TK-3). -/
def handshakePort (i : TickIn) (p : Nat) (s : State) : State :=
  let s1 := updPort p (fun q => { q with hs := pilotSamples s i p q.hs }) s
  let s2 := updPort p (fun q => selectTick s1 p (lockTick s1 p (cableTick s1 p q))) s1
  hlcTick p (judgeReq p s2)

/-- The level the generator drives at the end of a period under a drive: true high. -/
def endLevel (d : Drive) : Bool := d.mode == 0

/-- PWM_RISING_EDGE (09 R224): the generator latches the mode and duty in force at the start of the tick, and a new version
of the state table takes effect, by which ZERO and a probe take their duty (R230). A probe that finds another mode than
PWM is not made (R228). -/
def pwmRisingEdge (p : Nat) (s : State) : State :=
  let q := getPort s p
  if p < 24 && q.hs.edgeDue then
    let t := edgeTime (now s) p
    let m := q.hs.mode
    let probe := q.hs.probe && m == 1
    let duty := if m == 3 then tf s 0x4501 34 2 else q.hs.duty
    let d := if probe then min duty (tf s 0x4501 36 2) else duty
    let level := m != 4
    let lastEdge := if q.hs.cur.mode == 0 || q.hs.cur.mode == 4 then q.hs.cur.edge
                    else q.hs.cur.start + highTime q.hs.cur.duty
    let edge := if m == 0 || m == 4 then (if endLevel q.hs.cur == level then lastEdge else t) else t
    let lim := match m with
      | 1 => decoded q.hs.duty
      | 2 => 1000 * q.li.force
      | _ => 0
    let changed := q.hs.tblNew
    let hlc := if m == 2 then (if q.hs.cur.mode == 2 then q.hs.hlc else some (q.li.force, now s)) else none
    let he := if q.li.hold != 0 && q.li.holdEdge.isNone && q.li.holdAt < now s then some (now s) else q.li.holdEdge
    let s1 := updPort p (fun q => setCoded s p lim { q with
      hs := { q.hs with
        prev := q.hs.cur
        cur := ⟨m, d, t, edge⟩
        edgeDue := false
        probe := false
        probes := if probe then sat16 q.hs.probes else q.hs.probes
        probeAt := if probe then some t else q.hs.probeAt
        tbl := []
        tblNew := false
        fresh := if changed then q.hs.endDue || p % 3 != 0 else q.hs.fresh
        cls := if changed then 0 else q.hs.cls
        clsN := if changed then 0 else q.hs.clsN
        diodeN := if changed then 0 else q.hs.diodeN
        hlc := hlc }
      li := { q.li with holdEdge := he } }) s
    let s2 := if m != q.hs.cur.mode then cpEvent p 2 q.hs.cur.mode m d s1 else s1
    if m == 2 && q.hs.cur.mode != 2 then cpEvent p 9 0 0 q.li.force s2 else s2
  else s

def execPwmRisingEdge (p : Nat) (s : State) : Out := .next (gated (tickRun s) (pwmRisingEdge p) s)

/-- A mean code lies in a window of the state table. -/
def inWin (s : State) (p off : Nat) (v : Rat) : Bool :=
  decide ((cpTab s p off 2 : Rat) ≤ v ∧ v ≤ (cpTab s p (off + 2) 2 : Rat))

/-- The class of a period: 0 none, 1 A, 2 B, 3 C, 4 D, 5 E_0V, 6 INDET, 7 F, 8 E_NOT_F; and diode_fail (09 R229). -/
def classify (s : State) (p mode : Nat) (vh vl : Option Rat) : Nat × Bool :=
  let neg := match vl with
    | some v => inWin s p 20 v
    | none => false
  let cls :=
    if mode == 4 then (if neg then 7 else 8)
    else match vh with
      | none => 0
      | some v =>
        if inWin s p 0 v then 1 else if inWin s p 4 v then 2 else if inWin s p 8 v then 3
        else if inWin s p 12 v then 4 else if inWin s p 16 v then 5 else 6
  (cls, (cls == 2 || cls == 3 || cls == 4) && vl.isSome && !neg)

/-- The class of a state code. -/
def clsOfState (st : Nat) : Nat :=
  if st == 0 then 0 else if st ≤ 8 then (st + 1) / 2 else if st == 9 then 5 else 7

/-- Debounce of a class (09 Table VH-6); 9 is diode_fail. -/
def debOf (s : State) (p cls : Nat) : Nat :=
  match cls with
  | 1 => cpTab s p 26 1
  | 2 => cpTab s p 27 1
  | 3 => cpTab s p 28 1
  | 4 => cpTab s p 29 1
  | 5 => cpTab s p 30 1
  | 6 => cpTab s p 32 2
  | 7 => 1
  | 8 => cpTab s p 30 1
  | _ => cpTab s p 31 1

/-- The class that has held and changes the state: from E only A and B, and no change into the state held
(09 R231). -/
def dueClass (s : State) (p st cls n dio : Nat) : Option Nat :=
  let held := if dio ≥ debOf s p 9 && dio > 0 then some 9 else if cls > 0 && n ≥ debOf s p cls then some cls else none
  match held with
  | none => none
  | some c =>
    if st == 9 then (if c == 1 || c == 2 then some c else none)
    else if c == clsOfState st && c ≤ 4 then none
    else if c == 7 && st == 10 then none
    else some c

/-- Mean of a sum of codes. -/
def meanCode (sum n : Nat) : Option Rat := if n == 0 then none else some ((sum : Rat) / (n : Rat))

/-- The PP band of a value, 8 when in no used band (09 R235). -/
def ppBandOf (s : State) (code : Rat) : Nat :=
  ((List.range 8).find? fun b =>
    tf s 0x4502 (196 + 6 * b) 1 != 0 &&
      decide ((tf s 0x4502 (192 + 6 * b) 2 : Rat) ≤ code ∧ code ≤ (tf s 0x4502 (194 + 6 * b) 2 : Rat))).getD 8

/-- PP_STATE of a band's kind (09 R235, Table VH-10). -/
def ppStOf (s : State) (band : Nat) : Nat :=
  if band ≥ 8 then 3
  else match tf s 0x4502 (196 + 6 * band) 1 with
    | 1 => 1
    | 2 => 0
    | 3 => 2
    | _ => 3

/-- The state code of a class under a mode: suffix 2 while PWM, HLC or ZERO, suffix 1 in STEADY_HIGH (09 R231). -/
def withSuffix (cls mode old : Nat) : Nat :=
  let two := if mode == 0 then 0 else if mode == 4 then (old + 1) % 2 else 1
  2 * cls - 1 + two

/-- PWM_PERIOD_END (09 R229, R231, R235): the period just ended is classified and counted. -/
def pwmPeriodEnd (p : Nat) (s : State) : State :=
  let q := getPort s p
  if p < 24 && q.hs.endDue then
    let vh := meanCode q.hs.done.1 q.hs.done.2.1
    let vl := meanCode q.hs.done.2.2.1 q.hs.done.2.2.2
    let mode := q.hs.past.mode
    let k := classify s p mode vh vl
    let judged := k.1 != 0 && q.hs.seen && !q.hs.fresh
    let dio := if !judged then q.hs.diodeN else if k.2 then q.hs.diodeN + 1 else 0
    let n := if !judged then q.hs.clsN else if k.2 then 0 else if k.1 == q.hs.cls then q.hs.clsN + 1 else 1
    let c := if !judged then q.hs.cls else if k.2 then 0 else k.1
    let ppc := (meanCode q.hs.ppDone.1 q.hs.ppDone.2).getD q.hs.ppCode
    let band := ppBandOf s ppc
    let run := if band == q.hs.ppBand then q.hs.ppRun + 1 else 1
    let st := if judged && 1 ≤ q.hs.st && q.hs.st ≤ 8 then withSuffix (clsOfState q.hs.st) mode q.hs.st else q.hs.st
    let s1 := updPort p (fun q => { q with hs := { q.hs with
      endDue := false, fresh := false, probeAt := if q.hs.probeAt == some q.hs.past.start then none else q.hs.probeAt
      vh := vh, vl := vl, cls := c, clsN := n, diodeN := dio
      noLow := if vl.isSome then 0 else q.hs.noLow + 1
      diodeFails := if judged && k.2 then sat16 q.hs.diodeFails else q.hs.diodeFails
      due := if judged then dueClass s p q.hs.st c n dio else q.hs.due
      st := st
      ppCode := ppc, ppBand := band, ppRun := run
      ppDue := isSocket s p && decide (tf s 0x4502 240 2 ≤ run) && (band != q.hs.ppIn || ppStOf s band != q.hs.ppSt) } }) s
    if st != q.hs.st then judgeReq p (cpEvent p 1 q.hs.st st q.hs.eReason s1) else s1
  else s

def execPwmPeriodEnd (p : Nat) (s : State) : Out := .next (gated (tickRun s) (pwmPeriodEnd p) s)

/-- A mean code as a voltage at the pilot, mV (09 R221). -/
def cpMv (v : Rat) : Int := rnd 3 ((v - 2048) * 1000 / 128)

/-- Entry to state A: the lock is released, a trip veto, an overcurrent veto and a PP_LOST veto end (09 R239, R236,
11 R274, 05 R149); a closed switch is UNPLUG_LOADED (Table VH-6), with none closed the session ends (14 R352). -/
def enterA (p : Nat) (s : State) : State :=
  let s1 := updPort p (fun q => { q with
    rc := { q.rc with trip := 0 }
    ct := { q.ct with vOver := false, vPp := false, vE := false } }) s
  let s2 := lockFree p s1
  if portOn s p then startStop p 0x12 none (cpEvent p 6 0 0 0 s2) else withdrawPermit p 0 s2

/-- Entry to state E: Keystone veto, the permit withdrawn, safe stop of an energised port; a pilot held away from -12 V
(reason 4) is only reported, and the permit withdrawn (09 R231, Table VH-6). -/
def enterE (p reason : Nat) (s : State) : State :=
  let vl := match (getPort s p).hs.vl with
    | some v => (cpMv v % 65536).toNat
    | none => 0x8000
  let s1 := if reason == 4 then s else updPort p (fun q => { q with ct := { q.ct with vE := true } }) s
  let s2 := if reason == 2 then cpEvent p 5 0 0 vl s1 else s1
  let s3 := if reason != 4 && portOn s p then startStop p 0x07 none s2 else s2
  withdrawPermit p 0x07 s3

/-- The reason of state E for a class (09 Table VH-6). -/
def reasonOf (c : Nat) : Nat :=
  match c with
  | 5 => 1
  | 9 => 2
  | 6 => 3
  | _ => 4

/-- CP_STATE_CHANGE (09 R231, Table VH-6): a class held for its debounce becomes the state, with its reactions. -/
def cpStateChange (p : Nat) (s : State) : State :=
  let q := getPort s p
  match q.hs.due with
  | none => s
  | some c =>
    let isE := c == 5 || c == 6 || c == 8 || c == 9
    let st := if isE then 9 else if c == 7 then 10 else withSuffix c q.hs.past.mode 1
    let reason := if isE then reasonOf c else 0
    let s1 := updPort p (fun q => { q with
      hs := { q.hs with st := st, eReason := reason, due := none }
      ct := { q.ct with vE := if c == 2 then false else q.ct.vE } }) s
    let s2 := cpEvent p 1 q.hs.st st reason s1
    let s3 := if isE then enterE p reason s2
              else if c == 1 then enterA p s2
              else if c == 4 && cpTab s p 40 1 == 0 then cpEvent p 7 0 0 0 s2
              else s2
    judgeReq p s3

def execCpStateChange (p : Nat) (s : State) : Out := .next (gated (tickRun s) (cpStateChange p) s)

/-- PP_STATE_CHANGE (09 R235, R236): PP_LOST stops the port, and the stop ends its permit also where no switch is closed. -/
def ppStateChange (p : Nat) (s : State) : State :=
  let q := getPort s p
  if q.hs.ppDue then
    let st := ppStOf s q.hs.ppBand
    let held := q.hs.permit || anyOn q
    let s1 := updPort p (fun q => { q with
      hs := { q.hs with ppDue := false, ppSt := st, ppIn := q.hs.ppBand }
      ct := { q.ct with vPp := if st == 1 then false else q.ct.vPp || held }
      li := allPhases (now s) q.li }) s
    let s2 := updPort p (fun q => cableTick s1 p q) s1
    let s3 := cpEvent p 3 q.hs.ppSt st (getPort s2 p).hs.cable s2
    if st != 1 && held then
      if portOn s p then startStop p 0x06 none s3 else withdrawPermit p 0x06 (endSequence p s3)
    else s3
  else s

def execPpStateChange (p : Nat) (s : State) : Out := .next (gated (tickRun s) (ppStateChange p) s)

/-- DIODE_PROBE (09 R228): the next period is shortened to PROBE_DUTY; not while a probed period is still to be judged. -/
def diodeProbe (p : Nat) (s : State) : State :=
  let q := getPort s p
  if p < 24 && decide (3 ≤ q.hs.st ∧ q.hs.st ≤ 8) && q.hs.cur.mode == 1 && decide (cpTab s p 38 2 ≤ q.hs.noLow) &&
      !q.hs.probe && q.hs.probeAt.isNone then
    updPort p (fun q => { q with hs := { q.hs with probe := true } }) s
  else s

def execDiodeProbe (p : Nat) (s : State) : Out := .next (gated (tickRun s) (diodeProbe p) s)

/-- CP_WAKE_END (09 R244): the wake is over and debounce restarts. -/
def cpWakeEnd (p : Nat) (s : State) : State :=
  match (getPort s p).hs.wake with
  | some (_, b) =>
    if b ≤ now s then
      updPort p (fun q => { q with hs := { q.hs with wake := none, cls := 0, clsN := 0, diodeN := 0, due := none } }) s
    else s
  | none => s

def execCpWakeEnd (p : Nat) (s : State) : Out := .next (gated (tickRun s) (cpWakeEnd p) s)

/-- A cycle Irms above the overdraw threshold of R243. -/
def overdrawn (s : State) (p x : Nat) : Bool :=
  let th : Rat := (codedRef s p : Rat) * (1 + (cpTab s p 41 1 : Rat) / 100) + 1000 * (cpTab s p 42 2 : Rat)
  decide (th * th < cycI2 s p x)

/-- The phases whose count has reached OVERDRAW_CYCLES. -/
def overPhases (s : State) (p : Nat) : List Nat :=
  (List.range 3).filter fun x => decide (cpTab s p 44 1 ≤ nth (getPort s p).hs.overN x 0)

/-- OVERDRAW (09 R243): each phase concerned is reported, and Keystone stops the port. -/
def overdraw (p : Nat) (s : State) : State :=
  let q := getPort s p
  if q.ss.stage == 1 || q.ss.stage == 2 || (overPhases s p).isEmpty then s
  else
    let s1 := updPort p (fun q => { q with hs := { q.hs with overN := [0, 0, 0] } }) s
    startStop p 0x05 none ((overPhases s p).foldl (fun s x => cpEvent p 8 x 0 (toMa10 (cycI2 s p x)) s) s1)

def execOverdraw (p : Nat) (s : State) : Out := .next (gated (tickRun s) (overdraw p) s)

/-- The lock takes a state, with its event (09 R246). -/
def lockTo (p st det : Nat) (s : State) : State :=
  let old := (getPort s p).hs.lock
  let s1 := updPort p (fun q => { q with hs := { q.hs with lock := st } }) s
  if old == st then s1 else cpEvent p 4 old st det s1

/-- The lock becomes FAULT: the channel stays at LOCK_HOLD_PCT, the request ends, a closed switch is LOCK_LOST
(09 R240). -/
def lockFault (p det : Nat) (s : State) : State :=
  let hold := tf s 0x4502 244 1
  let c := lockCh s p
  let s1 := lockTo p 3 det s
  let s2 := updPort p (fun q => { q with hs := { q.hs with lockPct := hold } }) s1
  let s3 := if (getLs s c).cmd then lsCommand c true hold s2 else s2
  let s4 := if portOn s p then startStop p 0x06 none s3 else s3
  judgeReq p s4

/-- LOCK_REQUEST (09 R237, R238): pull-in starts; a budget refusal is a fault (22 R507). A lock in FAULT, pulling or
locked takes no request; in FAULT a waiting release stays. -/
def lockRequest (p : Nat) (s : State) : State :=
  let q := getPort s p
  if p < 24 && q.hs.lockReq then
    let s1 := updPort p (fun q => { q with hs := { q.hs with
      lockReq := false, relWait := q.hs.relWait && q.hs.lock == 3, relClear := q.hs.relClear && q.hs.lock == 3 } }) s
    if isSocket s p && q.hs.lock == 0 then
      let c := lockCh s p
      let s2 := updPort p (fun q => { q with hs := { q.hs with
        lockAt := now s, lockPct := 100, sense := [], lockGood := 0, lockBad := 0 } }) (lockTo p 1 0 s1)
      if lsRole s c != 4 || (getLs s c).latched || lsFenced s c then s2
      else if declaredWith s c > 4000 then lockFault p 3 s2
      else lsCommand c true 100 s2
    else s1
  else s

def execLockRequest (p : Nat) (s : State) : Out := .next (gated (tickRun s) (lockRequest p) s)

/-- LOCK_PULL_END (09 R237). -/
def lockPullEnd (p : Nat) (s : State) : State :=
  let q := getPort s p
  let hold := tf s 0x4502 244 1
  if q.hs.lock == 1 && q.hs.lockPct == 100 && decide (q.hs.lockAt + 8 * tf s 0x4502 242 2 ≤ now s) then
    let s1 := updPort p (fun q => { q with hs := { q.hs with lockPct := hold, lockGood := 0 } }) s
    if (getLs s (lockCh s p)).cmd then lsCommand (lockCh s p) true hold s1 else s1
  else s

def execLockPullEnd (p : Nat) (s : State) : Out := .next (gated (tickRun s) (lockPullEnd p) s)

/-- LOCKED (09 R238). -/
def locked (p : Nat) (s : State) : State :=
  let q := getPort s p
  if q.hs.lock == 1 && decide (q.hs.lockAt + 8 * tf s 0x4502 242 2 ≤ now s ∧ 10 ≤ q.hs.lockGood) then
    judgeReq p (lockTo p 2 0 s)
  else s

def execLocked (p : Nat) (s : State) : Out := .next (gated (tickRun s) (locked p) s)

/-- LOCK_TIMEOUT (09 R238). -/
def lockTimeout (p : Nat) (s : State) : State :=
  let q := getPort s p
  if q.hs.lock == 1 && decide (q.hs.lockAt + 8 * (tf s 0x4502 242 2 + 50) ≤ now s) then lockFault p 4 s else s

def execLockTimeout (p : Nat) (s : State) : Out := .next (gated (tickRun s) (lockTimeout p) s)

/-- LOCK_LOST (09 R240): channel fault, current outside the window, or a budget refusal the load-switch unit gives. -/
def lockLost (p : Nat) (budget : Bool) (s : State) : State :=
  let q := getPort s p
  if q.hs.lock == 2 then
    if (getLs s (lockCh s p)).sense == 0xFFF then lockFault p 1 s
    else if 8 * tf s 0x4502 245 1 ≤ q.hs.lockBad then lockFault p 2 s
    else if budget then lockFault p 3 s
    else s
  else s

def execLockLost (p : Nat) (budget : Bool) (s : State) : Out := .next (gated (tickRun s) (lockLost p budget) s)

/-- LOCK_RELEASE (09 R239, R240): carried out in the first tick in which CFB reports both switches open; a weld or a mirror
fault holds the lock (11 Table RC-7); FAULT is left
only by a release that state A or PORT_LOCK asked for. -/
def lockReleaseDo (p : Nat) (s : State) : State :=
  let q := getPort s p
  if p < 24 && q.hs.relWait && q.ct.cfb == 4 && !q.ct.welded && !q.ct.mirror then
    let s1 := updPort p (fun q => { q with hs := { q.hs with
      relWait := false, relClear := false, lockPct := 0, lockReq := false } }) s
    let s2 := if q.hs.lock == 1 || q.hs.lock == 2 || (q.hs.lock == 3 && q.hs.relClear) then lockTo p 0 0 s1 else s1
    if lsRole s (lockCh s p) == 4 then lsCommand (lockCh s p) false 0 s2 else s2
  else s

def execLockRelease (p : Nat) (s : State) : Out := .next (gated (tickRun s) (lockReleaseDo p) s)

/-- PP_STATE, LOCK and flags of PORT_STATUS (09 Table VH-10). -/
def portEntry (s : State) (p : Nat) : List Byte :=
  let q := getPort s p
  let mv := fun (v : Option Rat) => match v with
    | some r => leI 2 (cpMv r)
    | none => le 2 0x8000
  [byteOf p, byteOf q.hs.st, byteOf q.hs.eReason, byteOf q.hs.cur.mode] ++ le 2 q.hs.cur.duty ++
  le 2 (q.hs.limit / 1000) ++ mv q.hs.vh ++ mv q.hs.vl ++ le 2 (rnd 39 q.hs.ppCode).toNat ++
  [byteOf q.hs.ppSt, byteOf q.hs.cable, byteOf q.hs.lock,
   byteOf (bitsOf [q.hs.permit, q.hs.req, vetoed s p, q.hs.cpMode == 1, !q.hs.avail, portFenced s p,
     decide (cpTab s p 38 2 ≤ q.hs.noLow)])] ++ le 2 q.hs.probes ++ le 2 q.hs.diodeFails ++ zeros 2

/-- The ports that a request for a port or for all fitted ports names. -/
def portsNamed (s : State) (p : Nat) : List Nat := if p == 0xFF then (List.range 24).filter (fitted s) else [p]

/-- A list of entries with its count (PORT_STATUS, RC_STATUS). -/
def counted (s : State) (entry : State → Nat → List Byte) (ps : List Nat) : List Byte :=
  [byteOf ps.length, 0, 0, 0] ++ ps.flatMap (entry s)

def portStatusBody (pl : List Byte) (s : State) : Served :=
  let p := fld pl 0 1
  if !rdy s rKS then no 0x05F0 s
  else if p > 23 && p != 0xFF then no 0x05F1 s
  else if p != 0xFF && !fitted s p then no 0x0510 s
  else ok 0x0500 (counted s portEntry (portsNamed s p)) s

def execPortStatus (ch : Nat) (s : State) : Out := .next (serve 0x0501 (len 4) portStatusBody ch s)

/-- CP_MODE (09 R241, Table VH-11). -/
def cpModeBody (pl : List Byte) (s : State) : Served :=
  let p := fld pl 0 1
  let m := fld pl 1 1
  if p > 23 || m > 2 then no 0x05F1 s
  else if !fitted s p then no 0x0510 s
  else if !rdy s p then no 0x05F0 s
  else if m == 1 && !hlcAllowed s p then no 0x0512 s
  else if m == 1 && (getPort s p).hs.cpMode == 0 && portOn s p then no 0x0511 s
  else
    let old := (getPort s p).hs.cpMode
    let s1 := updPort p (fun q => { q with
      hs := { q.hs with cpMode := m }
      li := if old == m then q.li else allPhases (now s) q.li }) s
    ok 0x0500 ([byteOf p, byteOf m, byteOf (getPort s p).hs.cur.mode, 0] ++ le 8 (nextEdge (now s + 1) p)) s1

def execCpMode (ch : Nat) (s : State) : Out := .next (serve 0x0502 (len 4) cpModeBody ch s)

/-- PORT_AVAIL (09 R245, Table VH-12). -/
def portAvailBody (pl : List Byte) (s : State) : Served :=
  let p := fld pl 0 1
  let a := fld pl 1 1
  if !rdy s rKS then no 0x05F0 s
  else if p > 23 || a > 1 then no 0x05F1 s
  else if !fitted s p then no 0x0510 s
  else if a == 0 && portOn s p then no 0x0511 s
  else
    let s1 := updPort p (fun q => { q with hs := { q.hs with avail := a == 1, availSet := true } }) s
    let s2 := if a == 0 then withdrawPermit p 0x0D s1 else s1
    ok 0x0500 ([byteOf p, byteOf a, 0, 0] ++ le 8 (nextEdge (now s + 1) p)) s2

def execPortAvail (ch : Nat) (s : State) : Out := .next (serve 0x0503 (len 4) portAvailBody ch s)

/-- PORT_LOCK (09 R238, R239, Table VH-13). -/
def portLockBody (pl : List Byte) (s : State) : Served :=
  let p := fld pl 0 1
  let a := fld pl 1 1
  let q := getPort s p
  if p > 23 || a > 1 then no 0x05F1 s
  else if !fitted s p then no 0x0510 s
  else if !rdy s p || !rdy s rLS then no 0x05F0 s
  else if !isSocket s p then no 0x0513 s
  else if a == 1 && !(decide (3 ≤ q.hs.st ∧ q.hs.st ≤ 8)) then no 0x05F4 s
  else
    let s1 := updPort p (fun q => { q with hs := { q.hs with
      lockReq := a == 1, relWait := a == 0 || (q.hs.relWait && q.hs.lock == 3)
      relClear := a == 0 || (q.hs.relClear && q.hs.lock == 3) } }) s
    ok 0x0500 [byteOf p, byteOf q.hs.lock, byteOf (b2n ((getPort s1 p).hs.relWait && (q.ct.cfb != 4 || q.ct.welded || q.ct.mirror))), 0] s1

def execPortLock (ch : Nat) (s : State) : Out := .next (serve 0x0504 (len 4) portLockBody ch s)

/-- CP_WAKE (09 R244, Table VH-14). -/
def cpWakeBody (pl : List Byte) (s : State) : Served :=
  let p := fld pl 0 1
  let q := getPort s p
  if p > 23 then no 0x05F1 s
  else if !fitted s p then no 0x0510 s
  else if !rdy s p then no 0x05F0 s
  else if q.hs.wake.isSome then no 0x05F3 s
  else if q.hs.st != 3 && q.hs.st != 4 then no 0x0514 s
  else if anyOn q then no 0x0511 s
  else
    let a := nextEdge (now s + 1) p
    let b := a + 8 * cpTab s p 46 2
    ok 0x0500 ([byteOf p, 0, 0, 0] ++ le 8 a ++ le 8 b)
      (updPort p (fun q => { q with hs := { q.hs with wake := some (a, b) } }) s)

def execCpWake (ch : Nat) (s : State) : Out := .next (serve 0x0505 (len 4) cpWakeBody ch s)

/-- A field within a range, ends included. -/
def within (b : List Byte) (off len lo hi : Nat) : Bool := decide (lo ≤ fld b off len ∧ fld b off len ≤ hi)
/-- Bytes that are all 0. -/
def allZero (b : List Byte) (off len : Nat) : Bool := (bytesAt b off len).all fun x => x == 0

/-- Table 0x4501 (09 R230): fields in range, windows in falling order without overlap. -/
def check4501 (b : List Byte) : Option Nat :=
  let lo := fun k => fld b (4 * k) 2
  let hi := fun k => fld b (4 * k + 2) 2
  if (List.range 6).all (fun k => lo k ≤ hi k && hi k ≤ 4095) &&
     (List.range 5).all (fun k => hi (k + 1) < lo k) &&
     within b 24 1 2 3 && allZero b 25 1 && (List.range 6).all (fun k => within b (26 + k) 1 1 20) &&
     within b 32 2 10 1000 && within b 34 2 71 79 && within b 36 2 900 950 && within b 38 2 100 10000 &&
     within b 40 1 0 1 && within b 41 1 5 50 && within b 42 2 5 100 && within b 44 1 10 250 && within b 45 1 3 10 &&
     within b 46 2 500 5000 && allZero b 48 16 then none
  else some 0x0515

/-- The entry of a port in table 0x4502 is in range. -/
def check4502Port (b : List Byte) (p : Nat) : Bool :=
  let o := 8 * p
  within b o 1 0 1 && (if fld b o 1 == 0 then within b (o + 1) 1 0 15 else fld b (o + 1) 1 == 0xFF) &&
  within b (o + 2) 1 6 80 && (fld b o 1 == 0 || within b (o + 3) 1 6 80) && allZero b (o + 4) 4

/-- A band of table 0x4502 is in range. -/
def check4502Band (b : List Byte) (k : Nat) : Bool :=
  let o := 192 + 6 * k
  within b o 2 0 4095 && decide (fld b o 2 ≤ fld b (o + 2) 2 ∧ fld b (o + 2) 2 ≤ 4095) && within b (o + 4) 1 0 3 &&
  (if fld b (o + 4) 1 == 1 then within b (o + 5) 1 6 80 else fld b (o + 5) 1 == 0)

/-- Two bands overlap. -/
def bandsMeet (b : List Byte) (j k : Nat) : Bool :=
  fld b (196 + 6 * j) 1 != 0 && fld b (196 + 6 * k) 1 != 0 &&
  decide (fld b (192 + 6 * j) 2 ≤ fld b (194 + 6 * k) 2 ∧ fld b (192 + 6 * k) 2 ≤ fld b (194 + 6 * j) 2)

/-- Table 0x4502 (09 R234). -/
def check4502 (b : List Byte) (s : State) : Option Nat :=
  let pairs := (List.range 8).all fun j => (List.range 8).all fun k => j == k || !bandsMeet b j k
  let locks := (List.range 24).all fun j => (List.range 24).all fun k =>
    j == k || fld b (8 * j) 1 != 0 || fld b (8 * k) 1 != 0 || fld b (8 * j + 1) 1 != fld b (8 * k + 1) 1
  if (List.range 24).all (check4502Port b) && (List.range 8).all (check4502Band b) && pairs && locks &&
     within b 240 2 10 500 && within b 242 2 50 1000 && within b 244 1 10 100 && within b 245 1 20 200 &&
     within b 246 2 10 350 && decide (fld b 246 2 + 10 ≤ fld b 248 2 ∧ fld b 248 2 ≤ 700) && allZero b 250 6 then
    let old := tab s 0x4502
    let moved := (List.range 24).any fun p => portOn s p && bytesAt b (8 * p) 8 != bytesAt old (8 * p) 8
    let common := bytesAt b 192 64 != bytesAt old 192 64 && (List.range 24).any fun p => portOn s p && isSocket s p
    if moved || common then some 0x0511 else none
  else some 0x0515

/-- Table 0x0501 (09 R245). -/
def check0501 (b : List Byte) : Option Nat :=
  if (List.range 24).all fun p => within b (4 * p) 1 0 1 && within b (4 * p + 1) 1 0 1 && within b (4 * p + 2) 1 0 1 &&
      allZero b (4 * p + 3) 1 then none else some 0x0515

end Sys2Proof.Machine
end

