-- ==== Sys2Proof/Machine/Lintel.lean ====
section
/-!
DEFINITION. Lintel: port caps, demands, the allocation procedure, pacing, feeder overload and the site budget (10).
Currents of the allocation are whole units of 0.1 A.
-/

namespace Sys2Proof.Machine

/-- Fields of the feeder table (10 Table HA-4). -/
def groupLimit (s : State) (g l : Nat) : Nat := tf s 0x4601 (16 * g + 2 * l) 2
def fuseIn (s : State) (g : Nat) : Nat := tf s 0x4601 (16 * g + 6) 2
def stopMargin (s : State) : Nat := tf s 0x4601 114 1
def budgetRole (s : State) : Nat := tf s 0x4601 115 1
def siteLimit (s : State) : Nat := tf s 0x4601 116 2
def fallbackDa (s : State) : Nat := tf s 0x4601 118 2
def hubId (s : State) : Nat := tf s 0x4601 120 1

/-- Fields of the allocation options (10 Table HA-5). -/
def emergA (s : State) (p : Nat) : Nat := tf s 0x0601 (8 * p + 2) 1
def phaseUseDa (s : State) : Nat := tf s 0x0601 192 2
def reclaimDa (s : State) : Nat := tf s 0x0601 194 2
def upStepDa (s : State) : Nat := tf s 0x0601 196 2
def rotateS (s : State) : Nat := tf s 0x0601 198 2

/-- SETTLE_S of the port in ticks (09 Table VH-5). -/
def settleTicks (s : State) (p : Nat) : Nat := 8000 * cpTab s p 45 1

def stopping (q : Port) : Bool := q.ss.stage == 1 || q.ss.stage == 2

/-- LINTEL_EVENT (10 R267). -/
def lintelEvent (g l ev port value : Nat) (s : State) : State :=
  notify 0x0680 ([byteOf g, byteOf l, byteOf ev, byteOf port] ++ le 8 (now s) ++ le 4 value) s

/-- The least whole number of 0.1 A at or above a squared current. -/
def upDa (x : Rat) : Nat :=
  let n := (ratFloor x).toNat
  let r := isqrt n
  let ma := if x = ((r * r : Nat) : Rat) then r else r + 1
  (ma + 999) / 1000

/-- Lintel may give the port current: permit held, fitted, ready, not fenced, not stopping (10 R247, R249). -/
def takesPart (s : State) (p : Nat) : Bool :=
  let q := getPort s p
  q.hs.permit && fitted s p && rdy s p && !portFenced s p && !stopping q

/-- The cap of a port (10 R249). -/
def capOf (s : State) (p : Nat) : Nat :=
  let q := getPort s p
  if stopping q || vetoed s p || q.se.credit == 4 then 0
  else
    let c := min (10 * q.hs.cable) q.li.hostMax
    if q.se.credit == 2 then min c (10 * emergA s p) else c

/-- The cycle values of the last SETTLE_S seconds of a phase. -/
def recentOf (s : State) (p x : Nat) : List Rat :=
  ((nth (getPort s p).li.recent x []).filter fun e => now s ≤ e.1 + settleTicks s p).map Prod.snd

def maxR (l : List Rat) : Rat := l.foldl max 0

/-- The highest cycle Irms squared of the in-use phases over SETTLE_S seconds. -/
def highRecent (s : State) (p : Nat) : Rat :=
  maxR ((List.range 3).map fun x => if nth (getPort s p).li.use x true then maxR (recentOf s p x) else 0)

/-- The highest cycle Irms squared of the in-use phases. -/
def highCyc (s : State) (p : Nat) : Rat :=
  maxR ((List.range 3).map fun x => if nth (getPort s p).li.use x true then cycI2 s p x else 0)

/-- Phases in use (10 R250): all three until the port has held current for SETTLE_S; then a phase leaves when no
cycle of SETTLE_S reached PHASE_USE_DA, and returns after 3 cycles in a row. -/
def useTick (s : State) (p : Nat) (q : Alloc) : Alloc :=
  let overN := match q.nz with
    | some t => decide (t + settleTicks s p ≤ now s)
    | none => false
  let all := q.all && !overN
  let reached := fun x => (recentOf s p x).any fun v => decide (da2 (phaseUseDa s) ≤ v)
  { q with
    all := all
    use := (List.range 3).map fun x =>
      if all then true
      else if q.all then reached x
      else if nth q.use x true then reached x else decide (3 ≤ nth q.useN x 0) }

/-- The demand of a port (10 R251); a port without an allocation holds none and has the demand of its cap. -/
def demandTick (s : State) (p : Nat) (q : Alloc) : Alloc :=
  let cap := capOf s p
  let r := reclaimDa s
  let back := q.recl && decide (3 ≤ q.reclN)
  let seen := (List.range 3).any fun x => nth q.use x true && !(recentOf s p x).isEmpty
  let low := q.alloc != 0 && decide (q.same + settleTicks s p ≤ now s) && decide (r < q.alloc) && seen &&
    decide (highRecent s p < da2 (q.alloc - r))
  if back || q.alloc == 0 || !takesPart s p then { q with cap := cap, recl := false, demand := cap, reclN := 0 }
  else if low then
    let d := max 60 (upDa (highRecent s p) + r)
    { q with cap := cap, recl := true, reclDem := d, demand := min cap d, reclN := 0 }
  else { q with cap := cap, demand := if q.recl then min cap q.reclDem else cap }

/-- The group limit of a line in force: reduced in the warning stage (10 R257). -/
def limitInForce (s : State) (g l : Nat) : Nat :=
  let k := nth s.lintel.lines (3 * g + l) {}
  if k.warn || decide (1 / 2 ≤ k.acc) then groupLimit s g l * (100 - stopMargin s) / 100 else groupLimit s g l

/-- The source of the site share (10 Table HA-7): a hub that shares the site has FALLBACK before its first grant (log 54). -/
def shareSource (s : State) : Nat := if budgetRole s == 0 then 0 else if s.lintel.source == 0 then 3 else s.lintel.source

/-- The site share of a line in force (10 R262, R264). -/
def siteShare (s : State) (l : Nat) : Nat :=
  match shareSource s with
  | 0 => siteLimit s
  | 3 => fallbackDa s
  | _ => nth s.lintel.share l 0

/-- The two limits that a phase draws on: line l of group g, and line l of the site. -/
def resOf (s : State) (p x : Nat) : List Nat := [3 * groupOf s p + lineOf s p x, 12 + lineOf s p x]

/-- The limits that a port's in-use phases draw on. -/
def portRes (s : State) (p : Nat) : List Nat :=
  (List.range 3).flatMap fun x => if nth (getPort s p).li.use x true then resOf s p x else []

/-- The committed current of a phase (10 R252). -/
def committed (s : State) (p x : Nat) : Nat :=
  let q := getPort s p
  let i := cycI2 s p x
  if q.hs.permit || q.li.kept || q.li.hold != 0 then
    (if nth q.li.use x true then max (q.li.alloc + q.li.hold) (upDa i) else 0)
  else if decide (da2 5 ≤ i) then upDa i else 0

/-- The limits, group lines first, then the site's lines. -/
def limits (s : State) : List Nat :=
  ((List.range 12).map fun k => limitInForce s (k / 3) (k % 3)) ++ (List.range 3).map (siteShare s)

/-- A current taken from limits. -/
def takeFrom (rs : List Nat) (n : Nat) (rem : List Nat) : List Nat :=
  rs.foldl (fun r k => r.modify k fun v => v - n) rem
def giveTo (rs : List Nat) (n : Nat) (rem : List Nat) : List Nat :=
  rs.foldl (fun r k => r.modify k fun v => v + n) rem

/-- The committed currents of a port taken from the limits. -/
def takePort (s : State) (p : Nat) (rem : List Nat) : List Nat :=
  (List.range 3).foldl (fun r x => takeFrom (resOf s p x) (committed s p x) r) rem

/-- The port is in the set of its class: Lintel may give it current, and its demand is 6.0 A or more (10 R249, R253). -/
def inClass (s : State) (p : Nat) : Bool := takesPart s p && decide (60 ≤ (getPort s p).li.demand)

/-- The limits before allocation: less the committed currents of the ports that are in no class's set, their holds among
them (10 R252, log 34). -/
def available (s : State) : List Nat :=
  (List.range 24).foldl (fun r p => if inClass s p then r else takePort s p r) (limits s)

/-- A port in the allocation procedure: number, demand, limits it draws on, target. -/
abbrev Slotted := Nat × Nat × List Nat × Nat

/-- How many of the ports draw on a limit. -/
def drawing (l : List Slotted) (k : Nat) : Nat := (l.filter fun e => e.2.2.1.contains k).length

/-- The level of unfrozen ports rises in whole steps; a port freezes at its demand or when a limit it draws on cannot
give every unfrozen port on it one step more (10 R253). Each turn freezes at least one port. -/
def levelFill : Nat → List Slotted → List Slotted → List Nat → List Slotted × List Nat
  | 0, act, done, rem => (done ++ act, rem)
  | k + 1, act, done, rem =>
    let open_ := act.filter fun e => e.2.2.2 < e.2.1
    let stuck := fun (e : Slotted) => e.2.2.1.any fun r => nth rem r 0 < drawing open_ r
    let rest := open_.filter fun e => !stuck e
    let frozen := (act.filter fun e => e.2.1 ≤ e.2.2.2) ++ open_.filter stuck
    if rest.isEmpty then (done ++ frozen, rem)
    else if frozen.isEmpty then
      let d1 := rest.foldl (fun m e => min m (e.2.1 - e.2.2.2)) 0xFFFF
      let d := (List.range 15).foldl (fun m r =>
        if drawing rest r == 0 then m else min m (nth rem r 0 / drawing rest r)) d1
      let rem1 := rest.foldl (fun m e => takeFrom e.2.2.1 d m) rem
      levelFill k (rest.map fun e => (e.1, e.2.1, e.2.2.1, e.2.2.2 + d)) done rem1
    else levelFill k rest (done ++ frozen) rem

/-- Shares below 6.0 A are given back (10 R253). -/
def giveBack (l : List Slotted) (rem : List Nat) : List Slotted × List Nat :=
  l.foldl (fun a e =>
    if 0 < e.2.2.2 ∧ e.2.2.2 < 60 then (a.1 ++ [(e.1, e.2.1, e.2.2.1, 0)], giveTo e.2.2.1 e.2.2.2 a.2)
    else (a.1 ++ [e], a.2)) ([], rem)

/-- Admission in the order of the class (10 R253, R254): the ports admitted and what remains. -/
def admitPort (ptr : Nat) (l : List Slotted) (rem : List Nat) : List Nat × List Nat :=
  (List.range 24).foldl (fun a i =>
    match l.find? fun e => e.1 == (ptr + i) % 24 && e.2.2.2 == 0 with
    | none => a
    | some e => if e.2.2.1.all fun r => 60 ≤ nth a.2 r 0 then (a.1 ++ [e.1], takeFrom e.2.2.1 60 a.2) else a) ([], rem)

/-- One class: targets of its ports, the ports admitted, what remains. -/
def allocClass (s : State) (cls : Nat) (rem : List Nat) : List (Nat × Nat) × List Nat × List Nat :=
  let set := ((List.range 24).filter fun p => inClass s p && (getPort s p).li.prio == cls).map fun p =>
      (p, (getPort s p).li.demand, portRes s p, 0)
  let f := levelFill 60 set [] rem
  let g := giveBack f.1 f.2
  let a := admitPort (nth s.lintel.ptr cls 0) g.1 g.2
  (g.1.map fun e => (e.1, if a.1.contains e.1 then 60 else e.2.2.2), a.1, a.2)

/-- The allocation procedure: targets by port, ports admitted by class 0 to 7 (10 R253). -/
def allocate (s : State) : List (Nat × Nat) × List (List Nat) :=
  let r := (List.range 8).foldl (fun a i =>
    let c := allocClass s (7 - i) a.2.2
    (a.1 ++ c.1, c.2.1 :: a.2.1, c.2.2)) (([] : List (Nat × Nat)), ([] : List (List Nat)), available s)
  (r.1, r.2.1)

/-- The allocation of one port follows its target, 0 where it takes no part, as far as no headroom is needed (10 R255). -/
def paceDown (s : State) (target : Nat) (q : Alloc) : Alloc :=
  if q.kept then { q with target := target }
  else if target < q.alloc then
    { q with target := target, hold := q.alloc + q.hold - target, alloc := target, holdAt := now s, holdEdge := none }
  else
    let r := min (target - q.alloc) q.hold
    { q with target := target, alloc := q.alloc + r, hold := q.hold - r }

/-- The rest of a rise is granted from headroom (10 R255). -/
def paceUp (s : State) (p : Nat) (rem : List Nat) : State × List Nat :=
  let q := getPort s p
  if takesPart s p && !q.li.kept && q.li.alloc < q.li.target then
    let room := (portRes s p).foldl (fun m r => min m (nth rem r 0)) 0xFFFF
    let up := min (q.li.target - q.li.alloc) room
    if up < upStepDa s then (s, rem)
    else
      let before := (List.range 3).map (committed s p)
      let s1 := updPort p (fun q => { q with li := { q.li with alloc := q.li.alloc + up } }) s
      (s1, (List.range 3).foldl (fun r x =>
        takeFrom (resOf s p x) (committed s1 p x - nth before x 0) r) rem)
  else (s, rem)

/-- Increases in order of priority, then port number (10 R255). -/
def paceAll (s : State) : State :=
  let order := (List.range 8).flatMap fun i => (List.range 24).filter fun p => (getPort s p).li.prio == 7 - i
  let rem := (List.range 24).foldl (fun r p => takePort s p r) (limits s)
  (order.foldl (fun a p => paceUp a.1 p a.2) (s, rem)).1

/-- The measured current of a line, 0.1 mA (10 R256). -/
def lineMeas (s : State) (g l : Nat) : Nat :=
  (List.range 72).foldl (fun a i =>
    let p := i / 3
    if fitted s p && groupOf s p == g && lineOf s p (i % 3) == l then a + toMa10 (fastI2 s p (i % 3)) else a) 0

/-- The accumulator's update of one tick (10 R256). -/
def accTick (s : State) (g l : Nat) (k : LineSt) : LineSt :=
  let i := lineMeas s g l
  let above := fun n => decide (tf s 0x4601 (64 + 6 * n) 2 * fuseIn s g * 10 ≤ i)
  let ge := fun n => decide (i ≤ tf s 0x4601 (64 + 6 * n) 2 * fuseIn s g * 10)
  let a := if above 0 then
      let n := ((List.range 8).find? ge).getD 7
      min 1 (k.acc + 1 / (8 * tf s 0x4601 (66 + 6 * n) 4 : Nat))
    else max 0 (k.acc - 1 / (8000 * tf s 0x4601 112 2 : Nat))
  { k with acc := a, meas := i, sel := k.sel.filter fun p => (getPort s p).li.kept }

/-- A kept share is released when the current has fallen below 0.5 A or both switches are open (01 R25). -/
def releaseKept (s : State) (p : Nat) (q : Port) : Port :=
  if q.li.kept && ((q.ct.cfb == 4 && !anyOn q) || decide (topFastI2 s p < da2 5)) then
    { q with li := { q.li with kept := false, forced := false, alloc := 0, target := 0, hold := 0, holdEdge := none } }
  else q

/-- Lintel's work of one tick (10 R247 to R257). -/
def lintelTick (s0 : State) : State :=
  let s := { s0 with lintel := { s0.lintel with passDue := false } }
  let s1 := eachPort (fun p s => updPort p (releaseKept s p) s) s
  let s2 := foldN 12 (fun k s => if grpFitted s (k / 3) then
      { s with lintel := { s.lintel with lines := s.lintel.lines.modify k (accTick s (k / 3) (k % 3)) } }
    else s) s1
  let s3 := eachPort (fun p s => updPort p (fun q => { q with li := demandTick s p (useTick s p q.li) }) s) s2
  let a := allocate s3
  let s4 := eachPort (fun p s =>
    let t := ((a.1.find? fun e => e.1 == p).map Prod.snd).getD 0
    updPort p (fun q => { q with li := { paceDown s t q.li with admitted := a.2.any fun l => l.contains p } }) s) s3
  let s5 := paceAll s4
  let s6 := eachPort (fun p s =>
    let old := (getPort s1 p).li.alloc
    updPort p (fun q => { q with li := { q.li with
      same := if q.li.alloc == old then q.li.same else now s
      nz := if q.li.alloc == 0 then none else match q.li.nz with
        | some t => some t
        | none => some (now s) } }) s) s5
  { s6 with lintel := { s6.lintel with lastAdm := a.2.map List.getLast? } }

/-- The computation of the tick, made once what the other units do in their windows of the tick has been done: at the first
row that needs its result, or at the end of the tick (10 R248, Table HA-1, log 139). -/
def lintelSettle (s : State) : State := if s.lintel.passDue then lintelTick s else s

/-- HOLD_END (10 R255). -/
def holdEnd (p : Nat) (s : State) : State :=
  let q := getPort s p
  let low := decide (highCyc s p ≤ da2 (q.li.alloc + 10))
  let late := match q.li.holdEdge with
    | some t => decide (t + settleTicks s p ≤ now s)
    | none => false
  if q.li.hold != 0 && (low || late) then
    updPort p (fun q => { q with li := { q.li with hold := 0, holdEdge := none } }) s
  else s

def execHoldEnd (p : Nat) (s : State) : Out := .next (gated (tickRun s) (holdEnd p) s)

/-- ROTATE_POINTER (10 R254). -/
def rotatePointer (s : State) : State :=
  if rotateS s == 0 then { s with lintel := { s.lintel with ptr := List.replicate 8 0 } }
  else if s.lintel.rotAt + 8000 * rotateS s ≤ now s then
    { s with lintel := { s.lintel with
      rotAt := now s
      ptr := (List.range 8).map fun c => match nth s.lintel.lastAdm c none with
        | some p => (p + 1) % 24
        | none => nth s.lintel.ptr c 0 } }
  else s

def execRotatePointer (s : State) : Out := .next (gated (tickRun s) (fun s => rotatePointer (lintelSettle s)) s)

def updLine (k : Nat) (f : LineSt → LineSt) (s : State) : State :=
  { s with lintel := { s.lintel with lines := s.lintel.lines.modify k f } }

/-- OVERLOAD_WARNING (10 R257). -/
def overloadWarning (g l : Nat) (s : State) : State :=
  let k := nth s.lintel.lines (3 * g + l) {}
  if g < 4 && l < 3 then
    if !k.warn && decide (1 / 2 ≤ k.acc) then
      lintelEvent g l 1 0xFF (k.meas / 1000) (updLine (3 * g + l) (fun k => { k with warn := true }) s)
    else if k.warn && decide (k.acc = 0) then
      lintelEvent g l 2 0xFF (k.meas / 1000) (updLine (3 * g + l) (fun k => { k with warn := false }) s)
    else s
  else s

def execOverloadWarning (g l : Nat) (s : State) : Out := .next (gated (tickRun s) (fun s => overloadWarning g l (lintelSettle s)) s)

/-- The phase of a port that draws on line l of its group. -/
def phaseOn (s : State) (p l : Nat) : Nat := ((List.range 3).find? fun x => lineOf s p x == l).getD 0

/-- The ports that may be selected for a line, in the order of R258. -/
def stopOrder (s : State) (g l : Nat) : List Nat :=
  let cand := (List.range 24).filter fun p =>
    let q := getPort s p
    fitted s p && groupOf s p == g && anyOn q && nth q.li.use (phaseOn s p l) true && !stopping q
  let key := fun p => (7 - (getPort s p).li.prio, toMa10 (fastI2 s p (phaseOn s p l)), p)
  let before := fun a b =>
    let x := key a
    let y := key b
    decide (y.1 < x.1) || (x.1 == y.1 && (decide (y.2.1 < x.2.1) || (x.2.1 == y.2.1 && decide (y.2.2 ≤ x.2.2))))
  sortBy before cand

/-- The front of the order whose currents reach the excess, at least one port (10 R258). -/
def selectStops (s : State) (l need : Nat) : Nat → List Nat → List Nat
  | _, [] => []
  | got, p :: ps =>
    let g := got + toMa10 (fastI2 s p (phaseOn s p l))
    if need ≤ g then [p] else p :: selectStops s l need g ps

/-- FEEDER_OVERLOAD_STOP (10 R258, R259). -/
def feederStop (g l : Nat) (s : State) : State :=
  let k := nth s.lintel.lines (3 * g + l) {}
  if g < 4 && l < 3 && decide (1 ≤ k.acc) && k.sel.isEmpty then
    let need := k.meas - groupLimit s g l * (100 - stopMargin s) * 10
    let ps := selectStops s l need 0 (stopOrder s g l)
    let s1 := updLine (3 * g + l) (fun k => { k with sel := ps }) s
    ps.foldl (fun s p => lintelEvent g l 3 p (k.meas / 1000) (updPort p (fun q => { q with
      ss := { q.ss with pend := if q.ss.pend.contains 4 then q.ss.pend else q.ss.pend ++ [4] }
      li := { q.li with forced := true, kept := true } }) s)) s1
  else s

def execFeederOverloadStop (g l : Nat) (s : State) : Out := .next (gated (tickRun s) (fun s => feederStop g l (lintelSettle s)) s)

/-- The demand of the hub on a line: its ports' demands, capped by the group limits (10 R262). -/
def hubDemand (s : State) (l : Nat) : Nat :=
  (List.range 4).foldl (fun a g =>
    a + min (groupLimit s g l) ((List.range 24).foldl (fun a p =>
      if takesPart s p && groupOf s p == g && nth (getPort s p).li.use (phaseOn s p l) true then
        a + (getPort s p).li.demand else a) 0)) 0

/-- The grants of one line for the demands of the hubs (10 R263). -/
def grantsOf (limit fb : Nat) (ds : List Nat) : List Nat :=
  let total := ds.foldl (· + ·) 0
  let first := ds.map fun d => min d fb
  let sum := first.foldl (· + ·) 0
  if limit < sum then ds.map fun d => limit * d / total
  else
    let unmet := total - sum
    if unmet == 0 then first else ds.map fun d => min d fb + (limit - sum) * (d - min d fb) / unmet

/-- A share per line comes into force, with an event for each line that changes (10 R262, R267). -/
def setShare (share : List Nat) (source : Nat) (s : State) : State :=
  foldN 3 (fun l t => if siteShare s l != nth share l 0 then lintelEvent 0xFF l 4 0xFF (nth share l 0) t else t)
    { s with lintel := { s.lintel with share := share, source := source } }

/-- A grant taken by the rules for mixed epochs: only where it is lower than the share kept (10 R265, log 35). -/
def takeGrant (s : State) (g : List Nat) : List Nat :=
  if s.lintel.mixed then (List.range 3).map fun l => min (nth g l 0) (nth s.lintel.share l 0) else g

/-- The master's grants for the superframe that begins (10 R263, R265): by line, then by hub 1 to 32. -/
def masterGrants (s : State) : List (List Nat) :=
  (List.range 3).map fun l =>
    let ds := (List.range 32).map fun h =>
      if h + 1 == hubId s then hubDemand s l else nth (nth s.lintel.demands h (false, [])).2 l 0
    let gs := grantsOf (siteLimit s) (fallbackDa s) ds
    (List.range 32).map fun h =>
      match s.lintel.mixed, nth s.lintel.grants h none with
      | true, some old => min (nth gs h 0) (nth old l 0)
      | _, _ => nth gs h 0

/-- SUPERFRAME_START (10 R262 to R265, 17 R419): a grant heard in the superframe that ends applies; the master
computes its grants; counts of superframes go on. -/
def superframeStart (s : State) : State :=
  if s.lintel.due then
    let s1 := { s with lintel := { s.lintel with
      due := false
      superframe := s.lintel.superframe + 1
      conflict := s.lintel.conflict - 1
      since := satAdd 0xFFFF s.lintel.since 1
      lowHeard := s.lintel.lowHeard.map fun e => (e.1, e.2 + 1) } }
    let s2 := match budgetRole s, s.lintel.grant with
      | 0, _ => s1
      | _, none => s1
      | _, some g => setShare (takeGrant s g) (if s.lintel.mixed then 2 else 1) { s1 with lintel := { s1.lintel with
          grant := none, last := some g, since := 0 } }
    if budgetRole s == 2 && s.lintel.conflict == 0 && hubId s ≤ 12 then
      let gs := masterGrants s2
      let of := fun h => (List.range 3).map fun l => nth (nth gs l []) h 0
      { s2 with lintel := { s2.lintel with
        grants := (List.range 32).map fun h => some (of h)
        demands := s2.lintel.demands.map fun d => (false, d.2)
        grant := some (of (hubId s - 1)) } }
    else s2
  else s

def execSuperframeStart (s : State) : Out := .next (gated (tickRun s) superframeStart s)

/-- GRANT_FALLBACK (10 R264, R265, 17 R420): a member without a grant for 4 superframes, a hub in either role with a HUB_ID
above 12, and a master that yields use FALLBACK; while epochs are mixed a member keeps its last granted share. -/
def grantFallback (s : State) : State :=
  let r := budgetRole s
  if s.lintel.source != 3 && ((r == 1 && decide (4 ≤ s.lintel.since) && !(s.lintel.mixed && s.lintel.last.isSome)) || (r != 0 && decide (12 < hubId s)) ||
      (r == 2 && s.lintel.conflict != 0)) then
    foldN 3 (fun l s => lintelEvent 0xFF l 5 0xFF (fallbackDa s) s)
      { s with lintel := { s.lintel with source := 3 } }
  else s

def execGrantFallback (s : State) : Out := .next (gated (tickRun s) grantFallback s)

/-- Epochs are mixed no longer: a share that was kept counts as granted again (10 R265). -/
def mixOver (s : State) : State :=
  lintelEvent 0xFF 0 7 0xFF 0 { s with lintel := { s.lintel with
    mixed := false, lowHeard := none, source := if s.lintel.source == 2 then 1 else s.lintel.source } }

/-- EPOCH_MIX_END (10 R265). -/
def epochMixEnd (s : State) : State :=
  match s.lintel.mixed, s.lintel.lowHeard with
  | true, some (_, n) => if 4 ≤ n then mixOver s else s
  | true, none => mixOver s
  | false, _ => s

def execEpochMixEnd (s : State) : Out := .next (gated (tickRun s) epochMixEnd s)

/-- One port of LINTEL_STATUS (10 Table HA-7). -/
def lintelPort (s : State) (p : Nat) : List Byte :=
  let q := (getPort s p).li
  [byteOf p, byteOf q.prio, byteOf (bitsOf q.use),
   byteOf (bitsOf [q.admitted, q.recl, q.hold != 0, q.forced, takesPart s p && q.target == 0])] ++
  le 2 q.cap ++ le 2 q.demand ++ le 2 q.target ++ le 2 q.alloc ++ le 2 q.hold ++ le 2 q.hostMax

/-- One line of LINTEL_STATUS. -/
def lintelLine (s : State) (k : Nat) : List Byte :=
  let e := nth s.lintel.lines k {}
  le 2 (limitInForce s (k / 3) (k % 3)) ++ le 2 (e.meas / 1000) ++ le 2 (ratFloor (e.acc * 65535)).toNat ++
  [byteOf (if !e.sel.isEmpty then 2 else b2n e.warn), 0]

/-- LINTEL_STATUS (10 Table HA-7). -/
def lintelStatusBody (_ : List Byte) (s : State) : Served :=
  if !rdy s rKS then no 0x06F0 s
  else ok 0x0600 ((List.range 24).flatMap (lintelPort s) ++ (List.range 12).flatMap (lintelLine s) ++
    [byteOf (budgetRole s), byteOf (b2n s.lintel.mixed)] ++ le 2 s.lintel.epoch ++
    le 2 (siteShare s 0) ++ le 2 (siteShare s 1) ++ le 2 (siteShare s 2) ++
    [byteOf (shareSource s), 0] ++ le 2 s.lintel.since ++ zeros 2) s

def execLintelStatus (ch : Nat) (s : State) : Out := .next (serve 0x0601 (len 0) lintelStatusBody ch (lintelSettle s))

/-- LINTEL_SET (10 R266, Table HA-8). -/
def lintelSetBody (pl : List Byte) (s : State) : Served :=
  let p := fld pl 0 1
  let pr := fld pl 1 1
  let hm := fld pl 2 2
  if !rdy s rKS then no 0x06F0 s
  else if p > 23 || (pr > 7 && pr != 0xFF) || (hm > 800 && hm != 0xFFFF) then no 0x06F1 s
  else if !fitted s p then no 0x0610 s
  else
    let s1 := updPort p (fun q => { q with li := { q.li with
      prio := if pr == 0xFF then q.li.prio else pr
      hostMax := if hm == 0xFFFF then q.li.hostMax else hm } }) s
    let q := (getPort s1 p).li
    ok 0x0600 ([byteOf p, byteOf q.prio] ++ le 2 q.hostMax ++ le 2 (capOf s1 p) ++ zeros 2) s1

def execLintelSet (ch : Nat) (s : State) : Out := .next (serve 0x0602 (len 4) lintelSetBody ch (lintelSettle s))

/-- PRIORITY and HOST_MAX_A of the options in force (10 R261). -/
def applyOptions (s : State) : State :=
  eachPort (fun p s => updPort p (fun q => { q with li := { q.li with
    prio := tf s 0x0601 (8 * p) 1, hostMax := 10 * tf s 0x0601 (8 * p + 1) 1 } }) s) s

/-- A new feeder table takes effect: a hub that changes its role starts without a grant, and a share that changes is
reported (10 R262, R264, R267). -/
def budgetTable (old s : State) : State :=
  let s1 := if budgetRole old == budgetRole s then s
    else { s with lintel := { s.lintel with source := 0, grant := none, last := none, since := 0 } }
  foldN 3 (fun l t =>
    if siteShare old l == siteShare s1 l then t else lintelEvent 0xFF l 4 0xFF (siteShare s1 l) t) s1

/-- Table 0x4601 (10 R260). -/
def check4601 (b : List Byte) : Option Nat :=
  if (List.range 4).all (fun g => (List.range 4).all (fun k => within b (16 * g + 2 * k) 2 60 20000) &&
        allZero b (16 * g + 8) 8) &&
     (List.range 8).all (fun k => within b (64 + 6 * k) 2 105 1000 && within b (66 + 6 * k) 4 10 14400000) &&
     (List.range 7).all (fun k => decide (fld b (64 + 6 * k) 2 < fld b (70 + 6 * k) 2 ∧
        fld b (72 + 6 * k) 4 < fld b (66 + 6 * k) 4)) &&
     within b 112 2 1 3600 && within b 114 1 5 30 && within b 115 1 0 2 && within b 116 2 60 20000 &&
     decide (fld b 118 2 ≤ fld b 116 2) && within b 120 1 1 32 && allZero b 121 7 then none
  else some 0x0611

/-- Table 0x0601 (10 R261). -/
def check0601 (b : List Byte) : Option Nat :=
  if (List.range 24).all (fun p => within b (8 * p) 1 0 7 && within b (8 * p + 1) 1 0 80 &&
        within b (8 * p + 2) 1 6 80 && allZero b (8 * p + 3) 5) &&
     within b 192 2 5 100 && within b 194 2 10 100 && within b 196 2 5 50 && within b 198 2 0 3600 &&
     allZero b 200 8 then none
  else some 0x0611

end Sys2Proof.Machine
end

