-- ==== Sys2Proof/Machine/Contactor.lean ====
section
/-!
DEFINITION. Residual current and contactors: the per-tick work of Keystone for a port, the closing sequence, opening,
proving and faults (11).
-/

namespace Sys2Proof.Machine

/-- Codes per mA of the residual path (11 R268), in thousandths. -/
def irdMa (x : Rat) : Rat := x * 1000 / 6291456

/-- W: whole ticks of the last mains cycle (11 R269). -/
def cycleW (s : State) (p : Nat) : Nat :=
  let g := getGrp s (groupOf s p)
  if g.sub then 160 else g.cycTicks

/-- Mean and mean square about a mean of codes, mA. -/
def meanMa (l : List Int) : Rat :=
  if l.isEmpty then 0 else irdMa (((l.foldl (· + ·) 0 : Int) : Rat) / (l.length : Rat))
def spreadMa (m : Rat) (l : List Int) : Rat :=
  if l.isEmpty then 0
  else (l.foldl (fun (a : Rat) (v : Int) => a + (irdMa (v : Rat) - m) * (irdMa (v : Rat) - m)) 0) / (l.length : Rat)

/-- DC and AC value of a tick (11 R269). -/
def residualValues (s : State) (p : Nat) (q : Residual) : Residual :=
  let w := cycleW s p
  let m := meanMa (q.hist.take w)
  { q with dc := m - q.offset, ac2 := spreadMa m (q.hist.take (w / 2)) }

/-- Level and time of curve point k, 0 to 3 DC, 4 to 7 AC (11 Table RC-2). -/
def rcLevel (s : State) (p k : Nat) : Nat := rcTab s p (6 * k) 2
def rcTime (s : State) (p k : Nat) : Nat := rcTab s p (2 + 6 * k) 4

/-- The value of a curve is at or above a level in 0.1 mA. -/
def rcAbove (q : Residual) (dc : Bool) (level : Rat) : Bool :=
  if dc then decide (level ≤ 10 * max q.dc (-q.dc)) else decide (level * level ≤ 100 * q.ac2)

/-- The trip counters of one tick (11 R271). -/
def rcCount (s : State) (p : Nat) (q : Residual) : Residual :=
  { q with cnt := (List.range 8).map fun k =>
      let c := nth q.cnt k 0
      if rcLevel s p k == 0 then c
      else if rcAbove q (k < 4) (rcLevel s p k : Rat) then c + 1 else c - rcTab s p 48 1 }

/-- Residual current of one tick, with the sample that the lane delivers, none for a marker without a substitute, and
whether it was substituted (11 R269, R271, R275). -/
def residualTick (s : State) (p : Nat) (x : Option (Int × Bool)) (q : Port) : Port :=
  let off := !anyOn q && decide (q.ct.step ≤ 1 ∧ q.ct.cmdTick + 8 * rcTab s p 58 2 ≤ now s)
  let r0 := q.rc
  let r1 := match x with
    | some v => residualValues s p { r0 with hist := (v.1 :: r0.hist).take 178, skip := false }
    | none => { r0 with skip := true }
  let armed := r1.armed && !off
  let r2 := if armed && !r1.skip then rcCount s p r1 else r1
  let half := fun dc => rcAbove r2 dc ((rcLevel s p (if dc then 0 else 4) : Rat) / 2)
  let inWin := q.ct.stage == 1
  { q with rc := { r2 with
      armed := armed
      first := r2.first && armed
      calm := if half true || half false then 0 else r2.calm + 1
      win := if inWin then (match x with
        | some v => v.1 :: r2.win
        | none => r2.win) else r2.win
      winBad := r2.winBad || (inWin && (match x with
        | some v => v.2
        | none => true))
      trip := if r2.clearing then 0 else r2.trip
      clearing := false } }

/-- The pattern of a CFB code, 0xFF for none (11 Table RC-5). -/
def cfbPattern (code : Nat) : Nat :=
  ((List.range 8).find? fun k =>
    nth [273, 728, 1183, 1638, 2094, 2549, 3004, 3459] k 0 ≤ code &&
    code ≤ nth [637, 1092, 1547, 2002, 2458, 2913, 3368, 3823] k 0).getD 0xFF

/-- Sampling time of CFB conversion m of a port within its tick, in quarter microseconds (05 R152, R153). -/
def cfbTime (p m : Nat) : Nat :=
  let j := 6 * m + 5
  4 * (if p < 20 then 5 * j + p % 5 else 4 * j + (p - 20)) + 1

/-- The time of a conversion of the tick before, counted from the start of the tick of the pulse. -/
def sincePulse (s : State) (p m : Nat) (q : Contactor) : Nat := 500 * (now s - 1 - q.pulseTick) + cfbTime p m

/-- The last switch edge that Keystone commanded, and a conversion of the tick before, in quarter microseconds since tick
0. The edge falls into the 1 to 95 us of Keystone's work, at a time that the spec leaves open (02 Table TK-3, log 36). -/
def edgeAt (q : Contactor) : Nat := 500 * q.cmdTick + 4 + Config.edgeTime q.cmdTick % 377
def convAt (s : State) (p m : Nat) : Nat := 500 * (now s - 1) + cfbTime p m

/-- A conversion is taken within 40 us after a commanded edge (11 R279). -/
def afterEdge (s : State) (p m : Nat) (q : Contactor) : Bool :=
  q.cmdTick != 0 && decide (q.cmdTick < now s ∧ now s ≤ q.cmdTick + 2) &&
  decide (edgeAt q ≤ convAt s p m ∧ convAt s p m < edgeAt q + 160)

/-- A pulse is in progress at a conversion or its edge is less than 40 us old: 0 no, 1 qualified, 2 not counting,
3 after it (11 R279, R285). Of a pulse that a commanded edge cut short, what came before that edge does not count. -/
def pulsePart (s : State) (p m : Nat) (q : Contactor) : Nat :=
  let t := sincePulse s p m q
  let stop := 40 + 4 * rcTab s p 62 2
  if q.pulseTick == 0 || now s ≤ q.pulseTick || t < 40 then 0
  else if q.pulse == 0 then
    (if decide (q.pulseTick ≤ q.cmdTick) && t < stop + 160 && decide (convAt s p m < edgeAt q) then 2 else 0)
  else if t < 200 then 2 else if t < stop then 1 else if t < stop + 160 then 2 else 3

/-- The conversions of the tick before are decoded; the tick state follows (11 R279, R285). -/
def cfbTick (s : State) (p : Nat) (codes : List Nat) (q : Contactor) : Contactor :=
  let pats := (List.range codes.length).map fun m =>
    (if afterEdge s p m q then 2 else pulsePart s p m q, cfbPattern (nth codes m 0))
  let counting := (pats.filter fun e => e.1 == 0 || e.1 == 3).map Prod.snd
  let st := if counting.length < 2 then q.cfb
    else ((counting.find? fun v => 3 ≤ (counting.filter fun w => w == v).length).getD 0xFE)
  let after := (pats.filter fun e => e.1 == 3).map Prod.snd
  { q with
    cfb := st
    cfbN := if st == q.cfb then q.cfbN + 1 else 1
    cfbHist := (st :: q.cfbHist).take 16
    pulseQ := q.pulseQ ++ (pats.filter fun e => e.1 == 1).map Prod.snd
    pulseAfter := q.pulseAfter ++ after
    pulseDue := q.pulseDue || !after.isEmpty }

/-- The state expected in steps 3 to 6 (11 R280). -/
def stepExpects (step : Nat) : Nat := if step == 3 then 5 else if step == 5 then 6 else 4

/-- The closing sequence and the drop of one tick (11 R280, Table RC-10). -/
def sequenceTick (s : State) (p : Nat) (q : Port) : Port :=
  let c := { q.ct with
    stepN := if q.ct.step == 0 then 0 else q.ct.stepN + 1
    vVaux := q.ct.vVaux && vauxNow s < 9000
    notOpen := q.ct.notOpen && nth s.clk.ksWord.req p false
    retry := if nth s.clk.ksWord.req p false then q.ct.retry else none }
  if c.stage == 1 && c.cfb != 4 then
    { q with ct := { c with stage := 0, step := 0, stepN := 0, notOpen := true }, rc := { q.rc with win := [] } }
  else if 3 ≤ c.step ∧ c.step ≤ 6 then
    { q with ct := { c with stepBad := c.stepBad || (decide (2 ≤ c.stepN) && c.cfb != stepExpects c.step) } }
  else if c.stage == 6 && !stopping q && decide (c.cmdTick + 8 * rcTab s p 58 2 ≤ now s) then
    { q with ct := { c with stage := 0 } }
  else { q with ct := c }

/-- The safe stop's counters of one tick (12 R301). A phase with a failed stream, of its current or of its voltage, counts as
neither (05 R149). -/
def stopTick (s : State) (p : Nat) (q : Port) : Port :=
  if stopping q && q.ss.start < now s then
    let t := (now s - q.ss.start) / 8
    let pt := fun k off len => fld q.ss.tbl (8 * k + off) len
    let k := ((List.range 8).filter fun k => pt k 0 2 != 0xFFFF && pt k 0 2 ≤ t).getLast?.getD 0
    let live := fun x => !(getStream s (iStream p x)).failed && !(getStream s (uStream (groupOf s p) (lineOf s p x))).failed
    let pct : Rat := (pt k 2 1 : Rat) / 100
    let env := max (q.ss.i0 * pct * pct) (da2 (pt k 4 2))
    let i2 := fun x => nth s.clk.ksWord.cur (3 * p + x) 0
    let below := (List.range 3).all fun x => live x && decide (i2 x < da2 5)
    let above := (List.range 3).any fun x => live x && decide (env < i2 x)
    { q with ss := { q.ss with
        ticks := now s - q.ss.start
        low := if below then q.ss.low + 1 else 0
        overN := if above then q.ss.overN + 1 else 0 } }
  else q

/-- The tick states of the last n ticks all lie in a set. -/
def heldIn (q : Contactor) (n : Nat) (set : List Nat) : Bool :=
  decide (n ≤ q.cfbHist.length) && (q.cfbHist.take n).all fun v => set.contains v

def cfbDeb (s : State) (p : Nat) : Nat := rcTab s p 71 1

/-- A fault that fences: after the safe stop of a port with a switch closed, else at once (11 R286). -/
def faultStop (p cause code : Nat) (s : State) : State := startStop p cause (some (1, code, false)) s

/-- Both switches off without a safe stop (11 Table RC-7 "both off"). -/
def bothOff (p : Nat) (s : State) : State :=
  updPort p (fun q => { q with
    ct := { q.ct with stage := 6, step := 0, stepN := 0, stepBad := false, opening := none } })
    (setSwitches p false false s)

/-- CLOSE_FAIL: both off, retry after 10 s, fence after CLOSE_FAIL_MAX in a row (11 R280). -/
def closeFail (p : Nat) (s : State) : State :=
  let q := getPort s p
  let s1 := rcEvent p 5 q.ct.cfb 0 s
  let top := rcTab s p 72 1
  let s2 := bothOff p s1
  let s3 := updPort p (fun q => { q with ct := { q.ct with closeN := q.ct.closeN + 1, retry := some (now s + 80000) } }) s2
  if top ≤ q.ct.closeN + 1 then fencePort p 0x0B false 1 5 (updPort p (fun q => { q with ct := { q.ct with closeN := 0 } }) s3)
  else s3

/-- A dropout while conducting: VAUX_DROP while VAUX is below 9 V, else CLOSE_FAIL (11 Table RC-7). -/
def dropout (p : Nat) (s : State) : State :=
  if vauxNow s < 9000 then
    updPort p (fun q => { q with ct := { q.ct with vVaux := true } }) (bothOff p (rcEvent p 0x0E (getPort s p).ct.cfb 0 s))
  else closeFail p s

/-- A fault with a veto (11 Table RC-7): it is reported once while it lasts. -/
def vetoFault (p cause code : Nat) (s : State) : State :=
  let q := getPort s p
  if q.ct.vFault && q.ct.fault == code then s
  else
    let s1 := rcEvent p code q.ct.cfb 0 s
    let s2 := updPort p (fun q => { q with ct := { q.ct with
      vFault := true
      cfbFault := q.ct.cfbFault || code == 0x0A, mirror := q.ct.mirror || code == 0x0B
      welded := q.ct.welded || code == 0x0C } }) s1
    faultStop p cause code s2

/-- RESIDUAL_STREAM: the IRD stream of a port has failed (05 R149, 11 Table RC-7). -/
def residualStream (p : Nat) (s : State) : State :=
  let s1 := rcEvent p 0x0D (getPort s p).ct.cfb 0 s
  let s2 := updPort p (fun q => { q with ct := { q.ct with vFault := true } }) s1
  startStop p 0x10 (some (2, 4 * p + 3, false)) (endSequence p s2)

/-- Points that have reached their time and have not tripped in this arming (11 R271). -/
def newTrips (s : State) (p : Nat) (q : Residual) : List Nat :=
  (List.range 8).filter fun k =>
    q.armed && rcLevel s p k != 0 && !nth q.tripped k false && nth q.cnt k 0 > 0 &&
    decide (8 * rcTime s p k ≤ nth q.cnt k 0)

/-- Residual value in 0.01 mA. -/
def rcValue (q : Residual) (k : Nat) : Nat :=
  if k < 4 then (rnd 32 (100 * max q.dc (-q.dc))).toNat else rndSqrt 5 (10000 * q.ac2)

/-- RC_TRIP (11 R271, R273, Table RC-8). -/
def rcTrip (p : Nat) (s : State) : State :=
  let q := getPort s p
  match newTrips s p q.rc with
  | [] => s
  | k :: ks =>
    let s1 := (k :: ks).foldl (fun s k =>
      rcEvent p (if k < 4 then 1 else 2) (k % 4) (rcValue q.rc k)
        (updPort p (fun q => { q with rc := { q.rc with tripped := q.rc.tripped.set k true } }) s)) s
    if q.rc.first then s1
    else
      let s2 := updPort p (fun q => { q with rc := { q.rc with first := true, trip := if k < 4 then 1 else 2 } }) s1
      startStop p 0x10 none (if anyOn q then s2 else endSequence p s2)

def execRcTrip (p : Nat) (s : State) : Out := .next (gated (ksRun s) (rcTrip p) s)

/-- Nothing of Table AR-4 forbids conduction and the request stands; after a sequence that CFB ended it has read OPEN for
CFB_DEB ticks (11 R280). -/
def mayClose (s : State) (p : Nat) : Bool :=
  let q := getPort s p
  q.hs.req && rdy s rKS && rdy s p && !portFenced s p && !vetoed s p && !stopping q && q.ss.pend.isEmpty &&
  q.se.credit != 4 && !anyOn q && q.ct.stage == 0 && q.ct.step == 0 &&
  (!q.ct.notOpen || (q.ct.cfb == 4 && decide (cfbDeb s p ≤ q.ct.cfbN)))

/-- Step 1 of the closing sequence (11 Table RC-6). -/
def beginSequence (p : Nat) (s : State) : State :=
  updPort p (fun q => { q with
    ct := { q.ct with stage := 1, step := 1, stepN := 0, stepBad := false, notOpen := false, retry := none }
    rc := { q.rc with win := [], winBad := false } }) s

/-- CLOSING_SEQUENCE (11 R280). -/
def closingSequence (p : Nat) (s : State) : State :=
  let q := getPort s p
  if mayClose s p && q.ct.retry.isNone then beginSequence p s else s

def execClosingSequence (p : Nat) (s : State) : Out := .next (gated (ksRun s) (closingSequence p) s)

/-- The plausibility window passes (11 R275). -/
def plausOk (s : State) (p : Nat) (q : Residual) : Bool :=
  let m := meanMa q.win
  let n2 := spreadMa m q.win
  let lo : Rat := (rcTab s p 52 2 : Nat)
  let hi : Rat := (rcTab s p 54 2 : Nat)
  !q.winBad && decide (q.win.length = 512) && decide (100 * max m (-m) ≤ ((rcTab s p 50 2 : Nat) : Rat)) &&
  decide (lo * lo ≤ 10000 * n2 ∧ 10000 * n2 ≤ hi * hi)

/-- The plausibility check of a fenced port, run for the lift of its fence, ends (25 Table SP-2). -/
def liftPlaus (p : Nat) (ok : Bool) (s : State) : State :=
  updPort p (fun q => { q with
    ct := { q.ct with stage := 0, step := 0, stepN := 0 }, rc := { q.rc with win := [] }
    liftRuns := b2n ok, liftAt := some (now s) }) s

/-- PLAUS_JUDGE (11 R275, R276): on a pass OFFSET is stored and the counters are armed. -/
def plausJudge (p : Nat) (s : State) : State :=
  let q := getPort s p
  if q.ct.stage == 1 && 512 ≤ q.ct.stepN && portFenced s p then liftPlaus p (plausOk s p q.rc) s
  else if q.ct.stage == 1 && 512 ≤ q.ct.stepN then
    let m := meanMa q.rc.win
    let n2 := spreadMa m q.rc.win
    if plausOk s p q.rc then
      updPort p (fun q => { q with
        ct := { q.ct with stage := 2, step := 2, stepN := 0, plausN := 0 }
        rc := { q.rc with
          offset := m, noise2 := n2, win := [], armed := true, first := false
          cnt := List.replicate 8 0, tripped := List.replicate 8 false } }) s
    else
      let s1 := rcEvent p 3 q.ct.cfb 0 (updPort p (fun q => { q with
        ct := { q.ct with stage := 0, step := 0, stepN := 0, plausN := q.ct.plausN + 1, retry := some (now s + 80000) }
        rc := { q.rc with noise2 := n2, win := [] } }) s)
      if 3 ≤ q.ct.plausN + 1 then
        fencePort p 0x0B false 1 3 (updPort p (fun q => { q with ct := { q.ct with plausN := 0 } }) s1)
      else s1
  else s

def execPlausJudge (p : Nat) (s : State) : Out := .next (gated (ksRun s) (plausJudge p) s)

/-- The next step of a switch test (11 Table RC-6): step number and switches. -/
def nextStep (p step : Nat) (s : State) : State :=
  let on : Bool × Bool := match step with
    | 3 => (false, true)
    | 5 => (true, false)
    | 7 => (true, true)
    | _ => (false, false)
  updPort p (fun q => { q with ct := { q.ct with
    step := step, stepN := 0, stepBad := false, stage := if step == 7 then 3 else 2
    closings := if step == 7 then sat32 q.ct.closings else q.ct.closings } }) (setSwitches p on.1 on.2 s)

/-- Ticks of a step (11 R280). -/
def stepLen (s : State) (p step : Nat) : Nat :=
  match step with
  | 2 => 1
  | 3 | 5 => 8 * rcTab s p 60 2
  | _ => 32

/-- A run of steps 3 to 6 on a fenced port has passed (25 Table SP-2). -/
def liftRun (p : Nat) (s : State) : State :=
  updPort p (fun q => { q with
    ct := { q.ct with stage := 0, step := 0, stepN := 0, stepBad := false }
    liftRuns := q.liftRuns + 1, liftAt := some (now s) }) (setSwitches p false false s)

/-- CLOSING_STEP_TIMER (11 R280). While a safe stop runs, no further step follows. -/
def closingStep (p : Nat) (s : State) : State :=
  let q := getPort s p
  if q.ct.stage == 2 && !stopping q then
    if q.ct.stepBad then
      fencePort p 0x0B false 1 4 (bothOff p (rcEvent p 4 q.ct.cfb 0 s))
    else if stepLen s p q.ct.step ≤ q.ct.stepN && q.ct.step == 6 && portFenced s p then liftRun p s
    else if stepLen s p q.ct.step ≤ q.ct.stepN then nextStep p (q.ct.step + 1) s
    else s
  else s

def execClosingStepTimer (p : Nat) (s : State) : Out := .next (gated (ksRun s) (closingStep p) s)

/-- PULL_IN_DEADLINE (11 R280). -/
def pullIn (p : Nat) (s : State) : State :=
  let q := getPort s p
  if q.ct.stage == 3 && decide (8 * rcTab s p 56 2 ≤ q.ct.stepN) then
    if q.ct.cfb == 3 then
      updPort p (fun q => { q with ct := { q.ct with stage := 4, step := 0, stepN := 0, closeN := 0, incH := 0, incL := 0 } }) s
    else closeFail p s
  else s

def execPullInDeadline (p : Nat) (s : State) : Out := .next (gated (ksRun s) (pullIn p) s)

/-- CLOSE_RETRY (11 R276, R280). -/
def closeRetry (p : Nat) (s : State) : State :=
  match (getPort s p).ct.retry with
  | some t =>
    if t ≤ now s then
      let s1 := updPort p (fun q => { q with ct := { q.ct with retry := none } }) s
      if mayClose s1 p then beginSequence p s1 else s1
    else s
  | none => s

def execCloseRetry (p : Nat) (s : State) : Out := .next (gated (ksRun s) (closeRetry p) s)

/-- The side whose off-pulse starts in this tick: 1 high, 2 low (11 R284). -/
def pulseSide (s : State) (p : Nat) : Option Nat :=
  let period := 8 * rcTab s p 64 2
  let n := now s + 2 * period
  if (n - 2 * p) % period == 0 then some 1
  else if (n - 2 * p - period / 2) % period == 0 then some 2
  else none

/-- A proof is judged (11 R285). -/
def judgePulse (p : Nat) (s : State) : State :=
  let q := getPort s p
  let hs := q.ct.pulse == 1
  let want := if hs then 1 else 2
  let n := q.ct.pulseQ.length
  let closed := (q.ct.pulseQ.filter fun v => v == 3).length
  let inc := if hs then q.ct.incH else q.ct.incL
  let setInc := fun k => updPort p (fun q => { q with ct := { q.ct with
    pulse := 0, pulseDue := false, pulseQ := [], pulseAfter := [], proofs := sat32 q.ct.proofs
    incH := if hs then k else q.ct.incH, incL := if hs then q.ct.incL else k } }) s
  let s1 :=
    if 3 ≤ n && q.ct.pulseQ.all (fun v => v == want) then setInc 0
    else if 0 < n && n ≤ 2 * closed then vetoFault p 0x11 (if hs then 6 else 7) (setInc 0)
    else if 1 ≤ inc then
      faultStop p 0x0B 8 (rcEvent p 8 q.ct.cfb 0 (setInc 0))
    else setInc (inc + 1)
  let bad := fun l => q.ct.pulseAfter.any fun v => l.contains v
  if bad [want] then faultStop p 0x0B 9 (rcEvent p 9 q.ct.cfb 0 s1)
  else if bad [4, 5, 6, 7] && portOn s1 p then dropout p s1
  else s1

/-- SWITCH_PROOF_PULSE (11 R284, R285): a due pulse starts, or a pulse whose conversions are in is judged. In the tick in
which the request ends no pulse starts: both switches go off (11 Table RC-8, log 140). -/
def proofPulse (p : Nat) (s : State) : State :=
  let q := getPort s p
  if q.ct.pulse != 0 then (if q.ct.pulseDue then judgePulse p s else s)
  else if p < 24 && (q.ct.stage == 4 || q.ct.stage == 5) && q.ct.chs && q.ct.cls && q.ss.stage != 2 then
    match pulseSide s p with
    | some side =>
      if q.hs.reqOff == some (now s) then
        (if q.ss.stage == 1 then removeEnergy p q.ss.cause 4 s else bothOff p s)
      else updPort p (fun q => { q with ct := { q.ct with
        pulse := side, pulseTick := now s, pulseQ := [], pulseAfter := [], pulseDue := false } }) s
    | none => s
  else s

def execSwitchProofPulse (p : Nat) (s : State) : Out := .next (gated (ksRun s) (proofPulse p) s)

/-- A fault found while conducting that stops the port; while its stop runs it is not reported again. -/
def driveFault (p code : Nat) (s : State) : State :=
  let q := getPort s p
  if stopping q && q.ct.fault == code then s else faultStop p 0x0B code (rcEvent p code q.ct.cfb 0 s)

/-- CFB_FAULT_DETECT (11 Table RC-7): the tick states while conducting, and those held for CFB_DEB ticks while idle. -/
def cfbFaultDetect (p : Nat) (s : State) : State :=
  let q := getPort s p
  let n := cfbDeb s p
  let c := q.ct
  if p < 24 then
    if (c.stage == 4 || c.stage == 5) && anyOn q then
      if (c.cfb == 1 || c.cfb == 2) && c.pulse == 0 then driveFault p 9 s
      else if c.cfb == 0 then driveFault p 9 s
      else if heldIn c n [0xFE, 0xFF] then vetoFault p 0x0B 0x0A s
      else if decide (4 ≤ c.cfb ∧ c.cfb ≤ 7) then dropout p s
      else s
    else if !anyOn q && decide (c.step ≤ 2) then
      if decide (c.cmdTick + n ≤ now s) && heldIn c n [6, 2] then vetoFault p 0x11 6 s
      else if decide (c.cmdTick + n ≤ now s) && heldIn c n [5, 1] then vetoFault p 0x11 7 s
      else if decide (c.cmdTick + 8 * rcTab s p 58 2 + n ≤ now s) && heldIn c n [0xFE, 0xFF] then vetoFault p 0x0B 0x0A s
      else s
    else s
  else s

def execCfbFaultDetect (p : Nat) (s : State) : Out := .next (gated (ksRun s) (cfbFaultDetect p) s)

/-- The highest cycle Irms of a port, 0.1 mA. -/
def topCyc (s : State) (p : Nat) : Nat := toMa10 (max (cycI2 s p 0) (max (cycI2 s p 1) (cycI2 s p 2)))

/-- A weld or mirror fault: the fence follows the stop, which ends with the fault (11 R283, 12 R302). -/
def weldFault (p code value : Nat) (s : State) : State :=
  let s1 := rcEvent p code (getPort s p).ct.cfb value s
  let s2 := updPort p (fun q => { q with ct := { q.ct with
    vFault := true, welded := q.ct.welded || code == 0x0C, mirror := q.ct.mirror || code == 0x0B } }) s1
  if (getPort s p).ss.stage == 2 then endStop p false (keepFence p (some (1, code, false)) s2)
  else fencePort p 0x0B false 1 code s2

/-- WELD_CHECK (11 R283). -/
def weldCheck (p : Nat) (s : State) : State :=
  let q := getPort s p
  let n := cfbDeb s p
  let t := q.ct.cmdTick + 8 * rcTab s p 58 2
  if p < 24 && !anyOn q && decide (t ≤ now s) then
    if q.ct.weldN.any (fun k => decide (rcTab s p 70 1 ≤ k)) && !q.ct.welded then weldFault p 0x0C (topCyc s p) s
    else if decide (t + n ≤ now s) && heldIn q.ct n [3, 7] && !q.ct.welded then weldFault p 0x0C (topCyc s p) s
    else if decide (t + n ≤ now s) && heldIn q.ct n [0] && !q.ct.mirror && !q.ct.welded then weldFault p 0x0B 0 s
    else s
  else s

def execWeldCheck (p : Nat) (s : State) : Out := .next (gated (ksRun s) (weldCheck p) s)

/-- Every phase's fast Irms is below 0.5 A. -/
def allLow (s : State) (p : Nat) : Bool := (List.range 3).all fun x => decide (fastI2 s p x < da2 5)

/-- OPEN_ON_LOW_CURRENT (11 R282). -/
def openOnLow (p : Nat) (s : State) : State :=
  if (getPort s p).ct.opening.isSome && allLow s p then bothOff p s else s

def execOpenOnLowCurrent (p : Nat) (s : State) : Out := .next (gated (ksRun s) (openOnLow p) s)

/-- OPEN_UNDER_LOAD (11 R282). -/
def openUnderLoad (p : Nat) (s : State) : State :=
  match (getPort s p).ct.opening with
  | some t =>
    if t + 8 * rcTab s p 66 2 ≤ now s then
      bothOff p (rcEvent p 0x0F (getPort s p).ct.cfb (toMa10 (topFastI2 s p)) s)
    else s
  | none => s

def execOpenUnderLoad (p : Nat) (s : State) : Out := .next (gated (ksRun s) (openUnderLoad p) s)

/-- A rational with sign in a field of k bytes. -/
def leR (k : Nat) (x : Rat) : List Byte := leI k (rnd 6 x)

/-- One entry of RC_STATUS (11 Table RC-10). -/
def rcEntry (s : State) (p : Nat) : List Byte :=
  let q := getPort s p
  [byteOf p, byteOf (bitsOf [q.ct.chs, q.ct.cls, q.ct.pulse != 0]), byteOf q.ct.cfb, byteOf q.ct.stage] ++
  leR 4 (100 * q.rc.dc) ++ le 4 (rndSqrt 5 (10000 * q.rc.ac2)) ++ leR 2 (100 * q.rc.offset) ++
  le 2 (rndSqrt 5 (10000 * q.rc.noise2)) ++ [byteOf q.rc.trip, byteOf q.ct.fault] ++
  le 2 (bitsOf [vetoed s p, portFenced s p, q.rc.armed, q.ct.welded || q.ct.mirror]) ++
  le 4 q.ct.proofs ++ le 4 q.ct.closings

/-- RC_STATUS (11 Table RC-10). -/
def rcStatusBody (pl : List Byte) (s : State) : Served :=
  let p := fld pl 0 1
  if !rdy s rKS then no 0x07F0 s
  else if p > 23 && p != 0xFF then no 0x07F1 s
  else if p != 0xFF && !fitted s p then no 0x0710 s
  else ok 0x0700 (counted s rcEntry (portsNamed s p)) s

def execRcStatus (ch : Nat) (s : State) : Out := .next (serve 0x0701 (len 4) rcStatusBody ch s)

/-- Successful clears of the last 24 h (11 R274). -/
def clears24 (s : State) (q : Residual) : List Nat := q.clears.filter fun t => decide (now s < t + 691200000)

/-- RC_CLEAR (11 Table RC-11). -/
def rcClearBody (pl : List Byte) (s : State) : Served :=
  let p := fld pl 0 1
  let q := (getPort s p).rc
  let top := rcTab s p 49 1
  if !rdy s rKS then no 0x07F0 s
  else if p > 23 then no 0x07F1 s
  else if !fitted s p then no 0x0710 s
  else if q.trip == 0 || q.clearing then no 0x0711 s
  else if top ≤ (clears24 s q).length then no 0x0712 s
  else if q.calm < 80000 then no 0x0713 s
  else
    let cs := now s :: clears24 s q
    ok 0x0700 [byteOf p, byteOf (top - cs.length), 0, 0]
      (updPort p (fun q => { q with rc := { q.rc with clearing := true, clears := cs } }) s)

def execRcClear (ch : Nat) (s : State) : Out := .next (serve 0x0702 (len 4) rcClearBody ch s)

/-- Levels of a curve: 0 unused or in range, used levels rising, times of used points falling (11 Table RC-2). -/
def checkCurve (b : List Byte) (o : Nat) : Bool :=
  let used := (List.range 4).filter fun k => fld b (o + 6 * k) 2 != 0
  let lv := used.map fun k => fld b (o + 6 * k) 2
  let tm := used.map fun k => fld b (o + 6 * k + 2) 4
  fld b o 2 != 0 && lv.all (fun v => decide (10 ≤ v ∧ v ≤ 3000)) &&
  (List.range 4).all (fun k => decide (fld b (o + 6 * k + 2) 4 ≤ 9000)) &&
  (lv.zip (lv.drop 1)).all (fun e => decide (e.1 < e.2)) && (tm.zip (tm.drop 1)).all (fun e => decide (e.2 < e.1))

/-- Table 0x4701 (11 R270). -/
def check4701 (b : List Byte) : Option Nat :=
  if checkCurve b 0 && decide (fld b 0 2 ≤ 60) && checkCurve b 24 && within b 48 1 1 8 && within b 49 1 0 10 &&
     within b 50 2 50 300 && within b 52 2 5 100 && decide (fld b 52 2 + 10 ≤ fld b 54 2 ∧ fld b 54 2 ≤ 500) &&
     within b 56 2 20 200 && within b 58 2 20 200 && within b 60 2 4 20 && within b 62 2 150 300 &&
     within b 64 2 20 100 && within b 66 2 10 100 && within b 68 2 3 50 && within b 70 1 2 20 && within b 71 1 2 16 &&
     within b 72 1 1 5 && allZero b 73 23 then none
  else some 0x0714

end Sys2Proof.Machine
end

