-- ==== Sys2Proof/Machine/CalRec.lean ====
section
/-!
DEFINITION. The calibration records and their composition into the banks of a lane (07 R189, R190, R196).
-/

namespace Sys2Proof.Machine

/-- A record with its CRC-32 in the last four bytes. -/
def sealRec (b : List Byte) : List Byte := b ++ le 4 (crc32 b)
def recOk (n : Nat) (b : List Byte) : Bool := b.length == n && crc32 (b.take (n - 4)) == fld b (n - 4) 4

/-- The default records (07 Tables CA-3, CA-4), with the binding of the map given. -/
def defPort (p g r : Nat) : List Byte :=
  sealRec ([byteOf p, byteOf g, byteOf r, 0] ++ zeros 12 ++ (List.replicate 6 unitBlock).flatten ++ zeros 4)
def defGroup (g : Nat) : List Byte := sealRec ([byteOf g, 0] ++ zeros 10 ++ q30 ++ q30 ++ q30 ++ q30)

/-- A copy as found in MRAM: an empty one is the record of manufacture (07 R189, log 6). -/
def portCopy (p : Nat) (b : List Byte) : List Byte := if b.isEmpty then defPort p (p / 6) 0 else b
def groupCopy (g : Nat) (b : List Byte) : List Byte := if b.isEmpty then defGroup g else b

/-- The copy in use of two: the valid one with the higher CAL_VERSION, none when neither is valid (07 R189). -/
def pickCopy (n : Nat) (a b : List Byte) : Option (List Byte) :=
  match recOk n a, recOk n b with
  | true, true => if fld a 4 4 < fld b 4 4 then some b else some a
  | true, false => some a
  | false, true => some b
  | false, false => none

def portCopies (s : State) (p : Nat) : List Byte × List Byte :=
  let c := nth s.cal.port p ([], [])
  (portCopy p c.1, portCopy p c.2)
def groupCopies (s : State) (g : Nat) : List Byte × List Byte :=
  let c := nth s.cal.group g ([], [])
  (groupCopy g c.1, groupCopy g c.2)

/-- The record of a port and of a group in use (07 R189). -/
def portRec (s : State) (p : Nat) : List Byte :=
  let c := portCopies s p
  (pickCopy 192 c.1 c.2).getD (defPort p (groupOf s p) (rotOf s p))
def groupRec (s : State) (g : Nat) : List Byte :=
  let c := groupCopies s g
  (pickCopy 32 c.1 c.2).getD (defGroup g)

/-- Neither copy is valid. -/
def portLost (s : State) (p : Nat) : Bool := (pickCopy 192 (portCopies s p).1 (portCopies s p).2).isNone
def groupLost (s : State) (g : Nat) : Bool := (pickCopy 32 (groupCopies s g).1 (groupCopies s g).2).isNone

/-- A record is valid for service (07 R190). -/
def portRecOk (s : State) (p : Nat) : Bool :=
  let r := portRec s p
  !portLost s p && (fld r 3 1).testBit 0 && fld r 1 1 == groupOf s p && fld r 2 1 == rotOf s p
def groupRecOk (s : State) (g : Nat) : Bool := !groupLost s g && (fld (groupRec s g) 1 1).testBit 0

/-- A port's calibration set passes (07 R190). -/
def calPasses (s : State) (p : Nat) : Bool := portRecOk s p && groupRecOk s (groupOf s p)

/-- The bank that the records, the band and the table in force compose for a port (07 R196). -/
def composed (s : State) (p : Nat) : Bank :=
  { port := portRec s p, group := groupRec s (groupOf s p), band := s.cal.band, temp := tab s 0x4401 }

/-- Composition into the shadow bank starts for a port; it takes at most 4 ticks (07 R196). A bank already marked for
the end of this tick still swaps, and the new composition follows it. -/
def compose (p : Nat) (s : State) : State :=
  let b := composed s p
  let old := nth s.cal.banks p {}
  if old.shadow.isNone && old.active == b then s
  else { s with cal := { s.cal with banks := s.cal.banks.modify p fun k =>
    if k.swap then { k with more := some (b, 4) } else { k with shadow := some (b, 4) } } }
def composeAll (s : State) : State := eachPort compose s
def composeGroup (g : Nat) (s : State) : State := eachPort (fun p s => if groupOf s p == g then compose p s else s) s

/-- The composition goes on by one tick; a shadow bank marked at the last boundary swaps (07 R196, R197). -/
def bankTick (n : Nat) (k : Banks) : Banks :=
  let old := k.old.filter fun o => decide (n < o.1 + 128)
  match k.shadow with
  | some (b, c) =>
    if k.swap then { active := b, shadow := k.more.map fun m => (m.1, m.2 - 1), swap := false, old := (n, k.active) :: old }
    else { k with shadow := some (b, c - 1), old := old }
  | none => { k with swap := false, old := old }

/-- At a crossing of the group a complete shadow bank is marked for the end of the tick (07 R196). -/
def markSwap (g : Nat) (s : State) : State :=
  eachPort (fun p s => if groupOf s p == g then
      { s with cal := { s.cal with banks := s.cal.banks.modify p fun k => { k with
          swap := match k.shadow with
            | some (_, 0) => true
            | _ => false } } }
    else s) s

/-- The bank by which the lines of a group are judged: that of its first fitted port, or its records. -/
def grpBank (s : State) (g : Nat) : Bank :=
  match (List.range 24).find? fun p => fitted s p && groupOf s p == g with
  | some p => bankOf s p
  | none => { group := groupRec s g, band := s.cal.band, temp := tab s 0x4401 }

end Sys2Proof.Machine
end

