-- ==== Sys2Proof/Machine/Decimate.lean ====
section
/-!
DEFINITION. The decimation chain from modulator bits to samples (05 R131, R134, R135).
-/

namespace Sys2Proof.Machine

/-- Tap i = 0 to 381 of the sinc³ decimator of ratio 128: three moving sums of 128 in a row (05 R134). -/
def sincTap (i : Nat) : Nat :=
  if i < 128 then (i + 1) * (i + 2) / 2
  else if i < 256 then (i + 1) * (i + 2) / 2 - 3 * ((i - 127) * (i - 126) / 2)
  else (382 - i) * (383 - i) / 2

/-- One output of the sinc³ stage from the bits up to it, newest first; a 1 counts 1 and a 0 counts -1 (05 R134). -/
def sincOut (bits : List Bool) : Int :=
  (bits.take 382).zipIdx.foldl (fun a b => if b.1 then a + (sincTap b.2 : Int) else a - (sincTap b.2 : Int)) 0

/-- The bits of one tick pass the sinc³ stage: 16 outputs (05 R134). -/
def decStream (bits : List Bool) (q : Stream) : Stream :=
  let b := bits.reverse ++ q.bits
  { q with bits := b.take 254, sinc := (((List.range 16).map fun j => sincOut (b.drop (128 * j))) ++ q.sinc).take 255 }

/-- The output of the linear-phase FIR at a tick boundary (05 R134, Table MF-5). -/
def firOut (xs : List Int) : Int :=
  rnd 40 (foldN 255 (fun k a => a + Config.firTap (min k (254 - k)) * ((nth xs k 0 : Int) : Rat)) 0)

/-- The streams whose bits are given take them in. -/
def decTick (i : TickIn) (s : State) : State :=
  i.bits.foldl (fun s e => updStream e.1 (decStream e.2) s) s

/-- The block of the tick: of such a stream the FIR output, of the others the sample given (05 R135). -/
def decimated (i : TickIn) (s : State) : TickIn :=
  { i with samples := i.bits.foldl (fun l e => l.set e.1 (firOut (getStream s e.1).sinc)) i.samples }

end Sys2Proof.Machine
end

