-- ==== Sys2Proof/Machine/Meter.lean ====
section
/-!
DEFINITION. The metering work of one tick: streams, cycle detection, products, energy steps (05, 06).
-/

namespace Sys2Proof.Machine

/-- The group of a stream's cycle, whether the stream is fitted, and the ports it serves (05 R147, R149). -/
def streamGrp (s : State) (k : Nat) : Nat := if k < 96 then groupOf s (k / 4) else (k - 96) / 4
def streamFit (s : State) (k : Nat) : Bool := if k < 96 then fitted s (k / 4) else grpFitted s ((k - 96) / 4)
def streamPorts (s : State) (k : Nat) : List Nat :=
  if k < 96 then [k / 4] else (List.range 24).filter fun p => fitted s p && groupOf s p == (k - 96) / 4

/-- Both switches of every affected port are open (05 R150). -/
def streamOff (s : State) (k : Nat) : Bool := (streamPorts s k).all fun p => !portOn s p

/-- The decimator delivers the fault marker (05 R136, R148). -/
def marked (q : Stream) : Bool := q.settle != 0 || q.cond != 0 || decide (q.clear < 16)

/-- The sample that stands in for a marker: the one a cycle earlier, after a failure the last good cycle repeated,
0 once every affected port is open (05 R149, R150). -/
def standIn (s : State) (k : Nat) (q : Stream) : Int :=
  if q.failed then (if streamOff s k then 0 else nth q.good q.goodPos 0)
  else (nth q.hist ((getGrp s (streamGrp s k)).cycTicks - 1) (0, true)).1

/-- One stream in one tick (05 R135, R136, R148 to R151). -/
def streamTick (s : State) (i : TickIn) (k : Nat) (q : Stream) : Stream :=
  if !streamFit s k then q
  else
    let q1 := if q.cond != 0 then (if i.ceased.contains k then { q with cond := 0, clear := 0 } else q)
              else { q with clear := min 16 (q.clear + 1) }
    let m := marked q1
    let sub := m || q1.failed
    let put := sub && !(q1.failed && (q1.good.isEmpty || streamOff s k))
    let v := if sub then standIn s k q1 else sat24 (nth i.samples k 0)
    let back := q1.failed && !m && !q1.biasFail && streamOff s k
    let bias := (if k < 96 then k % 4 != 3 else true) && !m
    let w := if bias then 1 else 0
    let raw := if bias then sat24 (nth i.samples k 0) else 0
    let up := !q1.biasDone && k < 96
    { q1 with
      settle := q1.settle - 1
      mark := if m && q1.settle == 0 then q1.mark + 1 else 0
      subst := if put then sat16 q1.subst else q1.subst
      substRun := if put && q1.settle == 0 then q1.substRun + 1 else if q1.failed then q1.substRun else 0
      failed := q1.failed && !back
      live := if m || q1.biasFail then 0 else min 65535 (q1.live + 1)
      goodPos := if q1.failed && !q1.good.isEmpty then (q1.goodPos + 1) % q1.good.length else q1.goodPos
      hist := ((v, sub) :: q1.hist).take 256
      cycSum := q1.cycSum + raw, cycN := q1.cycN + w
      winSum := if up then q1.winSum + raw else q1.winSum
      winN := if up then q1.winN + w else q1.winN
      winTicks := if q1.settle == 0 then q1.winTicks + 1 else 0 }

/-- The substitution of a stream that had failed before this tick has ended: its ticks go to Cairn (05 R150). -/
def substReport (k : Nat) (failed : Bool) (s : State) : State :=
  let q := getStream s k
  if failed && q.substRun != 0 && streamOff s k then
    cairnO 0x21 (if k < 96 then k / 4 else 0x80 + (k - 96) / 4) ([byteOf k, 0, 0, 0] ++ le 4 q.substRun)
      (updStream k (fun q => { q with substRun := 0 }) s)
  else s

/-- The sample of a stream n ticks ago, and its mark of substitution. -/
def samp (s : State) (k n : Nat) : Int := (nth (getStream s k).hist n (0, true)).1
def samps (s : State) (k n : Nat) : List Int := ((getStream s k).hist.take n).map Prod.fst
def subd (s : State) (k : Nat) : Bool := (nth (getStream s k).hist 0 (0, true)).2
/-- A stream without any substitute gives no value (05 R150). -/
def dead (s : State) (k : Nat) : Bool :=
  let q := getStream s k
  q.failed && (q.good.isEmpty || streamOff s k)

/-- What a group finds in a tick: fraction of the tick before a line's crossing, if the line crosses (05 R143). -/
def crossing (s : State) (g l : Nat) : Option Rat :=
  let k := uStream g l
  let b := samp s k 0
  let a := samp s k 1
  if nth (getGrp s g).armed l false && decide (0 ≤ b) then
    some (if a < 0 then (-a : Rat) / ((b : Rat) - (a : Rat)) else 0)
  else none

/-- The end of the group's cycle in this tick, if it ends (05 R143). -/
def cycleEnd (s : State) (g : Nat) : Option CycEnd :=
  let q := getGrp s g
  let t := q.ticks + 1
  let mk := fun kind (f : Rat) line => some { kind := kind, frac := f, line := line, tick := now s }
  match (q.next.bind fun l => (crossing s g l).map fun f => (l, f)) with
  | some (l, f) => mk 0 f l
  | none =>
    if q.sub then (if 160 ≤ t then mk 2 1 q.ref else none)
    else match crossing s g q.ref with
      | some f => mk 0 f q.ref
      | none => if 178 ≤ t then mk 1 1 q.ref else none

/-- Squares of the four voltages of a group in this tick. -/
def uSquares (s : State) (g : Nat) : List Rat :=
  (List.range 4).map fun l => (upper32 (samp s (uStream g l) 0) (samp s (uStream g l) 0) : Rat)

/-- A weighted sum of lists. -/
def addW (w : Rat) (a b : List Rat) : List Rat := List.zipWith (fun x y => x + w * y) a b

/-- The harmonic window of a group takes the samples of a tick (06 R170). -/
def winTick (s : State) (g : Nat) (w : HWin) : HWin :=
  { w with
    us := (List.range 3).map fun l => samp s (uStream g l) 0 :: nth w.us l []
    sub := w.sub || (List.range 3).any fun l => subd s (uStream g l) }

/-- The group's detectors, cycle sums and cycle end of one tick (05 R143, 06 R163). -/
def grpTick (s : State) (g : Nat) (q : Grp) : Grp :=
  let e := cycleEnd s g
  let u := uSquares s g
  let q1 := { q with
    armed := (List.range 3).map fun l =>
      let v := samp s (uStream g l) 0
      if v < -44487 then true else if (0 : Int) ≤ v then false else nth q.armed l false
    win := q.win.map (winTick s g)
    runs := q.runs.filter fun r => decide (now s < r.1 + 178)
    qEnds := q.qEnds.filter fun c => decide (now s < c.1 + 127) }
  match e with
  | some c =>
    let f := c.frac
    let take := c.kind == 0 && q.next == some c.line
    let whole := c.kind == 2 || (c.kind == 0 && !take && !q.sub)
    { q1 with
      ended := some { c with len := q.len + f, ticks := q.ticks + 1, whole := whole, sums := addW f q.sums u }
      cycTicks := if whole then q.ticks + 1 else q.cycTicks
      runs := if whole then (now s - (q.ticks + 1), now s - 1) :: q1.runs else q1.runs
      ticks := 0, len := 1 - f, sums := u.map fun x => (1 - f) * x
      ref := c.line, next := if take then none else q.next
      cross := if take then none else q.cross
      sub := if c.kind == 1 then true else if take then false else q.sub
      qEnds := q1.qEnds ++ [(now s, f)] }
  | none => { q1 with ticks := q.ticks + 1, len := q.len + 1, sums := addW 1 q.sums u }

/-- Output of an antisymmetric filter of 2 n + 1 taps on samples, newest first (06 Table MQ-1). -/
def antisym (tag n : Nat) (t : Nat → Rat) (l : List Int) : Int :=
  sat24 (rnd tag (foldN n (fun k a => a + t (k + 1) * ((nth l (n + k + 1) 0 - nth l (n - k - 1) 0 : Int) : Rat)) 0))
def hilbert (l : List Int) : Int := antisym 34 127 Config.hilbertTap l
def quad (l : List Int) : Int := antisym 35 19 Config.quadTap l

/-- The products of the result boxcar in this tick: i2, p, q without g, and u2 (06 R163). -/
def boxEntry (s : State) (p x : Nat) (fine : Bool) : (Rat × Rat × Rat) × Rat :=
  let g := groupOf s p
  let ku := uStream g (lineOf s p x)
  let ki := iStream p x
  let gg := quadGain (freqForG s g)
  let ud := samp s ku 19
  let uq := quad (samps s ku 39)
  let id := operand fine (samp s ki 19)
  let iq := quad ((samps s ki 39).map (operand fine))
  let m := fun a b => (upper32 a b : Rat)
  (((m id id + gg * gg * m iq iq) / 2, (m ud id + gg * gg * m uq iq) / 2, (m uq id - m ud iq) / 2),
   (m ud ud + gg * gg * m uq uq) / 2)

/-- Units of 2^-32 mWh per mW in one tick: 125 us in hours (06 R167). -/
def stepUnits (mw : Rat) : Int := rnd 4 (mw * 4294967296 / 28800000)

/-- The rate in force in this tick and n ticks ago (08 R205). -/
def rateAgo (s : State) (n : Nat) : Nat := nth s.eg.rates n 0

/-- A step added to the carry of a rate. -/
def carryAdd (rate : Nat) (v : Int) (l : List Int) : List Int := l.modify rate fun c => c + v

/-- A sample with its weight joins the sums of a cycle, on its path (05 R139, 06 R163). -/
def cycAdd (fine : Bool) (i u : Int) (sub : Bool) (w : Rat) (c : CycSum) : CycSum :=
  let io := operand fine i
  let one := fun (a : PathSum) => { a with
    w := a.w + w, ii := a.ii + w * (upper32 io io : Rat), ui := a.ui + w * (upper32 u io : Rat) }
  { c with
    raw := c.raw + w * ((i * i : Int) : Rat), uu := c.uu + w * (upper32 u u : Rat), sub := c.sub || sub
    c := if fine then c.c else one c.c, f := if fine then one c.f else c.f }

/-- A product uH i127 with its weight joins the sums of a shifted cycle. -/
def qAdd (fine : Bool) (pr w : Rat) (c : QSum) : QSum :=
  if fine then { c with wf := c.wf + w, f := c.f + w * pr } else { c with wc := c.wc + w, c := c.c + w * pr }

/-- Path of a cycle from its weights: 0 coarse, 1 fine, 2 mixed (07 Table CA-7). -/
def pathCode (wc wf : Rat) : Nat := if wf = 0 then 0 else if wc = 0 then 1 else 2

/-- A shifted cycle has ended: Q by the set of its samples, and the raw Q of the cycle that ended in tick t, 127 ticks ago,
for CAL_READ (06 R163, 07 R197). -/
def qEnd (b : Bank) (p x t : Nat) (c : QSum) (h : Ph) : Ph :=
  let d := c.wc + c.wf
  if d = 0 then h
  else
    let raw := (gainOf b p x false 4 * c.c + gainOf b p x true 4 * c.f) / d
    { h with
      qVal := raw - (offP b p x false 5 * c.wc + offP b p x true 5 * c.wf) / d
      raws := h.raws.map fun r => if r.tick == t then { r with q := some (1000 * raw) } else r }

/-- One phase in one tick: escape, boxcar, cycle sums, energy steps (05 R138, 06 R160 to R169, 08 R205). f is the
fraction of the tick that belongs to the cycle that ends in it, none while none ends; fq that of the shifted cycle.
DESIGN CHOICE: an escape counts in ESCAPES alone, not also as a path change (05 R140, log 134). -/
def phaseTick (s : State) (p x : Nat) (f fq : Option Rat) (h : Ph) : Ph :=
  let ki := iStream p x
  let g := groupOf s p
  let ku := uStream g (lineOf s p x)
  let i := samp s ki 0
  let esc := h.fine && decide (524288 ≤ i.natAbs)
  let fine := h.fine && !esc
  let h1 := if esc then { h with
      fine := false, escapes := sat16 h.escapes, restart := true, cnt := 0, box := []
      hold := if h.hold == 2 then 0 else h.hold } else h
  let io := operand fine i
  let u := samp s ku 0
  let sb := subd s ki || subd s ku
  let no := dead s ki || dead s ku
  let b := bankOf s p
  let bq := bankThen s p
  let fq127 := nth (fine :: h1.paths) 127 false
  let pr := (upper32 (hilbert (samps s ku 255)) (operand fq127 (samp s ki 127)) : Rat)
  let act := stepUnits (gainOf b p x fine 2 * (upper32 u io : Rat) - offP b p x fine 3)
  let rea := stepUnits (gainOf bq p x fq127 4 * pr - offP bq p x fq127 5)
  let go := !h1.supp && !no
  let bx := if no then ((0, 0, 0), 0) else boxEntry s p x fine
  let h2 := match fq with
    | some w => { qEnd bq p x (now s - 127) (qAdd fq127 pr w h1.qSum) h1 with qSum := qAdd fq127 pr (1 - w) {} }
    | none => { h1 with qSum := qAdd fq127 pr 1 h1.qSum }
  { h2 with
    paths := (fine :: h1.paths).take 128
    box := (bx.1 :: h1.box).take 182, boxU := (bx.2 :: h1.boxU).take 17
    sum := match f with
      | some w => cycAdd fine i u sb (1 - w) { fine := fine }
      | none => cycAdd fine i u sb 1 h1.sum
    ended := match f with
      | some w => cycAdd fine i u sb w h1.sum
      | none => h1.ended
    act := if go then carryAdd (rateAgo s 0) (if h1.pPos then act else -act) h1.act else h1.act
    rea := if go && h1.discard == 0 then carryAdd (rateAgo s 127) (if h1.qPos then rea else -rea) h1.rea else h1.rea
    discard := h1.discard - 1
    win := i :: h1.win, winSub := h1.winSub || subd s ki }

/-- PATH_HOLD's Cairn entry (05 R159). -/
def holdEntry (p x mode dur : Nat) (s : State) : State :=
  cairnO 0x15 p ([byteOf x, byteOf mode] ++ le 4 dur) s

/-- The end of a hold by an escape is recorded (05 R159). -/
def escapeEntry (p x : Nat) (was : Nat) (s : State) : State :=
  if was == 2 && (getPh s p x).hold == 0 then holdEntry p x 0 0 s else s

/-- The fraction of this tick that belongs to the cycle ending in it, and to the shifted cycle (06 R163). -/
def endFrac (s : State) (g : Nat) : Option Rat :=
  match (getGrp s g).ended with
  | some c => if c.tick == now s then some c.frac else none
  | none => none
def qFrac (q : Grp) (n : Nat) : Option Rat := (q.qEnds.find? fun c => c.1 + 127 == n).map Prod.snd

/-- The lane of a fitted port in one tick. -/
def laneTick (fqs : List (Option Rat)) (p : Nat) (s : State) : State :=
  if fitted s p then
    foldN 3 (fun x s =>
      let was := (getPh s p x).hold
      let g := groupOf s p
      escapeEntry p x was (updPh (3 * p + x) (fun h => phaseTick s p x (endFrac s g) (nth fqs g none) h) s)) s
  else s

/-- A veto of a supply event ends RESUME_S after the event clears (06 R177). -/
def grpVetoTick (s : State) (q : Grp) : Grp :=
  match q.vetoEnd with
  | some t => if t ≤ now s then { q with veto := false, vetoEnd := none } else q
  | none => q

/-- The lanes' work of one tick, once OR runs (06). -/
def lanesTick (s0 : State) : State :=
  let fqs := (List.range 4).map fun g => qFrac (getGrp s0 g) (now s0)
  let s1 := foldN 4 (fun g s => if grpFitted s g then updGrp g (fun q => grpVetoTick s (grpTick s g q)) s else s) s0
  eachPort (laneTick fqs) s1

/-- Metering's work of one tick (05, 06). -/
def meterTick (i : TickIn) (s : State) : State :=
  let s0 := foldN 112 (fun k s => substReport k (getStream s k).failed (updStream k (streamTick s i k) s)) s
  if orRun s then lanesTick s0 else s0

end Sys2Proof.Machine
end

