-- ==== Sys2Proof/Machine/Cycle.lean ====
section
/-!
DEFINITION. What the end of a mains cycle drives: cycle values, frequency, paths, routes, supply events, harmonics
(05 R138, R143, 06 R163 to R179).
-/

namespace Sys2Proof.Machine

/-- 50 V in 1 mV, squared. -/
def v50 : Rat := 2500000000

/-- Squares of the cycle Urms of L1, L2, L3 and N-PE, 1 mV squared (06 R163, R164). -/
def cycleUrms (s : State) (g : Nat) (e : CycEnd) : List Rat :=
  (List.range 4).map fun l =>
    let k := gainU (grpBank s g) g l
    if e.len = 0 then 0 else k * k * (nth e.sums l 0 / e.len)

/-- The reference line by the cycle rms, from REF_LINE onward (05 R143). -/
def refLine (s : State) (g : Nat) (u : List Rat) : Option Nat :=
  let r := tf s 0x4301 (97 + 4 * g) 1
  ([r % 3, (r + 1) % 3, (r + 2) % 3] : List Nat).find? fun l => decide (v50 ≤ nth u l 0)

/-- The frequency of periods in ticks, 0.1 mHz (06 R166). -/
def freqOf (ps : List Rat) : Rat := if ps.isEmpty then 0 else 80000000 * (ps.length : Rat) / ps.foldl (· + ·) 0

/-- Time of a crossing in ticks. -/
def crossTime (e : CycEnd) : Rat := (e.tick : Rat) - 1 + e.frac

/-- Frequency, periods and lines of a group at the end of a cycle (05 R143, 06 R166). -/
def grpCycle (s : State) (g : Nat) (e : CycEnd) (q : Grp) : Grp :=
  let u := cycleUrms s g e
  let per := match q.cross with
    | some c => if e.kind == 0 then some (crossTime e - c) else none
    | none => none
  let low := (refLine s g u).isNone
  let ps := if e.kind == 0 && !low then (match per with
    | some d => (d :: q.periods).take 8
    | none => []) else []
  let f := freqOf ps
  let next := match refLine s g u with
    | some l => if q.sub || l != q.ref then some l else none
    | none => none
  let ok := match per with
    | some d => decide (80000000 ≤ 650000 * d ∧ 450000 * d ≤ 80000000)
    | none => false
  { q with
    ended := none, urms := u, periods := ps, freq := f, gFreq := if f == 0 then q.gFreq else f
    cross := if e.kind == 0 && !low then some (crossTime e) else none
    next := next, sub := q.sub || low
    goodN := if ok then min 8 (q.goodN + 1) else 0
    valTick := e.tick, valMag := s.rind.mag }

/-- Quadrant register of the signs of P and Q (06 R168, 08 Table EG-1). -/
def quadrant (pPos qPos : Bool) : Nat :=
  match pPos, qPos with
  | true, true => 2 | false, true => 3 | false, false => 4 | true, false => 5

/-- The carries of a route closed, per rate: quantity of a positive and of a negative carry (06 R168). -/
def closeCarries (pos neg : Nat) (l : List Int) : List (Nat × Nat × Nat) :=
  l.zipIdx.filterMap fun c =>
    if c.1 = 0 then none else some (if 0 < c.1 then pos else neg, c.2, c.1.natAbs)

/-- The amounts of a closed active and reactive route. -/
def closeAct (pPos : Bool) (l : List Int) : List (Nat × Nat × Nat) :=
  closeCarries (if pPos then 0 else 1) (if pPos then 1 else 0) l
def closeRea (pPos qPos : Bool) (l : List Int) : List (Nat × Nat × Nat) :=
  closeCarries (quadrant pPos qPos) (quadrant pPos (!qPos)) l

/-- S_c over the cycle in 2^-32 mVAh (06 R167). -/
def apparent (v : Vals) (len : Rat) : Nat :=
  let k := len * 4294967296 / 28800000
  rndSqrt 5 (v.s2 * k * k)

/-- Cycle values of a phase (06 R163). -/
def phaseVals (s : State) (p x : Nat) (e : CycEnd) (h : Ph) : Vals :=
  let c := h.ended
  let d := if e.len = 0 then 1 else e.len
  valsOf (bankOf s p) p x (groupOf s p) (lineOf s p x) d c.uu c.c c.f h.qVal

/-- The path rule at the end of a cycle without a hold (05 R138). -/
def pathRule (e : CycEnd) (h : Ph) : Ph :=
  let c := h.ended
  let ms := if e.len = 0 then 0 else c.raw / e.len
  let q := if c.fine then decide (ms > 44487 * 44487) else decide (ms < 26692 * 26692)
  let n := if h.restart || c.fine != h.fine then 0 else if q then h.cnt + 1 else 0
  if 4 ≤ n then { h with
    fine := !h.fine, changes := sat16 h.changes, cnt := 0, restart := false, box := [], sum := { h.sum with fine := !h.fine } }
  else { h with cnt := n, restart := false }

/-- One phase at the end of a cycle (05 R138, 06 R163 to R169, 07 Table CA-7). While steps are suppressed after it, or a
stream gives no value, route and carries stay as they are. DESIGN CHOICE: the suppression in force before the end
decides whether its cycle adds an apparent step (06 R169, log 136); a cycle under a path hold does not count for the path
rule, whose count restarts at 0 after it (05 R138, R159, log 150). -/
def phaseCycle (s : State) (p x : Nat) (e : CycEnd) (h : Ph) : Ph :=
  let v := phaseVals s p x e h
  let c := h.ended
  let d := if e.len = 0 then 1 else e.len
  let none_ := dead s (iStream p x) || dead s (uStream (groupOf s p) (lineOf s p x))
  let v := if none_ then {} else v
  let supp := decide (v.i2 < 150 * 150)
  let held := supp || none_
  let pPos := if held then h.pPos else decide (0 ≤ v.p)
  let qPos := if held then h.qPos else decide (0 ≤ v.q)
  let a := if pPos != h.pPos then closeAct h.pPos h.act else []
  let r := if pPos != h.pPos || qPos != h.qPos then closeRea h.pPos h.qPos h.rea else []
  let sa := if h.supp || none_ then [] else [(if 0 ≤ v.p then 6 else 7, rateAgo s 0, apparent v e.len)]
  let b := bankOf s p
  let raw : CycRaw := { tick := e.tick, path := pathCode c.c.w c.f.w, ms := (c.c.ii + c.f.ii) / d
                        p := 1000 * (gainOf b p x false 2 * c.c.ui + gainOf b p x true 2 * c.f.ui) / d }
  let h1 := { h with
    vals := some v, valSub := c.sub || none_
    supp := supp
    pPos := pPos, qPos := qPos
    act := if pPos != h.pPos then List.replicate 8 0 else h.act
    rea := if pPos != h.pPos || qPos != h.qPos then List.replicate 8 0 else h.rea
    closed := h.closed ++ a ++ r ++ sa
    raws := (raw :: h.raws).take 52 }
  if h1.hold == 0 && h1.holdReq.all (fun r => r.1 == 0) then pathRule e h1 else { h1 with cnt := 0, restart := false }

/-- A phase's hold ends (05 R159). -/
def endHold (p x : Nat) (s : State) : State :=
  if (getPh s p x).hold == 0 then s
  else holdEntry p x 0 0 (updPh (3 * p + x) (fun h => { h with hold := 0, cnt := 0 }) s)

/-- A phase takes a path by a hold. -/
def startHold (p x mode secs : Nat) (s : State) : State :=
  let s1 := endHold p x s
  holdEntry p x mode secs (updPh (3 * p + x) (fun h =>
    let ch := h.fine != (mode == 2)
    { h with
      hold := mode, holdEnd := now s + 8000 * secs, fine := mode == 2
      changes := if ch then sat16 h.changes else h.changes
      box := if ch then [] else h.box, sum := if ch then { h.sum with fine := mode == 2 } else h.sum }) s1)

/-- Requests and expiries of holds at a crossing of the group (05 R159). DESIGN CHOICE: at the end of a cycle without a
crossing too, since the group has none while it lasts (log 133). -/
def holdCycle (p x : Nat) (s : State) : State :=
  let h := getPh s p x
  let s1 := updPh (3 * p + x) (fun h => { h with holdReq := none }) s
  match h.holdReq with
  | some (0, _) => endHold p x s1
  | some (m, secs) => startHold p x m secs s1
  | none => if h.hold != 0 && decide (h.holdEnd ≤ now s) then endHold p x s1 else s1

/-- Counts of the cycles of a port that other units judge (09 R243, 10 R250, R251, 11 R283). -/
def portCycle (s : State) (p : Nat) (q : Port) : Port :=
  let i := fun x => cycI2 s p x
  let cnt := fun (l : List Nat) (f : Nat → Bool) => (List.range 3).map fun x => if f x then nth l x 0 + 1 else 0
  let back : Rat := ((500 * (2 * q.li.reclDem - reclaimDa s) : Nat) : Rat)
  let off := !anyOn q && decide (q.ct.cmdTick + 8 * rcTab s p 58 2 ≤ now s)
  { q with
    hs := { q.hs with overN := if stopping q then [0, 0, 0] else cnt q.hs.overN (overdrawn s p) }
    li := { q.li with
      useN := cnt q.li.useN fun x => decide (da2 (phaseUseDa s) ≤ i x)
      reclN := if q.li.recl && (List.range 3).any (fun x => nth q.li.use x true && decide (back * back < i x)) then q.li.reclN + 1 else 0
      recent := (List.range 3).map fun x =>
        (now s, i x) :: (nth q.li.recent x []).filter fun e => decide (now s ≤ e.1 + settleTicks s p) }
    ct := { q.ct with weldN := cnt q.ct.weldN fun x => off && decide (da2 (rcTab s p 68 2) ≤ i x) } }

/-- A port of the group at the end of its cycle. -/
def lanePort (e : CycEnd) (p : Nat) (s : State) : State :=
  let s1 := foldN 3 (fun x s => holdCycle p x (updPh (3 * p + x) (phaseCycle s p x e) s)) s
  updPort p (portCycle s1 p) s1

/-- The streams of a group at the end of its cycle: whole cycles of the service bias window (05 R148). -/
def biasCycle (q : Stream) : Stream :=
  { q with
    winSum := if q.whole then q.winSum + q.cycSum else q.winSum
    winN := if q.whole then q.winN + q.cycN else q.winN
    whole := true, cycSum := 0, cycN := 0 }

/-- Unbalance in units of 0.01 %: (max - min) / mean of the three L-N values in 1 mV (06 R174). -/
def unbalance (u : List Nat) : Rat :=
  let a := nth u 0 0
  let b := nth u 1 0
  let c := nth u 2 0
  if a + b + c = 0 then (Config.zeroDiv 3 : Rat) else ((30000 * (max a (max b c) - min a (min b c)) : Nat) : Rat) / ((a + b + c : Nat) : Rat)
/-- UNBALANCE as reported (06 Table MQ-3). -/
def unbalanceRep (u : List Nat) : Nat := min 65535 (rnd 30 (unbalance u)).toNat

/-- Cycle Urms values of a group in 1 mV. -/
def urmsMv (q : Grp) : List Nat := q.urms.map (rndSqrt 7)

/-- Angle classes: 0 normal, 1 reversed, 2 neither (06 R175). -/
def angleClass (t2 t3 : Nat) : Nat :=
  let w := fun (a lo : Nat) => decide (lo ≤ a ∧ a ≤ lo + 4000)
  if w t2 10000 && w t3 22000 then 0 else if w t2 22000 && w t3 10000 then 1 else 2

/-- Angular distance in 0.01 degree. -/
def angDist (a b : Nat) : Nat :=
  let d := if a < b then b - a else a - b
  min d (36000 - d)

/-- The fundamental of a stream over the cycle that ended, by a one-cycle DFT (06 R175). -/
def cyclePhasor (s : State) (k : Nat) (e : CycEnd) : Rat × Rat :=
  let xs := ((samps s k (e.ticks + 1 + (now s - e.tick))).drop (now s - e.tick)).reverse
  let w0 := if xs.length ≤ e.ticks then 1 else e.len - ((e.ticks : Rat) - 1) - e.frac
  dftBin (if e.len = 0 then 0 else 1 / e.len) w0 e.frac xs

/-- Lag of one phasor behind another, 0.01 degree, below 36,000; a phasor of 0 has no angle (06 R175, log 132). -/
def lagOf (tag : Nat) (a b : Rat × Rat) : Nat :=
  match angleOf a.1 a.2, angleOf b.1 b.2 with
  | some x, some y => ((rnd tag (x - y)) % 36000).toNat
  | _, _ => Config.zeroDiv tag % 36000

/-- Sequence and angles from the fundamental of one cycle (06 R175). While they are not judged the angles keep their last values
(DESIGN CHOICE, log 150). -/
def seqCycle (s : State) (g : Nat) (e : CycEnd) (q : Grp) : Grp :=
  let l := fun k => cyclePhasor s (uStream g k) e
  let t2 := lagOf 36 (l 0) (l 1)
  let t3 := lagOf 37 (l 0) (l 2)
  if (List.range 3).all fun k => decide (v50 ≤ nth q.urms k 0) then { q with th2 := t2, th3 := t3, seq := angleClass t2 t3 }
  else { q with seq := 3 }

/-- Set and clear condition of a supply event in this cycle (06 Table MQ-7). -/
def evCond (s : State) (g ev : Nat) (q : Grp) : Bool × Bool :=
  let un := evTab s g 0 2
  let u2 := fun l => nth q.urms l 0
  let pc := fun (n : Nat) => (((un * n) * (un * n) : Nat) : Rat)
  let l := ev % 3
  let mv := urmsMv q
  let npe := nth mv 3 0
  let set := 100 * evTab s g 10 2
  let clr := 100 * evTab s g 12 2
  let dv := q.freq - ((evTab s g 2 1 * 10000 : Nat) : Rat)
  let df := max dv (-dv)
  let judged := q.periods.length == 8
  match ev / 3 with
  | 0 => (decide (u2 l < pc (evTab s g 5 1)), decide (pc (evTab s g 5 1 + 2) ≤ u2 l))
  | 1 => (decide (pc (evTab s g 6 1) < u2 l), decide (u2 l ≤ pc (evTab s g 6 1 - 2)))
  | 2 => (decide (pc (evTab s g 7 1) < u2 l), decide (u2 l ≤ pc (evTab s g 6 1)))
  | 3 => (decide (u2 l < v50) && ((List.range 3).any fun k => k != l && decide (v50 ≤ u2 k)), decide (v50 ≤ u2 l))
  | 4 => match l with
    | 0 => (judged && decide (((100 * evTab s g 8 2 : Nat) : Rat) < df),
            judged && decide (df ≤ ((100 * (evTab s g 8 2 - 10) : Nat) : Rat)))
    | 1 => (decide (set ≤ npe), decide (npe < clr))
    | _ => (decide (set ≤ npe) && decide (((100 * evTab s g 14 1 : Nat) : Rat) ≤ unbalance mv),
            decide (npe < clr) && decide (unbalance mv < ((100 * evTab s g 15 1 : Nat) : Rat)))
  | _ => match l with
    | 0 => (q.seq == 1, q.seq == 0)
    | _ => (q.seq == 2, q.seq == 0 || q.seq == 1)

/-- The worst value of an event after a cycle: value and second part (06 Table MQ-16). -/
def evWorst (s : State) (g ev : Nat) (q : Grp) (first : Bool) (w f : Nat) : Nat × Nat :=
  let mv := urmsMv q
  let v := nth mv (ev % 3) 0
  let npe := nth mv 3 0
  let fr := (rnd 8 q.freq).toNat
  let dist := max (angDist q.th2 12000) (angDist q.th3 24000)
  let fd := ((fr : Int) - ((evTab s g 2 1 * 10000 : Nat) : Int)).natAbs
  if ev < 3 || (9 ≤ ev && ev < 12) then (if first then v else min w v, 0)
  else if ev < 9 then (max (if first then 0 else w) v, 0)
  else if ev == 12 then
    (if q.periods.length == 8 && (first || decide (f < fd)) then (fr, fd) else (w, f))
  else if ev == 13 then (max (if first then 0 else w) npe, 0)
  else if ev == 14 then (max (if first then 0 else w) (unbalanceRep mv), max (if first then 0 else f) (min 65535 (rnd 24 ((npe : Rat) / 100)).toNat))
  else if q.seq != 3 && (first || decide (f < dist)) then (q.th2 + 65536 * q.th3, dist) else (w, f)

/-- One supply event at the end of a cycle (06 R174). -/
def evCycle (s : State) (g ev : Nat) (restart : Bool) (q : Grp) (k : SupEv) : SupEv :=
  let c := evCond s g ev q
  let a := if restart then 0 else k.setN
  let b := if restart then 0 else k.clrN
  let setN := if !k.on && c.1 then a + 1 else 0
  let clrN := if k.on && c.2 then b + 1 else 0
  let due := if k.on && decide (evTab s g 4 1 ≤ clrN) then 2 else if !k.on && decide (evTab s g 3 1 ≤ setN) then 1 else 0
  let w := if k.on then evWorst s g ev q false k.worst k.far else if due == 1 then evWorst s g ev q true 0 0 else (0, 0)
  { k with setN := setN, clrN := clrN, due := due, worst := w.1, far := w.2 }

/-- The supply events of a group, and a new version of table 0x4302 (06 R174, R179), which takes effect also at the end of a
cycle without a crossing, since the group has none while it lasts (DESIGN CHOICE, log 133). -/
def evsCycle (s : State) (g : Nat) : State :=
  let fresh := !(getGrp s g).tbl.isEmpty
  let s1 := updGrp g (fun q => { q with tbl := [] }) s
  updGrp g (fun q => { q with evs := q.evs.zipIdx.map fun e => evCycle s1 g e.2 fresh q e.1 }) s1

/-- A harmonic window with the cycle that has just ended; its first cycle settles its length (06 R170). Whether the frequency
moved is judged at the ends of the window's cycles, not at the crossing that starts it (R171, DESIGN CHOICE, log 150). -/
def winMore (f : Rat) (w : HWin) : HWin :=
  { w with
    cycles := w.cycles + 1, len := if w.cycles == 0 then (if f < 550000 then 10 else 12) else w.len
    sumF := w.sumF + f, lo := if w.cycles == 0 then f else min w.lo f, hi := max w.hi f }

/-- The window that starts at a crossing (06 R170): its first sample is that of the crossing tick. -/
def winNew (s : State) (g : Nat) (e : CycEnd) : HWin :=
  let n := now s - e.tick + 1
  { w0 := 1 - e.frac, us := (List.range 3).map fun l => samps s (uStream g l) n
    sub := (List.range 3).any fun l => ((getStream s (uStream g l)).hist.take n).any Prod.snd }

/-- The window that the end of this cycle completes: 10 or 12 whole mains cycles (06 R170). -/
def winFull (s : State) (e : CycEnd) (q : Grp) : Option HWin :=
  match q.win with
  | some w =>
    let v := winMore q.freq w
    if e.kind == 0 && e.whole && decide (v.len ≤ v.cycles) then
      some { v with w1 := e.frac, us := v.us.map (List.drop (now s - e.tick)) } else none
  | none => none

/-- The harmonic window at the end of a cycle (06 R170): a crossing that ends a whole cycle carries it on, one that
completes it or cuts a cycle short starts the next, and any other end drops it. -/
def winCycle (s : State) (g : Nat) (e : CycEnd) (q : Grp) : Grp :=
  let full := winFull s e q
  { q with
    winDone := if full.isSome then full else q.winDone
    win := if e.kind != 0 then none
      else if full.isSome || !e.whole then some (winNew s g e)
      else match q.win with
        | some w => some (winMore q.freq w)
        | none => some (winNew s g e) }

/-- The windows of the currents follow the group's. -/
def phWindow (s : State) (p x : Nat) (e : CycEnd) (full keep : Bool) (h : Ph) : Ph :=
  let n := now s - e.tick
  let h1 := if full then { h with doneWin := h.win.drop n, doneSub := h.winSub } else h
  if keep then h1
  else if e.kind == 0 then { h1 with
    win := h.win.take (n + 1), winSub := ((getStream s (iStream p x)).hist.take (n + 1)).any Prod.snd }
  else { h1 with win := [], winSub := false }

/-- The end of a cycle of a group (05 R143, 06 R163 to R179). -/
def endCycle (g : Nat) (e : CycEnd) (s : State) : State :=
  let s1 := eachPort (fun p s => if fitted s p && groupOf s p == g then lanePort e p s else s) s
  let s2 := updGrp g (fun q => seqCycle s1 g e (grpCycle s1 g e q)) s1
  let q2 := getGrp s2 g
  let full := (winFull s2 e q2).isSome
  let keep := e.kind == 0 && e.whole && !full && q2.win.isSome
  let s3 := evsCycle (updGrp g (winCycle s2 g e) s2) g
  let s4 := foldN 112 (fun k s => if streamGrp s k == g && streamFit s k then updStream k biasCycle s else s) s3
  let s5 := eachPort (fun p s => if groupOf s p == g then
      foldN 3 (fun x s => updPh (3 * p + x) (phWindow s p x e full keep) s) s else s) s4
  if e.kind == 1 then s5 else markSwap g s5

/-- A row for the end of a cycle of a kind: it acts while that end waits for its evaluation. -/
def cycleRow (kind g : Nat) (s : State) : State :=
  match (getGrp s g).ended with
  | some e => if g < 4 && e.kind == kind then endCycle g e s else s
  | none => s

/-- ZERO_CROSSING (05 R143). -/
def execZeroCrossing (g : Nat) (s : State) : Out := .next (gated (orRun s) (cycleRow 0 g) s)
/-- CYCLE_TIMEOUT (05 R143): the group moves to the substitute cycle. -/
def execCycleTimeout (g : Nat) (s : State) : Out := .next (gated (orRun s) (cycleRow 1 g) s)
/-- SUBSTITUTE_CYCLE_END (05 R143). -/
def execSubstituteCycleEnd (g : Nat) (s : State) : Out := .next (gated (orRun s) (cycleRow 2 g) s)

/-- Events with a Cairn entry, and events that stop the group's ports (06 Table MQ-7). -/
def evCairn (ev : Nat) : Bool := (6 ≤ ev && ev ≤ 8) || ev == 12 || 14 ≤ ev
def evStops (s : State) (g ev : Nat) : Bool :=
  (6 ≤ ev && ev ≤ 8) || (ev == 14 && evTab s g 16 1 == 1) || (ev == 15 && evTab s g 17 1 == 1)

/-- The reports of an event (06 R178, R185). -/
def evReport (g ev st worst : Nat) (s : State) : State :=
  let d := [byteOf ev, byteOf st]
  let s1 := evrec 0x0301 2 (0x80 + g) (d ++ zeros 2 ++ le 4 worst) s
  let s2 := notify 0x0380 ([byteOf g] ++ d ++ [0] ++ le 8 (getGrp s g).valTick ++ le 4 worst) s1
  if evCairn ev then cairnO 0x20 (0x80 + g) (d ++ le 4 worst) s2 else s2

/-- WORST as reported (06 Table MQ-16). -/
def evValue (ev : Nat) (k : SupEv) : Nat := if ev == 14 then 65536 * k.worst + k.far else k.worst

def updEv (g ev : Nat) (f : SupEv → SupEv) (s : State) : State :=
  updGrp g (fun q => { q with evs := q.evs.modify ev f }) s

/-- SUPPLY_EVENT_CHANGE (06 R174, R177, R178): the first event of the group that sets or clears at this crossing. -/
def supplyEventChange (g : Nat) (s : State) : State :=
  match (getGrp s g).evs.zipIdx.find? fun e => e.1.due != 0 with
  | none => s
  | some (k, ev) =>
    if 4 ≤ g then s
    else if k.due == 1 then
      let s1 := evReport g ev 1 0 (updEv g ev (fun k => { k with on := true, stops := evStops s g ev, due := 0, setN := 0, clrN := 0 }) s)
      if evStops s g ev then
        let s2 := updGrp g (fun q => { q with veto := true, vetoEnd := none }) s1
        eachPort (fun p s => if fitted s p && groupOf s p == g then startStop p 8 none s else s) s2
      else s1
    else
      let s1 := evReport g ev 0 (evValue ev k) (updEv g ev (fun k => { k with on := false, due := 0, setN := 0, clrN := 0 }) s)
      let left := (getGrp s1 g).evs.any fun e => e.on && e.stops
      if (getGrp s1 g).veto && !left && k.stops then
        updGrp g (fun q => { q with vetoEnd := some (now s + 8000 * evTab s g 18 2) }) s1
      else s1

def execSupplyEventChange (g : Nat) (s : State) : Out := .next (gated (orRun s) (supplyEventChange g) s)

/-- A phase in 0.01 degree, -18,000 to 17,999. -/
def wrapDeg (a : Int) : Int := (a + 18000) % 36000 - 18000

/-- A magnitude squared as a fraction of the fundamental's, 0.01 %; a fundamental of 0 has none (log 132). -/
def fracOf (tag : Nat) (m1 m : Rat) : Nat := min 65535 (if m1 = 0 then Config.zeroDiv tag else rndSqrt tag (100000000 * m / m1))

/-- The result of a window of samples, newest first, for one channel (06 R170, R171): k scales a unit of code, f is the
frequency of bin 1 in 0.1 mHz. -/
def harmOf (f k : Rat) (w : HWin) (valid mag : Bool) (tick : Nat) (win : List Int) : Harm :=
  let xs := win.reverse
  let n := (xs.length : Rat) - 2 + w.w0 + w.w1
  let bin := fun (h : Nat) => dftBin ((h : Rat) * f / 80000000) w.w0 w.w1 xs
  let ang := fun (b : Rat × Rat) => (angleOf b.1 b.2).getD (Config.zeroDiv 38 : Rat)
  let b1 := bin 1
  let m1 := binSq b1
  let bs := (List.range 39).map fun i => bin (i + 2)
  { cycles := w.cycles, valid := valid, mag := mag, endTick := tick
    fund := if n = 0 then Config.zeroDiv 9 else rndSqrt 9 (k * k * (2 * m1) / (n * n))
    thd := fracOf 10 m1 ((bs.map binSq).foldl (· + ·) 0)
    mags := bs.map fun b => fracOf 31 m1 (binSq b)
    phases := bs.zipIdx.map fun b => wrapDeg (rnd 33 (ang b.1 - ((b.2 + 2 : Nat) : Rat) * ang b1)) }

/-- A substituted sample of any of the lane's channels lies in the ended window (06 R171). -/
def laneSub (s : State) (p : Nat) (w : HWin) : Bool := w.sub || (List.range 3).any fun x => (getPh s p x).doneSub

/-- Scale of a current code: a mean-square unit is 65,536 code squared, in operands 16 times finer on the fine path. -/
def codeGain (b : Bank) (p x : Nat) (fine : Bool) : Rat := gainOf b p x fine 0 * (if fine then 16 else 1) / 256

/-- HARMONIC_WINDOW_END (06 R170, R171): the window that has ended is evaluated, at the mean frequency of the one before,
at its own where there is none (log 132). A current is scaled by the set of the path in force at the evaluation, also where
the path changed within the window (DESIGN CHOICE, log 150). -/
def harmonicWindowEnd (g : Nat) (s : State) : State :=
  let q := getGrp s g
  match q.winDone with
  | none => s
  | some w =>
    let mean := if w.cycles == 0 then q.freq else w.sumF / (w.cycles : Rat)
    let f := if q.meanF == 0 then mean else q.meanF
    let still := decide (w.hi - w.lo ≤ 5000)
    let b := grpBank s g
    let hu := (List.range 3).map fun l =>
      harmOf f (gainU b g l / 256) w (still && !w.sub) s.rind.mag q.valTick (nth w.us l [])
    let s1 := eachPort (fun p s => if fitted s p && groupOf s p == g then
        let ok := still && !laneSub s p w
        foldN 3 (fun x s => updPh (3 * p + x) (fun h => { h with
          doneWin := [], doneSub := false
          harm := harmOf f (codeGain (bankOf s p) p x h.fine) w ok s.rind.mag q.valTick h.doneWin }) s) s
      else s) s
    updGrp g (fun q => { q with harms := hu, winDone := none, meanF := mean }) s1

def execHarmonicWindowEnd (g : Nat) (s : State) : Out := .next (gated (orRun s) (harmonicWindowEnd g) s)

end Sys2Proof.Machine
end

