-- ==== Sys2Proof/Machine/PulseOut.lean ====
section
/-!
DEFINITION. The generator of the pulse outputs PLS_P and PLS_Q (06 R180 to R182).
-/

namespace Sys2Proof.Machine

/-- The constant of a source, imp/kWh (06 Table MQ-9, R180). -/
def pulseConst (s : State) (source : Nat) : Nat := tf s 0x4303 (if source == 24 then 4 else 0) 4

/-- The quantum of a meter constant, 2^-32 mWh (06 R182). -/
def quantum (const : Nat) : Nat := (roundDiv (4294967296 * 1000000) const).toNat

/-- Pulses that fall due in a tick, and whether the backlog fills (06 R182). -/
def pulseDue (qm : Nat) (q : Pulse) : Pulse :=
  let n := q.acc / max 1 qm
  if 65535 < q.backlog + n then { q with stopped := true, high := false, backlog := 65535 }
  else { q with acc := q.acc - n * qm, backlog := q.backlog + n }

/-- A pulse starts, n low ticks after the last (06 R182). -/
def pulseStart (n : Nat) (q : Pulse) : Pulse :=
  let period := q.since - 1
  { q with
    backlog := q.backlog - 1, high := true, low := n, since := 1, pulses := (q.pulses + 1) % 4294967296
    width := if period == 0 || 320 ≤ period then 160 else max 1 (period / 2) }

/-- The output of a pulse generator in one tick (06 R182). -/
def pulseEdge (q : Pulse) : Pulse :=
  if q.high then
    if q.width ≤ 1 then { q with high := false, width := 0, low := 0 } else { q with width := q.width - 1 }
  else if 0 < q.backlog then pulseStart (q.low + 1) q
  else { q with low := q.low + 1 }

/-- The generator's work of one tick (06 R182). -/
def pulseRun (s : State) (q : Pulse) : Pulse :=
  let q1 := { q with owed := false, acc := q.acc + q.credit, credit := 0 }
  if !rdy s rPulse || q1.stopped then { q1 with high := false }
  else if q1.sel.source == 0xFF && !q1.high then q1
  else
    let q2 := pulseDue (quantum q1.const) q1
    if q2.stopped then q2 else pulseEdge q2

/-- A new selection or a new constant takes effect, and with it the quantum changes and the accumulator clears (06 R181). -/
def pulseRenew (s : State) (q : Pulse) : Pulse :=
  let clear := fun (k : PulseSel) (q : Pulse) => { q with
    sel := k, const := pulseConst s k.source, renew := false, acc := 0, backlog := 0, since := 0, credit := 0 }
  match q.next with
  | some k => { clear k q with next := none, stopped := false }
  | none => if q.renew then clear q.sel q else q

/-- One pulse output in one tick (06 R180 to R182): the generator's work of a tick in which a commit is due follows that
commit, and at the latest comes before the next tick's. -/
def pulseTick (commit : Bool) (s : State) (q : Pulse) : Pulse :=
  let q1 := pulseRenew s (if q.owed then pulseRun s q else q)
  let q2 := { q1 with since := if q1.since == 0 then 0 else q1.since + 1 }
  if commit then { q2 with owed := true } else pulseRun s q2
def pulsesTick (commit : Bool) (s : State) : State :=
  { s with meter := { s.meter with pulses := s.meter.pulses.map (pulseTick commit s) } }

end Sys2Proof.Machine
end

