-- ==== Sys2Proof/Machine/Energy.lean ====
section
/-!
DEFINITION. The energy registers: crediting, commit, restore and reading (08).
-/

namespace Sys2Proof.Machine

/-- A register entry and its VALUE (08 Table EG-3). -/
def regOf (s : State) (r : Nat) : Reg := spGet {} s.eg.regs r
def valOf (s : State) (r : Nat) : Nat := (regOf s r).e / 4294967296
def resOfReg (s : State) (r : Nat) : Nat := (regOf s r).e % 4294967296

/-- Amounts by register index, in 2^-32 mWh. -/
abbrev Credits := List (Nat × Nat)

def addTo (r a : Nat) (l : Credits) : Credits := spSet 0 l r (spGet 0 l r + a)

/-- An amount of quantity q and rate t of phase x of port p reaches its five registers (08 R205). -/
def creditFive (p x : Nat) (l : Credits) (m : Nat × Nat × Nat) : Credits :=
  let q := m.1
  let t := m.2.1
  let a := m.2.2
  addTo (2312 + 8 * t + q) a (addTo (2304 + q) a (addTo (96 * p + 32 + 8 * t + q) a
    (addTo (96 * p + 24 + q) a (addTo (96 * p + 8 * x + q) a l))))

/-- The reactive tail of a phase at a forced commit, in the sense of the route in force (08 R213): one step of the fast
Q for each tick whose step is neither formed nor settled before. -/
def tailOf (s : State) (p x : Nat) (h : Ph) : Int :=
  if h.supp || !fitted s p || dead s (iStream p x) || dead s (uStream (groupOf s p) (lineOf s p x)) then 0
  else
    let v := stepUnits ((fastVals s p x).q * ((127 - h.discard : Nat) : Rat))
    if h.qPos then v else -v

/-- The amounts of a phase that a commit moves, and the phase after it (06 R168, 08 R212, R213). A regular commit leaves
the carries of a phase without steps as they are (06 R169, 05 R150); the forced commit covers them (08 R212). -/
def movedOf (s : State) (p x : Nat) (forced : Bool) (h : Ph) : List (Nat × Nat × Nat) × Ph :=
  if forced then
    let rea := carryAdd (rateAgo s 0) (tailOf s p x h) h.rea
    (h.closed ++ closeAct h.pPos h.act ++ closeRea h.pPos h.qPos rea,
     { h with closed := [], act := List.replicate 8 0, rea := List.replicate 8 0, discard := 127 })
  else if h.supp || dead s (iStream p x) || dead s (uStream (groupOf s p) (lineOf s p x)) then (h.closed, { h with closed := [] })
  else
    (h.closed ++ closeAct h.pPos (h.act.map (max 0)) ++ closeRea h.pPos h.qPos (h.rea.map (max 0)),
     { h with closed := [], act := h.act.map (min 0), rea := h.rea.map (min 0) })

/-- The credits of a commit in this state (08 R205). -/
def creditsOf (s : State) (forced : Bool) : Credits :=
  foldN 72 (fun i l => (movedOf s (i / 3) (i % 3) forced (getPh s (i / 3) (i % 3))).1.foldl (creditFive (i / 3) (i % 3)) l) []

/-- The carries after it. -/
def carriesAfter (s : State) (forced : Bool) : List Ph :=
  s.meter.phs.zipIdx.map fun h => (movedOf s (h.2 / 3) (h.2 % 3) forced h.1).2

/-- Registers whose credit a pulse output counts (06 R180, 07 R201). -/
def pulseRegs (q : Bool) (k : PulseSel) : List Nat :=
  if k.source == 0xFF then []
  else
    let base := if k.source == 24 then 2304 else if k.phase == 0xFF then 96 * k.source + 24 else 96 * k.source + 8 * k.phase
    let qs := if q then (if k.dir == 0 then [2, 3] else if k.dir == 1 then [4, 5] else [2, 3, 4, 5])
              else (if k.dir == 0 then [0] else if k.dir == 1 then [1] else [0, 1])
    qs.map (base + ·)

/-- A pulse output receives its part of the credits, and its work of the tick follows where it waits for them (06 R182). -/
def pulseCredit (s : State) (cr : Credits) (k : Pulse × Nat) : Pulse :=
  let q := { k.1 with credit := k.1.credit + ((pulseRegs (k.2 == 1) k.1.sel).map (spGet 0 cr)).foldl (· + ·) 0 }
  if q.owed then pulseRun s q else q

/-- Bytes of a journal entry and the CRC of a slot (08 Table EG-4). -/
def slotEntry (e : Nat × Nat) : List Byte := le 2 e.1 ++ [0, 0] ++ le 8 (e.2 / 4294967296) ++ le 4 e.2
def slotCrc (k : Slot) : Nat :=
  crc32 (le 8 k.commit ++ le 8 k.tick ++ le 2 k.entries.length ++ le 2 k.flags ++ le 8 k.time ++ k.entries.flatMap slotEntry)

/-- TIME of a slot (08 Table EG-4). -/
def slotStamp (s : State) : Nat := s.rtc.sec % 2 ^ 48 + b2n s.rtc.valid * 2 ^ 63

/-- The next register of the refresh that this commit does not change (08 R210). -/
def refreshReg (s : State) (cr : Credits) : Nat :=
  ((List.range 2376).map fun i => (s.eg.refresh + i) % 2376).find? (fun r => spGet 0 cr r == 0) |>.getD s.eg.refresh

/-- An entry of a commit reaches the image (08 R208 step 3). -/
def applyEntry (n : Nat) (l : List (Nat × Reg)) (e : Nat × Nat) : List (Nat × Reg) := spSet {} l e.1 ⟨e.2, n % 4294967296⟩

/-- The commit of the last commit tick was missed and is completed in this tick (02 Table TK-3). -/
def commitLate (s : State) : Bool := now s % 8 == 1 && s.eg.doneTick.any fun d => decide (d + 1 < now s)

/-- A commit with demand-state words: carries to registers, journal slot, image (08 R205 to R210). -/
def commitRegs (words : List (Nat × Nat)) (forced : Bool) (s : State) : State :=
  let cr := creditsOf s forced
  let n := s.eg.commits + 1
  let regular := now s % 8 == 0 || commitLate s
  let ct := s.eg.ctCount + b2n regular
  let r := refreshReg s cr
  let rf := regular && ct % 1024 == 0 && spGet 0 cr r == 0
  let es := cr.map (fun c => (c.1, ((regOf s c.1).e + c.2) % 2 ^ 96)) ++ (if rf then [(r, (regOf s r).e)] else []) ++ words
  let after := s.eg.after || forced
  let k : Slot := { commit := n, tick := now s, flags := bitsOf [forced, forced, rf, after], time := slotStamp s, entries := es }
  { s with
    meter := { s.meter with
      phs := carriesAfter s forced, pulses := s.meter.pulses.zipIdx.map (pulseCredit s cr) }
    eg := { s.eg with
      regs := es.foldl (applyEntry n) s.eg.regs
      slots := s.eg.slots.set (n % 2) (some { k with crc := slotCrc k })
      commits := n, doneTick := some (now s), ctCount := ct
      refresh := if rf then (r + 1) % 2376 else s.eg.refresh
      forced := if forced then none else s.eg.forced
      after := after } }

/-- The forced commit of this tick is due (08 R212). -/
def forcedDue (s : State) : Bool := match s.eg.forced with
  | some t => decide (t ≤ now s)
  | none => false

/-- A commit is due in this tick and not yet done (08 R207, R212, 13 R319, 02 R55). -/
def commitDue (s : State) : Bool :=
  orRun s && s.eg.restored && s.eg.doneTick != some (now s) &&
    (now s % 8 == 0 || commitLate s || forcedDue s)

/-- MAINS_PRESENT (08 R212). -/
def mainsPresent (s : State) : Bool :=
  (List.range 4).any fun g => grpFitted s g && decide (v50 ≤ nth (getGrp s g).urms (getGrp s g).ref 0)

/-- The fall of PFAIL_N confirmed in tick t begins a supply loss: tick t + 1 becomes a forced commit tick where Orchard
has restored its registers (08 R212). -/
def lossBegins (t : Nat) (s : State) : State :=
  { s with
    eg := { s.eg with pfailTick := some t, forced := if orRun s && s.eg.restored then some (t + 1) else s.eg.forced } }

/-- PFAIL_N has risen in tick t before a reset: SUPPLY_RETURN with the ticks it was low (08 R215). -/
def supplyReturn (t : Nat) (s : State) : State :=
  match s.eg.pfailTick with
  | some f =>
    let s1 := { s with eg := { s.eg with pfailTick := none, after := false, rise := none, again := none } }
    if orRun s then cairnO 0x31 0xFF (le 4 (min (t - f) 0xFFFFFFFF)) s1 else s1
  | none => s

/-- The seal entries held since the fall come behind SUPPLY_LOSS (15 Table SA-8). -/
def sealBehind (s : State) : State :=
  { s with cairn := { s.cairn with queue := s.cairn.queue ++ s.cairn.behind, behind := [] } }

/-- The SUPPLY_LOSS entry and Keystone's record after a forced commit (08 Table EG-5 steps 5 and 6). -/
def lossLogged (s : State) : State :=
  let s1 := sealBehind (cairnO 0x30 0xFF (le 8 s.eg.commits ++ [byteOf (b2n (mainsPresent s))]) s)
  if ksRun s1 then writeKsRecord (closedMap s1) s1 else s1

/-- A later fall, confirmed in tick t, starts the sequence again (08 R215); the forced commit of this tick t + 1 is its
own. PFAIL_N may have risen once more since. -/
def lossAgain (t : Nat) (s : State) : State :=
  let s1 := lossBegins t s
  if t < now s then
    let s2 := lossLogged { s1 with eg := { s1.eg with forced := none, after := true } }
    if s2.boot.pfailN then supplyReturn (now s) s2 else s2
  else if s1.boot.pfailN then { s1 with eg := { s1.eg with rise := some (now s) } } else s1

/-- What follows the forced commit: its entry and record, then a rise that came before it, and then a fall after that rise
(08 Table EG-5, R215). -/
def afterForced (s : State) : State :=
  let s1 := lossLogged s
  match s1.eg.rise with
  | some r =>
    let s2 := supplyReturn r s1
    match s1.eg.again with
    | some t => lossAgain t s2
    | none => s2
  | none => s1

/-- The commit of this tick with demand-state words. -/
def commitNow (words : List (Nat × Nat)) (s : State) : State :=
  let f := forcedDue s
  let s1 := commitRegs words f s
  if f then afterForced s1 else s1

/-- A slot with a valid CRC (08 R208). -/
def slotOk (k : Option Slot) : Bool := match k with
  | some k => k.crc == slotCrc k
  | none => false

/-- The slot that a restore applies (08 Table EG-6 step 1). -/
def bestSlot (s : State) : Option Slot :=
  (s.eg.slots.filter slotOk).foldl (fun b k => match b, k with
    | some b, some k => if b.commit < k.commit then some k else some b
    | none, k => k
    | b, none => b) none

/-- E of a register, and its sums over indices. -/
def eOf (s : State) (r : Nat) : Nat := (regOf s r).e
def sumE (s : State) (l : List Nat) : Nat := (l.map (eOf s)).foldl (· + ·) 0
def phaseRegs (p q : Nat) : List Nat := (List.range 3).map fun x => 96 * p + 8 * x + q
def rateRegs (p q : Nat) : List Nat := (List.range 8).map fun t => 96 * p + 32 + 8 * t + q

/-- One of the two 64-bit words of a register, 2r with VALUE and 2r + 1 with RESIDUE and LAST_COMMIT, is uncorrectable (08
R204). -/
def wordBad (errs : List Nat) (r : Nat) : Bool := errs.contains (2 * r) || errs.contains (2 * r + 1)

/-- A register whose contents or whose words are at fault is rebuilt, with its REG_FAULT entry (08 R218). -/
def rebuild (errs : List Nat) (r e : Nat) (s : State) : State :=
  if eOf s r == e && !wordBad errs r then s
  else
    let f := regOf s r
    cairnO 0x22 (if r < 2304 then r / 96 else 0xFF) (le 2 r ++ [0, 0] ++ le 8 (f.e / 4294967296) ++ le 8 (e / 4294967296))
      { s with eg := { s.eg with regs := spSet {} s.eg.regs r ⟨e, f.last⟩ } }

/-- A port is held, its registers kept as found, with its REG_FAULT entry (08 R218). -/
def holdPort (p r : Nat) (s : State) : State :=
  let v := eOf s r / 4294967296
  cairnO 0x22 p (le 2 r ++ [1, 0] ++ le 8 v ++ le 8 v) { s with eg := { s.eg with held := s.eg.held.set p true } }

/-- The checks of R206 for one quantity of a port, and uncorrectable words in its registers (08 R218). -/
def checkPort (errs : List Nat) (p q : Nat) (s : State) : State :=
  let a := sumE s (phaseRegs p q)
  let b := sumE s (rateRegs p q)
  let t := 96 * p + 24 + q
  let bad := (phaseRegs p q ++ rateRegs p q).filter (wordBad errs)
  if !bad.isEmpty then bad.foldl (fun s r => holdPort p r s) s
  else if a == b then rebuild errs t a s
  else holdPort p t s

/-- The checks of R206 for one quantity of the hub (08 R218). -/
def checkHub (errs : List Nat) (q : Nat) (s : State) : State :=
  let s1 := rebuild errs (2304 + q) (sumE s ((List.range 24).map fun p => 96 * p + 24 + q)) s
  foldN 8 (fun t s => rebuild errs (2312 + 8 * t + q) (sumE s ((List.range 24).map fun p => 96 * p + 32 + 8 * t + q)) s) s1

/-- An entry of which one 64-bit word reads as d; the other stays as found (08 R204). -/
def wordRead (w d : Nat) (k : Reg) : Reg :=
  if w % 2 == 0 then ⟨d % 2 ^ 64 * 2 ^ 32 + k.e % 2 ^ 32, k.last⟩
  else ⟨k.e / 2 ^ 32 * 2 ^ 32 + d % 2 ^ 32, d / 2 ^ 32 % 2 ^ 32⟩

/-- Every word of the image is read: a corrected one is written back with its contents, and of one with an
uncorrectable error, an energy register's or a demand-state word's, the contents are a free value (08 R204, Table EG-6
step 3, log 2). -/
def readImage (errs : List Nat) (s : State) : State :=
  errs.foldl (fun s w =>
    let d := draw s
    { d.2 with eg := { d.2.eg with regs := spSet {} d.2.eg.regs (w / 2) (wordRead w d.1 (regOf s (w / 2))) } }) s

/-- Seconds without supply (08 Table EG-6 step 5). -/
def secondsOff (s : State) (k : Option Slot) : Nat := match k with
  | some k =>
    let t := k.time % 2 ^ 48
    if k.time.testBit 63 && s.rtc.valid && decide (t ≤ s.rtc.sec) then min (s.rtc.sec - t) 0xFFFFFFFF else 0xFFFFFFFF
  | none => 0xFFFFFFFF

/-- Steps 1 to 5 of the restore (08 Table EG-6): image, sums, POWER_RESTORE, UNCOMMITTED_RESET. errs: the 64-bit words
of the image with an uncorrectable error, 2r and 2r + 1 for register r. -/
def restoreRegs (errs : List Nat) (s : State) : State :=
  let k := bestSlot s
  let s1 := match k with
    | some k => { s with eg := { s.eg with
        regs := k.entries.foldl (applyEntry k.commit) s.eg.regs, commits := max s.eg.commits k.commit, restTick := k.tick } }
    | none => s
  let s2 := eachPort (fun p s => foldN 8 (checkPort errs p) s) (readImage errs s1)
  let s3 := foldN 8 (checkHub errs) s2
  let tick := match k with
    | some k => k.tick
    | none => 0
  let s4 := cairnO 0x33 0xFF (le 8 tick ++ le 4 (secondsOff s k)) s3
  match k with
  | some k => if k.flags.testBit 3 then s4 else cairnO 0x32 0xFF ([byteOf s.boot.cause] ++ zeros 7 ++ le 8 k.tick) s4
  | none => s4

/-- ENERGY_READ (08 Table EG-8). -/
def energyReadBody (pl : List Byte) (s : State) : Served :=
  let a := fld pl 0 2
  let n := fld pl 2 2
  if !rdy s rOR then no 0x03F0 s
  else if !(decide (a ≤ 2375 ∧ 1 ≤ n ∧ n ≤ 380 ∧ a + n ≤ 2376)) then no 0x03F1 s
  else
    let held := (List.range 24).any fun p => nth s.eg.held p false && decide (a < 96 * p + 96 ∧ 96 * p < a + n)
    let es := (List.range n).flatMap fun i =>
      let r := regOf s (a + i)
      le 8 (r.e / 4294967296) ++ le 4 r.e ++ le 4 r.last
    ok 0x0300 (le 2 a ++ le 2 n ++ le 4 (b2n held) ++ le 8 s.eg.commits ++ es) s

def execEnergyRead (ch : Nat) (s : State) : Out := .next (serve 0x0307 (len 8) energyReadBody ch s)

end Sys2Proof.Machine
end

