-- ==== Sys2Proof/Machine/Fencing.lean ====
section
/-!
DEFINITION. Spares, fences and their lifts, the availability counters (25, 01 R26 to R31, R43 to R47).
-/

namespace Sys2Proof.Machine

/-- A stop that only a fence calls for, where Table SF-3 names no cause (log 40). -/
def fenceCause : Nat := 0x0D

/-- A port goes through safe stop where it conducts, and is fenced (01 R43, 25 R541). -/
def stopFence (p cause cls det : Nat) (req : Bool) (s : State) : State :=
  startStop p cause (some (cls, det, req)) (if portOn s p then s else endSequence p s)

/-- No port of the group conducts or stops. -/
def groupQuiet (s : State) (g : Nat) : Bool :=
  (List.range 24).all fun p => !(fitted s p && groupOf s p == g) || (!portOn s p && !stopping (getPort s p))

/-- A group fence whose ports have stopped takes effect (25 R541). -/
def settleGroup (g : Nat) (s : State) : State :=
  match nth s.fences.grp g none with
  | some (c, d, r) =>
    if groupQuiet s g then fenceNow 1 g r c d { s with fences := { s.fences with grp := s.fences.grp.set g none } } else s
  | none => s

/-- A voltage group is to be fenced: every port of it first stops (25 R541, Table SP-2). -/
def fenceGroup (g cause cls det : Nat) (req : Bool) (s : State) : State :=
  let want : Option (Nat × Nat × Bool) := match nth s.fences.grp g none with
    | some (c, d, false) => some (c, d, false)
    | _ => some (cls, det, req)
  let s1 := { s with fences := { s.fences with grp := s.fences.grp.set g want } }
  let s2 := eachPort (fun p s => if fitted s p && groupOf s p == g then
      withdrawPermit p cause (if portOn s p then startStop p cause none s else endSequence p s) else s) s1
  settleGroup g s2

/-- One tick counted in a class of the availability counters (25 R546): 0 fence, 1 reset, 2 other. -/
def availAdd (kind n : Nat) (a : Avail) : Avail :=
  { a with
    unavail := a.unavail + n
    fence := if kind == 0 then a.fence + n else a.fence
    reset := if kind == 1 then a.reset + n else a.reset
    other := if kind == 2 then a.other + n else a.other }
def availCount (p kind n : Nat) (s : State) : State :=
  updPort p (fun q => { q with year := availAdd kind n q.year, life := availAdd kind n q.life }) s
def availMains (p n : Nat) (s : State) : State :=
  updPort p (fun q => { q with
    year := { q.year with mains := q.year.mains + n }, life := { q.life with mains := q.life.mains + n } }) s

/-- The reference line of a group stood at 50 V or more in its last complete cycle (25 R545). -/
def grpMains (s : State) (g : Nat) : Bool := decide (v50 ≤ nth (getGrp s g).urms (getGrp s g).ref 0)

/-- The port is fenced, or its fence waits for its stop (01 Table AR-8, 25 R546). -/
def fenceCounts (s : State) (p : Nat) : Bool :=
  let q := getPort s p
  fencedB s 0 p || (stopping q && q.ss.fence.isSome) || (nth s.fences.grp (groupOf s p) none).isSome

/-- The reset cause is one of R44 (03 Table PU-2). -/
def ownReset (c : Nat) : Bool := c == 3 || c == 4 || c == 7 || c == 8

/-- The availability counters of one tick (25 R545, R546). -/
def availTick (s : State) : State :=
  eachPort (fun p s =>
    if !fitted s p then s
    else
      let g := groupOf s p
      let waits := !(getPort s p).hs.seen && ownReset s.boot.cause
      let m := grpMains s g || (waits && nth s.fences.mains g false)
      let s1 := if m then availMains p 1 s else s
      if fenceCounts s p then availCount p 0 1 s1 else if waits then availCount p 1 1 s1 else s1) s

/-- The bound of R98 for the images and deltas loaded, us: the terms of Table PU-17 of the images that run (03 R98). -/
def loadBound (s : State) : Nat := (s.boot.imgs.filter fun g => g.st == .active).foldl (fun n g => n + g.term) 0

/-- The counted part of a reset by another cause, taken when PORT_RDY sets (25 R546, 03 R98); a tick is 125 us. -/
def availReady (p : Nat) (s : State) : State :=
  let n := now s - s.boot.idleWin - (135000 + loadBound s) / 125
  if (getPort s p).hs.seen || ownReset s.boot.cause || n == 0 then s
  else
    let s1 := if nth s.fences.mains (groupOf s p) false then availMains p n s else s
    availCount p 1 n s1

/-- A KS activation counts its measured pause, in us, for every fitted port, in whole ticks; MAINS counts its ticks as
they pass (25 R545, R546, log 64). -/
def availPause (pause : Nat) (s : State) : State :=
  eachPort (fun p s => if fitted s p then availCount p 2 (pause / 125) s else s) s

/-- FENCE_EVENT 3 and 4: a spare is taken, and spares are exhausted (25 R547). -/
def spareEvent (dom idx : Nat) (left : Bool) (s : State) : State :=
  let s1 := fenceEvent dom idx 3 false 0 s
  if left then s1 else fenceEvent dom idx 4 false 0 s1

/-- The ports that a converter's slot list serves (01 R26). -/
def sarPorts (k : Nat) : List Nat := (List.range 24).filter fun p => p / 5 == k
def getSar (s : State) (k : Nat) : Sar := nth s.meter.sars k { role := 0, carries := 0xFF, fails := 0, run := 0, okRun := 0 }
def updSar (k : Nat) (f : Sar → Sar) (s : State) : State :=
  { s with meter := { s.meter with sars := s.meter.sars.modify k f } }
/-- The converter that runs the slot list of converter k (01 R27). -/
def sarCarrier (s : State) (k : Nat) : Option Nat :=
  (List.range 6).find? fun j => (getSar s j).role != 3 && (getSar s j).carries == k

/-- An active converter fails, or its fence is requested (01 R27, R28). -/
def sarFail (k cls det : Nat) (req : Bool) (s : State) : State :=
  let list := (getSar s k).carries
  let s1 := fenceNow 2 k req cls det (updSar k (fun q => { q with role := 3, carries := 0xFF }) s)
  if k != 5 && (getSar s 5).role == 1 then
    let s2 := spareEvent 2 5 false (updSar 5 (fun q => { q with role := 2, carries := list }) s1)
    (sarPorts list).foldl (fun s p => if fitted s p then availCount p 2 1 s else s) s2
  else if list == 0xFF then s1
  else (sarPorts list).foldl (fun s p => if fitted s p then stopFence p fenceCause cls det req s else s) s1

/-- SAR_SPARE_TAKEOVER (01 R27, R28). -/
def sarTakeover (k : Nat) (s : State) : State :=
  if k < 5 && (getSar s k).role == 0 && 2 ≤ (getSar s k).run then sarFail k 4 k false s else s

def execSarSpareTakeover (k : Nat) (s : State) : Out := .next (gated (tickRun s) (sarTakeover k) s)

/-- SAR5_FAIL (05 R157, 01 R28). -/
def sar5Fail (s : State) : State :=
  let q := getSar s 5
  if (q.role == 1 || q.role == 2) && 2 ≤ q.run then sarFail 5 4 5 false s else s

def execSar5Fail (s : State) : Out := .next (gated (tickRun s) sar5Fail s)

/-- The self-test of each converter in one tick: any result more than 8 codes off; the five references follow each
other, in an idle SAR5 over all its slots (05 R156, R157). -/
def refsBad (codes : List Nat) : Bool :=
  codes.zipIdx.any fun e =>
    let b := nth [256, 1024, 2048, 3072, 3840] (e.2 % 5) 0
    decide (b + 8 < e.1 ∨ e.1 + 8 < b)
def sarTick (refs : List (List Nat)) (s : State) : State :=
  foldN 6 (fun k s =>
    let bad := refsBad (nth refs k [256, 1024, 2048, 3072, 3840])
    updSar k (fun q => { q with
      fails := if bad then sat16 q.fails else q.fails
      run := if bad then q.run + 1 else 0
      okRun := if bad then 0 else min 65535 (q.okRun + 1) }) s) s

/-- The lane that carries a port, and the free spare lanes (01 R29). -/
def laneOf (s : State) (p : Nat) : Option Nat := (List.range 28).find? fun l => nth s.meter.lanes.map l 0xFF == p
def laneFree (s : State) (l : Nat) : Bool :=
  nth s.meter.lanes.map l 0xFF == 0xFF && !fencedB s 3 l && nth s.meter.lanes.withdrawn l 0 < 2
def freeLanes (s : State) : List Nat := (List.range 28).filter (laneFree s)
def updLanes (f : Lanes → Lanes) (s : State) : State :=
  { s with meter := { s.meter with lanes := f s.meter.lanes } }

/-- A lane is withdrawn (01 R30, 25 R540). -/
def withdrawLane (l cls det : Nat) (req : Bool) (s : State) : State :=
  if fencedB s 3 l then s
  else fenceNow 3 l req cls det (updLanes (fun q => { q with
    withdrawn := q.withdrawn.modify l (· + 1), map := q.map.set l 0xFF
    shadow := (q.shadow.map fun k => if k == l then 0xFF else k).set l 0xFF }) s)

/-- A spare lane takes a port (01 R30). -/
def takeLane (l p : Nat) (s : State) : State :=
  let s1 := updLanes (fun q => { q with map := q.map.set l p, shadow := q.shadow.set l 0xFF }) s
  spareEvent 3 l (!(freeLanes s1).isEmpty) s1

/-- The active lanes in order. -/
def activeLanes (s : State) : List Nat := (List.range 28).filter fun l => nth s.meter.lanes.map l 0xFF != 0xFF

/-- A free spare that shadows no lane takes the next active lane (01 R29). -/
def shadowSpare (l : Nat) (s : State) : State :=
  let act := activeLanes s
  if laneFree s l && nth s.meter.lanes.shadow l 0xFF == 0xFF && !act.isEmpty then
    updLanes (fun q => { q with
      shadow := q.shadow.set l (nth act (q.rot % act.length) 0xFF), rot := (q.rot + 1) % act.length }) s
  else s
def shadowFree (s : State) : State := (freeLanes s).foldl (fun s l => shadowSpare l s) s

/-- The spare that takes over from a lane: the one that shadows it and so holds its port's state, else the lowest free (01
R30). -/
def heirOf (s : State) (l : Nat) : Option Nat :=
  match (freeLanes s).find? fun k => k != l && nth s.meter.lanes.shadow k 0xFF == l with
  | some k => some k
  | none => ((freeLanes s).filter (· != l)).head?

/-- A lane fails or its fence is requested: a spare carries its port, or the port is fenced; spares left without a lane
shadow another (01 R29 to R31). -/
def laneFail (l cls det : Nat) (req : Bool) (s : State) : State :=
  let p := nth s.meter.lanes.map l 0xFF
  let s1 := withdrawLane l cls det req s
  if p == 0xFF then s1
  else match heirOf s l with
    | some k => shadowFree (takeLane k p s1)
    | none => if fitted s p then stopFence p fenceCause cls det req s1 else s1

/-- LANE_SHADOW_ROTATE (01 R29). -/
def laneRotate (s : State) : State :=
  let fs := freeLanes s
  let act := activeLanes s
  if orRun s && !fs.isEmpty && !act.isEmpty && s.meter.lanes.rotTick + 8000 ≤ now s then
    updLanes (fun q => { q with
      shadow := fs.zipIdx.foldl (fun l e => l.set e.1 (nth act ((q.rot + e.2) % act.length) 0xFF)) (List.replicate 28 0xFF)
      rot := (q.rot + fs.length) % act.length, rotTick := now s }) s
  else s

def execLaneShadowRotate (s : State) : Out := .next (gated (orRun s) laneRotate s)

/-- LANE_MISMATCH (01 R30): lane l and the spare that shadows it have run the known-answer vector. -/
def laneMismatch (l sp : Nat) (lanePass spPass : Bool) (s : State) : State :=
  let p := nth s.meter.lanes.map l 0xFF
  if l < 28 && sp < 28 && p != 0xFF && laneFree s sp && nth s.meter.lanes.shadow sp 0xFF == l then
    match lanePass, spPass with
    | true, true => evrec 0x0302 2 p [byteOf l, byteOf sp] s
    | false, true => shadowFree (takeLane sp p (withdrawLane l 3 l false s))
    | true, false => withdrawLane sp 3 sp false s
    | false, false =>
      let s1 := shadowFree (withdrawLane sp 3 sp false (withdrawLane l 3 l false s))
      if fitted s p then stopFence p fenceCause 3 l false s1 else s1
  else s

def execLaneMismatch (l sp : Nat) (lanePass spPass : Bool) (s : State) : Out :=
  .next (gated (orRun s) (laneMismatch l sp lanePass spPass) s)

/-- LANE_SELF_CHECK (01 R31): with no free spare each lane is checked once per second. -/
def laneCheck (failed : List Nat) (s : State) : State :=
  if orRun s && (freeLanes s).isEmpty && s.meter.lanes.rotTick + 8000 ≤ now s then
    let s1 := updLanes (fun q => { q with rotTick := now s }) s
    (activeLanes s).foldl (fun s l => if failed.contains l then laneFail l 3 l false s else s) s1
  else s

def execLaneSelfCheck (failed : List Nat) (s : State) : Out := .next (gated (orRun s) (laneCheck failed) s)

/-- The lanes at the start of OR (25 R540, Table SP-2): withdrawn lanes that pass come back as spares unless withdrawn
twice, failing lanes are withdrawn, and a port without a lane takes the lowest free spare. -/
def lanesBoot (failed : List Nat) (s : State) : State :=
  let s0 := updLanes (fun q => { q with
    kav := (List.range 28).map fun l => !failed.contains l, rotTick := now s }) s
  let s1 := foldN 28 (fun l s =>
    if fencedB s 3 l && !requestedB s 3 l && nth s.meter.lanes.withdrawn l 0 < 2 && !failed.contains l then unfenceNow 3 l s
    else s) s0
  let s2 := foldN 28 (fun l s => if failed.contains l then withdrawLane l 3 l false s else s) s1
  shadowFree (eachPort (fun p s => match laneOf s p, (freeLanes s).head? with
    | none, some l => takeLane l p s
    | _, _ => s) s2)

/-- A stream passes liveness, and bias where it is judged (05 R151). -/
def streamLive (s : State) (k : Nat) : Bool := let q := getStream s k; !marked q && !q.failed
def streamReady (s : State) (k : Nat) : Bool :=
  streamLive s k && !(getStream s k).biasFail && (k % 4 == 3 || 96 ≤ k || (getStream s k).biasOk)

/-- The condition of VG_RDY without the fence (03 Table PU-16). -/
def grpReady (s : State) (g : Nat) : Bool :=
  grpFitted s g && orRun s && (List.range 4).all (fun l => streamLive s (uStream g l)) && decide (4 ≤ (getGrp s g).goodN)

/-- The conditions of PORT_RDY without fence and group (03 Table PU-16, 08 R218). -/
def portReady (s : State) (p : Nat) : Bool :=
  fitted s p && rdy s rKS && rdy s rOR && (laneOf s p).any (fun l => nth s.meter.lanes.kav l false) &&
  (sarCarrier s (p / 5)).any (fun k => decide ((getSar s k).run < 2)) &&
  (List.range 4).all (fun x => streamReady s (4 * p + x)) && (calPasses s p || sealPort s) &&
  (!nth s.eg.held p false || sealPort s)

/-- A port is in state A (09 Table VH-6). -/
def inA (s : State) (p : Nat) : Bool := (getPort s p).hs.st == 1 || (getPort s p).hs.st == 2

/-- A fence that a fault placed on a port by itself. -/
def faultFenced (s : State) (p : Nat) : Bool := fencedB s 0 p && !requestedB s 0 p && !(getPort s p).byGroup

/-- The lift test of a fenced port in one tick (25 Table SP-2). -/
def liftTick (p : Nat) (s : State) : State :=
  if !faultFenced s p then s
  else
    let q := getPort s p
    let run := q.ct.stage == 2
    let calm := inA s p && (run || q.ct.cfb == 4) && q.ct.weldN.all (· == 0)
    let n := if calm then q.liftOpen + 1 else 0
    let s1 := updPort p (fun q => { q with liftOpen := n, liftRuns := if calm then q.liftRuns else 0 }) s
    let idle := q.ct.stage == 0 && q.ct.step == 0 && !anyOn q && !stopping q && !sinDemand s && !ssrDemand s
    let after := fun (w : Nat) => match q.liftAt with
      | some t => decide (t + w ≤ now s)
      | none => true
    match q.fenceBy with
    | some (1, _) =>
      if idle && decide (80000 ≤ n) && q.liftRuns < 3 && after 480000 then
        updPort p (fun q => { q with ct := { q.ct with stage := 2, step := 2, stepN := 0, stepBad := false }, liftAt := some (now s) }) s1
      else s1
    | some (2, k) =>
      if idle && calm && k % 4 == 3 && k < 96 && q.liftRuns == 0 && decide (8000 ≤ (getStream s k).live) && after 80000 then
        beginSequence p s1
      else s1
    | _ => s1

/-- The condition under which Keystone lifts the fault fence of a port (25 Table SP-2). -/
def portLift (s : State) (p : Nat) : Bool :=
  let q := getPort s p
  faultFenced s p && (match q.fenceBy with
    | some (1, _) => decide (80000 ≤ q.liftOpen) && decide (3 ≤ q.liftRuns) && inA s p
    | some (2, k) =>
      decide (8000 ≤ (getStream s k).live) && !(getStream s k).biasFail && (96 ≤ k || k % 4 != 3 || decide (1 ≤ q.liftRuns))
    | some (3, _) | some (4, _) => !q.hs.seen && grpReady s (groupOf s p) && portReady s p
    | _ => false)

/-- The condition for the fault fence of a group (25 Table SP-2). -/
def grpLift (s : State) (g : Nat) : Bool :=
  fencedB s 1 g && !requestedB s 1 g && grpReady s g &&
  (List.range 4).all fun l => decide (8000 ≤ (getStream s (uStream g l)).live) && !(getStream s (uStream g l)).biasFail

/-- The condition for a converter: after a full reset, 16 successive self-tests passed (25 Table SP-2). -/
def sarLift (s : State) (k : Nat) : Bool :=
  fencedB s 2 k && !requestedB s 2 k && decide (16 ≤ (getSar s k).okRun ∧ min (now s) 65535 ≤ (getSar s k).okRun)

/-- A converter comes back: to its own slot list where nothing carries it, else as a spare without one. -/
def sarBack (k : Nat) (s : State) : State :=
  unfenceNow 2 k (updSar k (fun q => { q with
    role := if k == 5 then 1 else 0, carries := if k == 5 then 0xFF else if (sarCarrier s k).isNone then k else 0xFF }) s)

/-- FENCE_LIFT_AUTO (25 R542): the fence of a Keystone domain lifts in the tick in which its conditions hold. -/
def fenceLiftAuto (dom idx : Nat) (s : State) : State :=
  if dom == 0 && portLift s idx then unfenceNow 0 idx s
  else if dom == 1 && grpLift s idx then unfenceNow 1 idx s
  else if dom == 2 && sarLift s idx then sarBack idx s
  else s

def execFenceLiftAuto (dom idx : Nat) (s : State) : Out := .next (gated (ksRun s) (fenceLiftAuto dom idx) s)

/-- The effect of a fence that the host asks for (25 Table SP-2). -/
def fenceDomain (dom idx : Nat) (s : State) : State :=
  match dom with
  | 0 => stopFence idx 0x01 0 0 true s
  | 1 => fenceGroup idx 0x01 0 0 true s
  | 2 => if (getSar s idx).role == 3 then fenceNow 2 idx true 0 0 s else sarFail idx 0 0 true s
  | 3 => laneFail idx 0 0 true s
  | 4 => fenceNf idx true 0 0 s
  | 6 => (lsBoth s (lsLead s idx)).foldl (fun s c => fenceNow 6 c true 0 0 s) s
  | _ => fenceNow dom idx true 0 0 s

/-- FENCE_REQUEST (25 Table SP-6). -/
def fenceRequestBody (ch : Nat) (pl : List Byte) (s : State) : Served :=
  let d := fld pl 0 1
  let i := fld pl 1 1
  if d == 11 || (d == 10 && i == ch) then no 0x1513 s
  else if !(decide (d ≤ 10) && decide (i < fenceCnt d)) then no 0x15F1 s
  else if d < 4 && !rdy s rKS then no 0x15F0 s
  else
    let was := fun p => stopping (getPort s p)
    let s1 := fenceDomain d i s
    let began := (List.range 24).any fun p => stopping (getPort s1 p) && !was p
    ok 0x1500 [byteOf d, byteOf i, byteOf (b2n began), 0] s1

def execFenceRequest (ch : Nat) (s : State) : Out := .next (serve 0x1501 (len 4) (fenceRequestBody ch) ch s)

/-- What a lift by the host gives back (25 R542, Table SP-2). -/
def liftDomain (dom idx : Nat) (s : State) : State :=
  match dom with
  | 2 => sarBack idx s
  | 3 => shadowFree (unfenceNow 3 idx s)
  | 4 => unfenceNow 10 (6 + idx) (unfenceNow 4 idx s)
  | 6 => (lsBoth s (lsLead s idx)).foldl (fun s c => unfenceNow 6 c s) s
  | _ => unfenceNow dom idx s

/-- FENCE_LIFT (25 R542, Table SP-7); pass is the outcome of the domain's lift test of Table SP-2. -/
def fenceLiftBody (pass : Bool) (pl : List Byte) (s : State) : Served :=
  let d := fld pl 0 1
  let i := fld pl 1 1
  if !(decide (d ≤ 11) && decide (i < fenceCnt d)) then no 0x15F1 s
  else if !fencedB s d i then no 0x1512 s
  else if d < 4 && (!requestedB s d i || (d == 0 && (getPort s i).byGroup)) then no 0x1510 s
  else if d == 11 || (d > 3 && !pass) || (d == 9 && (nth s.qr.chips i {}).st == 2) then no 0x1511 s
  else ok 0x1500 ([byteOf d, byteOf i, 0, 0] ++ le 8 (now s)) (liftDomain d i s)

def execFenceLift (ch : Nat) (pass : Bool) (s : State) : Out := .next (serve 0x1502 (len 4) (fenceLiftBody pass) ch s)

/-- Healthy spare cells of the vault (25 Table SP-8, 19 R448): those that no slot uses. -/
def spareCells (s : State) : List Nat :=
  (List.range 128).filter fun k => !s.vault.map.contains k && !(nth s.vault.cells k {}).bad

/-- Blocks of a chip by number; one not listed is erased and unused. -/
def getBlk (k : Chip) (b : Nat) : Blk := spGet {} k.blks b
def chipOf (s : State) (i : Nat) : Chip := nth s.qr.chips i {}
/-- Units of a block, 64 pages of one unit or of two (18 R432, Table QS-2), and its size beside the block of Table QS-5. -/
def unitsPer (k : Chip) : Nat := if k.page4 then 128 else 64
def blkScale (k : Chip) : Nat := if k.page4 then 2 else 1
/-- The zone quotas that lie on chip i of the four, in blocks of 64 units, by what is fitted (18 R437, Table QS-5). -/
def chipQuota (s : State) (i : Nat) : Nat :=
  let f := fun j => (nth s.qr.chips j {}).fit
  let two := fun c => f (2 * c) && f (2 * c + 1)
  if (f 0 || f 1) && (f 2 || f 3) then
    if i % 2 == 1 && f (i - 1) then 4 else if i < 2 then 960 else 852
  else if two 0 || two 1 then 906 else 1776
/-- RESERVE of a chip: good blocks unassigned after the zone quotas; blocks beyond 2 Gbit go to zones (18 R434, R437). -/
def chipReserve (s : State) (i : Nat) : Nat :=
  let k := nth s.qr.chips i {}
  let n := blkScale k
  min k.blocks (2048 / n) - (chipQuota s i + n - 1) / n - k.badF - k.badR

/-- SPARES_STATUS (25 Table SP-8). -/
def sparesStatusBody (_ : List Byte) (s : State) : Served :=
  if !rdy s rAP then no 0x15F0 s
  else
    let out := (List.range 28).filter fun l => fencedB s 3 l
    ok 0x1500 (s.meter.lanes.map.map byteOf ++
      [byteOf (freeLanes s).length, byteOf out.length, byteOf (getSar s 5).role, 0] ++ s.fences.rows.map byteOf ++
      le 4 s.fences.corrected ++ [byteOf (spareCells s).length, 0, 0, 0] ++
      (List.range 4).flatMap (fun i => le 2 (if (chipOf s i).fit then chipReserve s i else 0)) ++
      le 32 s.fences.requested.toNat) s

def execSparesStatus (ch : Nat) (s : State) : Out := .next (serve 0x1503 (len 0) sparesStatusBody ch s)

/-- AVAIL_READ (25 Table SP-9). -/
def availReadBody (pl : List Byte) (s : State) : Served :=
  let c := fld pl 0 1
  if !rdy s rAP then no 0x15F0 s
  else if !(decide (c ≤ 1)) then no 0x15F1 s
  else
    let e := fun (a : Avail) => le 8 a.mains ++ le 8 a.unavail ++ le 8 a.fence ++ le 8 a.reset ++ le 8 a.other
    ok 0x1500 ([byteOf c] ++ zeros 7 ++ le 8 (if c == 0 then s.fences.yearStart else s.fences.lifeStart) ++
      s.ports.flatMap fun q => e (if c == 0 then q.year else q.life)) s

def execAvailRead (ch : Nat) (s : State) : Out := .next (serve 0x1504 (len 4) availReadBody ch s)

end Sys2Proof.Machine
end

