-- ==== Sys2Proof/Machine/FrontEnd.lean ====
section
/-!
DEFINITION. The commands and stream events of the metering front end, the reading commands and the pulse outputs
(05 R148 to R159, 06 R163 to R184).
-/

namespace Sys2Proof.Machine

/-- STREAM_FAULT (05 R148, R149): a stream's check finds STUCK (1) or OVERRANGE (2); an overrange of a phase current
is an overcurrent, reported in this tick. -/
def streamFault (k cond : Nat) (s : State) : State :=
  let q := getStream s k
  if streamFit s k && s.clk.xref && q.cond < cond && cond ≤ 2 then
    let s1 := updStream k (fun q => { q with cond := cond, clear := 0 }) s
    if cond == 2 && k < 96 && k % 4 != 3 then
      let p := k / 4
      let s2 := updPort p (fun q => { q with ct := { q.ct with vOver := true } }) s1
      if portOn s2 p then startStop p 0x14 none s2 else endSequence p s2
    else s1
  else s

def execStreamFault (k cond : Nat) (s : State) : Out := .next (gated (tickRun s) (streamFault k cond) s)

/-- The mean of a bias window is off by more than 0.5 % of full scale (05 Table MF-11). -/
def biasOff (q : Stream) : Bool := decide (41943 * q.winN < q.winSum.natAbs)

/-- BIAS_WINDOW_END (05 R148): 512 ticks at start-up of a phase current, one second in service. DESIGN CHOICE: a service
window without a whole cycle leaves the run of bad windows as it is, and one good service window ends a failure of the
start-up window (log 135). -/
def biasWindowEnd (k : Nat) (s : State) : State :=
  let q := getStream s k
  if !streamFit s k || (k < 96 && k % 4 == 3) then s
  else if k < 96 && !q.biasDone then
    if q.winTicks < 512 then s
    else updStream k (fun q => { q with
      biasDone := q.winN != 0, biasOk := q.winN != 0 && !biasOff q, biasFail := q.biasFail || (q.winN != 0 && biasOff q)
      winSum := 0, winN := 0, winTicks := 0, whole := false }) s
  else if q.winTicks < 8000 then s
  else
    let n := if q.winN == 0 then q.biasBad else if biasOff q then q.biasBad + 1 else 0
    updStream k (fun q => { q with
      biasBad := n, biasFail := decide (3 ≤ n) || (q.biasFail && n != 0), biasOk := q.biasOk || n == 0
      winSum := 0, winN := 0, winTicks := 0, whole := false }) s

def execBiasWindowEnd (k : Nat) (s : State) : Out := .next (gated (tickRun s) (biasWindowEnd k) s)

/-- The samples of the ticks a to b, newest first, in a history whose newest sample is that of tick n. -/
def histRun (n a b : Nat) (l : List (Int × Bool)) : List (Int × Bool) := (l.drop (n - b)).take (b - a + 1)

/-- The last good cycle: the latest whole cycle in the history of 178 samples without a marker or a substitute, as its
first tick and its samples, oldest first (05 R150, log 41). -/
def goodRun (n : Nat) (runs : List (Nat × Nat)) (l : List (Int × Bool)) : Option (Nat × List Int) :=
  (runs.find? fun r =>
    let h := histRun n r.1 r.2 l
    decide (r.1 ≤ r.2 ∧ r.2 ≤ n ∧ n < r.1 + 178) && h.length == r.2 - r.1 + 1 && h.all fun e => !e.2).map fun r =>
      (r.1, ((histRun n r.1 r.2 l).map Prod.fst).reverse)

/-- STREAM_FAILED (05 R149, R150): a marker has lasted 8 ticks, or BIAS fails. -/
def streamFailed (k : Nat) (s : State) : State :=
  let q := getStream s k
  if streamFit s k && !q.failed && (decide (8 ≤ q.mark) || q.biasFail) then
    let g := streamGrp s k
    let r := (goodRun (now s) (getGrp s g).runs q.hist).getD (0, [])
    let s1 := updStream k (fun q => { q with
      failed := true, good := r.2, goodPos := if r.2.isEmpty then 0 else (now s + 1 - r.1) % r.2.length, live := 0 }) s
    if 96 ≤ k then fenceGroup g 0x0A 2 k false s1
    else if k % 4 == 3 then residualStream (k / 4) s1
    else stopFence (k / 4) 0x0A 2 k false s1
  else s

def execStreamFailed (k : Nat) (s : State) : Out := .next (gated (tickRun s) (streamFailed k) s)

/-- STATE of a stream (05 Table MF-14, log 42). -/
def streamState (s : State) (k : Nat) : Nat :=
  let q := getStream s k
  if !streamFit s k then 5 else if q.cond != 0 then q.cond else if q.biasFail then 3
  else if q.failed then 6 else if marked q then 4 else 0

/-- PATH of a phase (05 Table MF-14). -/
def pathOf (h : Ph) : Nat := if h.hold == 1 then 2 else if h.hold == 2 then 3 else b2n h.fine

/-- FRONT_END_STATUS (05 Table MF-14). -/
def frontEndBody (_ : List Byte) (s : State) : Served :=
  if !rdy s rOR then no 0x03F0 s
  else
    let st := (List.range 112).flatMap fun k =>
      [byteOf (streamState s k), byteOf (if k < 96 && k % 4 != 3 then pathOf (getPh s (k / 4) (k % 4)) else 0)] ++
        le 2 (getStream s k).subst
    let sar := s.meter.sars.flatMap fun q => [byteOf q.role, byteOf q.carries] ++ le 2 q.fails
    let ref := s.meter.grps.map fun q => byteOf (if q.sub then 0xFF else q.ref)
    ok 0x0300 (st ++ sar ++ s.meter.lanes.map.map byteOf ++ ref ++
      s.meter.phs.flatMap fun h => le 2 h.changes ++ le 2 h.escapes) s

def execFrontEndStatus (ch : Nat) (s : State) : Out := .next (serve 0x0301 (len 0) frontEndBody ch s)

/-- PATH_HOLD (05 R159, Table MF-15): the hold starts or ends at the next crossing of the group. -/
def pathHoldBody (pl : List Byte) (s : State) : Served :=
  let p := fld pl 0 1
  let x := fld pl 1 1
  let m := fld pl 2 1
  let d := fld pl 4 4
  if !(decide (p ≤ 23 ∧ x ≤ 3 ∧ m ≤ 2) && (m == 0 || decide (1 ≤ d ∧ d ≤ 3600))) then no 0x03F1 s
  else if !rdy s p then no 0x03F0 s
  else if !sealPort s then no 0x03F2 s
  else
    let s1 := foldN 3 (fun y s => if x == 3 || x == y then updPh (3 * p + y) (fun h => { h with holdReq := some (m, d) }) s else s) s
    ok 0x0300 ([byteOf p] ++ ((List.range 3).map fun y => byteOf (pathOf (getPh s p y))) ++ zeros 4) s1

def execPathHold (ch : Nat) (s : State) : Out := .next (serve 0x0302 (len 8) pathHoldBody ch s)

/-- The values of a phase: fast (0) or cycle (1); 0 while a stream has no substitute (05 R150, 06 R163), which where no good
cycle exists is a DESIGN CHOICE until the switches are open (log 150). -/
def valsSet (s : State) (p x set : Nat) : Vals :=
  if dead s (iStream p x) || dead s (uStream (groupOf s p) (lineOf s p x)) then {}
  else if set == 0 then fastVals s p x else (getPh s p x).vals.getD {}

/-- A substituted sample lies among the last n of a stream. -/
def subWithin (s : State) (k n : Nat) : Bool := ((getStream s k).hist.take n).any Prod.snd

/-- A substituted sample lies within the value: for a fast value within the 39 taps and the boxcar (06 Table MQ-12). -/
def valsSub (s : State) (p x set : Nat) : Bool :=
  let h := getPh s p x
  dead s (iStream p x) || dead s (uStream (groupOf s p) (lineOf s p x)) ||
    (if set == 0 then
      let n := 38 + min h.box.length (boxLen h.fine)
      subWithin s (iStream p x) n || subWithin s (uStream (groupOf s p) (lineOf s p x)) (max n 55)
    else h.valSub)

/-- Reported P, Q and S of a phase (06 Table MQ-3). -/
def repP (v : Vals) : Int := rnd 11 v.p
def repQ (v : Vals) : Int := rnd 12 v.q
def repS (v : Vals) : Nat := rndSqrt 13 v.s2

/-- PF of a phase in 2^-14, 0x8000 below 20 mA of cycle current or without S (06 R165). -/
def pfPhase (s : State) (p x : Nat) (v : Vals) : List Byte :=
  if cycI2 s p x < 200 * 200 || v.s2 ≤ 0 then le 2 0x8000
  else
    let m := min 32767 (rndSqrt 14 (v.p * v.p * 268435456 / v.s2))
    leI 2 (if 0 ≤ v.p then (m : Int) else -(m : Int))

/-- PF of a port (06 R164, R165). -/
def pfPort (p : Int) (t : Nat) : List Byte :=
  if t == 0 then le 2 0x8000 else leI 2 (clampI (-32767) 32767 (rnd 15 ((p * 16384 : Int) / (t : Rat))))

/-- READ_PORT (06 Table MQ-12). -/
def readPortBody (pl : List Byte) (s : State) : Served :=
  let p := fld pl 0 1
  let set := fld pl 1 1
  if !rdy s rOR then no 0x03F0 s
  else if !(decide (p ≤ 23 ∧ set ≤ 1)) then no 0x03F1 s
  else if !fitted s p then no 0x0313 s
  else if (List.range 3).any fun x => (getPh s p x).vals.isNone then no 0x0314 s
  else
    let g := getGrp s (groupOf s p)
    let vs := (List.range 3).map fun x => valsSet s p x set
    let ps := vs.map repP
    let qs := vs.map repQ
    let ss := vs.map repS
    let sp := ps.foldl (· + ·) 0
    let sq := qs.foldl (· + ·) 0
    let st := ss.foldl (· + ·) 0
    let flags := bitsOf ([if set == 0 then s.rind.mag else g.valMag, (List.range 3).any fun x => valsSub s p x set,
      (nth g.evs 14 {}).on, false] ++ ((List.range 3).map fun x => (getPh s p x).supp) ++ [false] ++
      (qs.map fun q => decide (q < 0)) ++ [decide (sq < 0)])
    let ent := fun (e : Vals × Nat) =>
      le 4 (rndSqrt 16 e.1.u2) ++ le 4 (toMa10 e.1.i2) ++ leI 4 (repP e.1) ++ leI 4 (repQ e.1) ++ le 4 (repS e.1) ++
        pfPhase s p e.2 e.1 ++ [byteOf (pathOf (getPh s p e.2)), 0]
    ok 0x0300 ([byteOf p, byteOf set] ++ le 2 flags ++ le 8 (if set == 0 then now s else g.valTick) ++
      vs.zipIdx.flatMap ent ++ leI 4 sp ++ leI 4 sq ++ le 4 st ++ pfPort sp st ++ [0, 0] ++ le 4 (rnd 17 g.freq).toNat) s

def execReadPort (ch : Nat) (s : State) : Out := .next (serve 0x0303 (len 4) readPortBody ch s)

/-- READ_GROUP (06 Table MQ-13). -/
def readGroupBody (pl : List Byte) (s : State) : Served :=
  let g := fld pl 0 1
  if !((decide (g ≤ 3) || g == 0xFF)) then no 0x03F1 s
  else if g != 0xFF && !grpFitted s g then no 0x0313 s
  else if (if g == 0xFF then !rdy s rOR else !rdy s (rVG + g)) then no 0x03F0 s
  else if g != 0xFF && (getGrp s g).urms.isEmpty then no 0x0314 s
  else
    let vs := ((List.range 24).filter (fitted s)).flatMap fun p => (List.range 3).map fun x => valsSet s p x 1
    let hub := leI 8 ((vs.map repP).foldl (· + ·) 0) ++ leI 8 ((vs.map repQ).foldl (· + ·) 0) ++
      le 8 ((vs.map repS).foldl (· + ·) 0)
    if g == 0xFF then ok 0x0300 (zeros 36 ++ hub) s
    else
      let q := getGrp s g
      let u := urmsMv q
      ok 0x0300 ([byteOf g, byteOf (if q.sub then 0xFF else q.ref), byteOf q.seq, 0] ++
        le 4 (bitsOf (q.evs.map SupEv.on ++ [s.rind.mag])) ++ le 4 (rnd 17 q.freq).toNat ++
        (List.range 4).flatMap (fun l => le 4 (nth u l 0)) ++ le 2 q.th2 ++ le 2 q.th3 ++
        le 2 (unbalanceRep u) ++ [0, 0] ++ hub) s

def execReadGroup (ch : Nat) (s : State) : Out := .next (serve 0x0304 (len 4) readGroupBody ch s)

/-- READ_HARMONICS (06 Table MQ-14). -/
def readHarmonicsBody (pl : List Byte) (s : State) : Served :=
  let p := fld pl 0 1
  let c := fld pl 1 1
  if !rdy s rOR then no 0x03F0 s
  else if !(decide (p ≤ 23 ∧ c ≤ 6 ∧ c ≠ 3)) then no 0x03F1 s
  else if !fitted s p then no 0x0313 s
  else
    let h := if c < 3 then (getPh s p c).harm else nth (getGrp s (groupOf s p)).harms (c - 4) {}
    if h.cycles == 0 then no 0x0314 s
    else ok 0x0300 ([byteOf p, byteOf c, byteOf h.cycles, byteOf (bitsOf [h.valid, h.mag])] ++ le 8 h.endTick ++
      le 4 h.fund ++ le 2 h.thd ++ [0, 0] ++
      (List.range 39).flatMap (fun i => le 2 (nth h.mags i 0) ++ leI 2 (nth h.phases i 0))) s

def execReadHarmonics (ch : Nat) (s : State) : Out := .next (serve 0x0305 (len 4) readHarmonicsBody ch s)

def getPulse (s : State) (o : Nat) : Pulse := nth s.meter.pulses o {}
def updPulse (o : Nat) (f : Pulse → Pulse) (s : State) : State :=
  { s with meter := { s.meter with pulses := s.meter.pulses.modify o f } }

/-- The selection that stands for an output: the one accepted last. -/
def pulseSel (q : Pulse) : PulseSel := q.next.getD q.sel

/-- The end of a CAL_PULSE on an output is recorded (07 R201). -/
def calPulseEnd (o : Nat) (s : State) : State :=
  let k := pulseSel (getPulse s o)
  if k.phase == 0xFF then s else cairnO 0x16 k.source [byteOf o, 0xFF, byteOf k.dir] s

/-- An output receives a source for the next tick (06 R181). -/
def pulseSet (o : Nat) (k : PulseSel) (s : State) : State :=
  updPulse o (fun q => { q with next := some k, pulses := 0 }) s

/-- BACKLOG as reported (06 R182). -/
def pulseBacklog (q : Pulse) : Nat := if q.stopped then 0xFFFF else q.backlog

/-- PULSE_SELECT (06 R180, R181, Table MQ-15). -/
def pulseSelectBody (pl : List Byte) (s : State) : Served :=
  let o := fld pl 0 1
  let c := fld pl 1 1
  let d := fld pl 2 1
  if !rdy s rPulse then no 0x03F0 s
  else if !(decide (o ≤ 1 ∧ d ≤ 2) && (decide (c ≤ 24) || c == 0xFF)) then no 0x03F1 s
  else if c < 24 && !fitted s c then no 0x0313 s
  else
    let q := getPulse s o
    ok 0x0300 ([byteOf o, byteOf c, byteOf d, 0] ++ le 4 (pulseConst s c) ++ le 4 q.pulses ++ le 2 (pulseBacklog q) ++ [0, 0])
      (pulseSet o { source := c, phase := 0xFF, dir := d } (calPulseEnd o s))

def execPulseSelect (ch : Nat) (s : State) : Out := .next (serve 0x0306 (len 4) pulseSelectBody ch s)

end Sys2Proof.Machine
end

