-- ==== Sys2Proof/Machine/Calibration.lean ====
section
/-!
DEFINITION. Calibration commands, the commit of records, temperature bands and table 0x4401 (07 R187 to R201).
-/

namespace Sys2Proof.Machine

/-- A target names a port (0 to 23) or a group (0x80 to 0x83); it is fitted. -/
def calTarget (t : Nat) : Bool := decide (t ≤ 23) || decide (0x80 ≤ t ∧ t ≤ 0x83)
def calFitted (s : State) (t : Nat) : Bool := if t < 0x80 then fitted s t else grpFitted s (t - 0x80)
/-- The record in use of a target. -/
def calRecord (s : State) (t : Nat) : List Byte := if t < 0x80 then portRec s t else groupRec s (t - 0x80)
/-- The active bank of a target's lanes. -/
def calBank (s : State) (t : Nat) : Bank := if t < 0x80 then bankOf s t else grpBank s (t - 0x80)

/-- STATE of a record (07 Table CA-7). -/
def calState (s : State) (t : Nat) : Nat :=
  if (if t < 0x80 then portLost s t else groupLost s (t - 0x80)) then 3
  else if !(fld (calRecord s t) (if t < 0x80 then 3 else 1) 1).testBit 0 then 1
  else if t < 0x80 && !portRecOk s t then 2 else 0

def meanR (l : List Rat) : Rat := if l.isEmpty then 0 else l.foldl (· + ·) 0 / (l.length : Rat)

/-- PATH, CYCLES and the RAW values of a phase (07 Table CA-7). The last 50 cycles are those whose Q is known, 127 ticks after
their end, so that the three means are over the same cycles (DESIGN CHOICE, log 151). -/
def calRaw (s : State) (p x : Nat) : List Byte :=
  let h := getPh s p x
  let rs := ((h.raws.filter fun r => r.q.isSome).take 50).filter fun r => r.path == b2n h.fine
  [byteOf (b2n h.fine), byteOf rs.length, 0, 0] ++ le 4 (rnd 18 (meanR (rs.map CycRaw.ms))).toNat ++
    leI 4 (rnd 19 (meanR (rs.map CycRaw.p))) ++ leI 4 (rnd 20 (meanR (rs.map fun r => r.q.getD 0)))

/-- CAL_READ (07 Table CA-7). -/
def calReadBody (pl : List Byte) (s : State) : Served :=
  let t := fld pl 0 1
  if !rdy s rOR then no 0x04F0 s
  else if !(calTarget t) then no 0x04F1 s
  else if !calFitted s t then no 0x0412 s
  else
    let b := calBank s t
    let staged := s.cal.blocks.any fun k => k.target == t
    ok 0x0400 ([byteOf t, byteOf (calState s t), byteOf b.band, byteOf (b2n staged)] ++ leI 2 s.cal.temp ++ [0, 0] ++
      le 4 (fld (if t < 0x80 then b.port else b.group) 4 4) ++ calRecord s t ++
      (if t < 0x80 then (List.range 3).flatMap (calRaw s t) else [])) s

def execCalRead (ch : Nat) (s : State) : Out := .next (serve 0x0401 (len 4) calReadBody ch s)

/-- A gain in Q2.30 within a range in 0.0001 (07 Table CA-1). -/
def gainIn (b : List Byte) (off lo hi : Nat) : Bool :=
  decide (lo * 1073741824 ≤ 10000 * fld b off 4 ∧ 10000 * fld b off 4 ≤ hi * 1073741824)
/-- A signed offset within a magnitude. -/
def offIn (b : List Byte) (off top : Nat) : Bool := decide ((fldI b off 4).natAbs ≤ top)

/-- A staged block is in range (07 Table CA-1). -/
def blockIn (group : Bool) (b : List Byte) : Bool :=
  if group then (List.range 4).all fun l => gainIn b (4 * l) 9500 10500
  else gainIn b 0 9500 10500 && decide (fld b 4 4 ≤ 65535) && gainIn b 8 9000 11100 && offIn b 12 500000 &&
    gainIn b 16 9000 11100 && offIn b 20 500000 && gainIn b 24 9000 11100

/-- CAL_STAGE (07 R198, Table CA-8). -/
def calStageBody (ch : Nat) (pl : List Byte) (s : State) : Served :=
  let t := fld pl 0 1
  let x := fld pl 1 1
  let k := fld pl 2 1
  let b := bytesAt pl 4 28
  let form := if t < 0x80 then decide (x ≤ 2 ∧ k ≤ 1) else x == 0 && k == 0 && allZero b 16 12
  if !rdy s rOR then no 0x04F0 s
  else if !(calTarget t && form) then no 0x04F1 s
  else if !calFitted s t then no 0x0412 s
  else if !sealPort s then no 0x04F2 s
  else if s.cal.owner.any (· != ch) then no 0x04F3 s
  else if !blockIn (0x80 ≤ t) b then no 0x0410 s
  else
    let bs := (s.cal.blocks.filter fun e => !(e.target == t && e.phase == x && e.path == k)) ++ [⟨t, x, k, b⟩]
    ok 0x0400 ([byteOf t, byteOf x, byteOf k, 0] ++ le 4 bs.length) { s with cal := { s.cal with owner := some ch, blocks := bs } }

def execCalStage (ch : Nat) (s : State) : Out := .next (serve 0x0402 (len 32) (calStageBody ch) ch s)

/-- The staging without the blocks of some targets; without blocks it has no owner (07 R198). -/
def calDrop (ts : List Nat) (c : Cal) : Cal :=
  let bs := c.blocks.filter fun k => !ts.contains k.target
  { c with blocks := bs, owner := if bs.isEmpty then none else c.owner }

/-- A block put over a record at its place. -/
def putAt (b : List Byte) (off : Nat) (v : List Byte) : List Byte := b.take off ++ v ++ b.drop (off + v.length)

/-- COMMIT_TIME (07 Table CA-3). -/
def commitTime (s : State) : List Byte := le 4 (if s.rtc.valid then s.rtc.sec else 0)

/-- The record that a commit writes for a target (07 R199). -/
def newRecord (s : State) (t : Nat) : List Byte :=
  let old := calRecord s t
  let n := if t < 0x80 then 188 else 28
  let head := if t < 0x80 then
      [byteOf t, byteOf (groupOf s t), byteOf (rotOf s t), 1] ++ le 4 (fld old 4 4 + 1) ++ commitTime s
    else [byteOf (t - 0x80), 1, 0, 0] ++ le 4 (fld old 4 4 + 1) ++ commitTime s
  let body := (s.cal.blocks.filter fun k => k.target == t).foldl (fun b k =>
    if t < 0x80 then putAt b (calWord k.phase (k.path == 1) 0) k.bytes else putAt b 12 (k.bytes.take 16)) (putAt old 0 head)
  sealRec (body.take n)

/-- The CAL_COMMIT entry of a target is queued, and its record waits for it (07 R199). -/
def calBegin (s : State) (t : Nat) : CalJob × State :=
  let r := newRecord s t
  let o := calRecord s t
  let n := o.length - 4
  ({ target := t, record := r, token := cairnToken s },
   cairnO 0x10 t ([byteOf t, 0, 0, 0] ++ le 4 (fld o 4 4) ++ le 4 (fld r 4 4) ++ le 4 (fld o n 4) ++ le 4 (fld r n 4)) s)

/-- The targets with staged blocks, in rising order. -/
def stagedTargets (s : State) : List Nat := (List.range 0x84).filter fun t => s.cal.blocks.any fun k => k.target == t

/-- CAL_COMMIT (07 R199, Table CA-9): the response comes with the last record. While another commit runs it is BUSY, also
for the owner of a new staging (DESIGN CHOICE, log 149). -/
def calCommitBody (ch : Nat) (pl : List Byte) (s : State) : Served :=
  let t := fld pl 0 1
  let ts := if t == 0xFF then stagedTargets s else (stagedTargets s).filter (· == t)
  if !rdy s rOR then no 0x04F0 s
  else if !((calTarget t || t == 0xFF)) then no 0x04F1 s
  else if !sealPort s then no 0x04F2 s
  else if s.cal.owner.any (· != ch) || s.cal.run.isSome then no 0x04F3 s
  else if ts.isEmpty then no 0x0411 s
  else if !s.boot.pfailN then no 0x0413 s
  else
    let r := ts.foldl (fun (a : List CalJob × State) t => let b := calBegin a.2 t; (a.1 ++ [b.1], b.2)) ([], s)
    (none, { r.2 with cal := { calDrop ts r.2.cal with run := some { ch := ch, jobs := r.1, done := [] } } })

def execCalCommit (ch : Nat) (s : State) : Out := .next (serve 0x0403 (len 4) (calCommitBody ch) ch s)

/-- A record goes to the older of its two copies, and composition starts (07 R189, R199). -/
def calWrite (j : CalJob) (s : State) : State :=
  if j.target < 0x80 then
    let c := portCopies s j.target
    let n := if pickCopy 192 c.1 c.2 == some c.1 then (c.1, j.record) else (j.record, c.2)
    compose j.target { s with cal := { s.cal with port := s.cal.port.set j.target n } }
  else
    let g := j.target - 0x80
    let c := groupCopies s g
    let n := if pickCopy 32 c.1 c.2 == some c.1 then (c.1, j.record) else (j.record, c.2)
    composeGroup g { s with cal := { s.cal with group := s.cal.group.set g n } }

/-- A response to a request that is still in service. -/
def answerLate (ch st : Nat) (pl : List Byte) (s : State) : State :=
  if (chan s ch).st == .inService then answer ch st pl s else s

/-- The response of a commit whose last record is done (07 R199). -/
def calAnswer (r : CalRun) (s : State) : State :=
  let n := r.done.length
  let pl := [byteOf n, 0, 0, 0] ++ r.done.flatMap fun d => [byteOf d.1, 0, 0, 0] ++ le 4 d.2.1 ++ le 4 d.2.2
  answerLate r.ch (if n == 0 then 0x04F2 else 0x0400) pl { s with cal := { s.cal with run := none } }

/-- The records whose entry is in MRAM are written; an entry that could not be written takes its record with it
(07 R199, 15 R369). drop: the seal has closed, and the other records are discarded with their queued entries. -/
def calRunTick (drop : Bool) (s : State) : State :=
  match s.cal.run with
  | none => s
  | some r =>
    let fin := r.jobs.filter fun j => cairnDone j.token s
    let rest := r.jobs.filter fun j => !cairnDone j.token s
    let good := fin.filter fun j => !cairnLost j.token s
    let s1 := good.foldl (fun s j => calWrite j s) s
    let done := r.done ++ good.map fun j => (j.target, fld j.record 4 4, fld j.record (j.record.length - 4) 4)
    let s2 := if drop then { s1 with cairn := { s1.cairn with
      queue := s1.cairn.queue.filter fun q => !(rest.any fun j => j.token == q.token) } } else s1
    let r1 := { r with jobs := if drop then [] else rest, done := done }
    if r1.jobs.isEmpty then calAnswer r1 s2 else { s2 with cal := { s2.cal with run := some r1 } }

/-- CAL_DISCARD (07 Table CA-10). -/
def calDiscardBody (ch : Nat) (pl : List Byte) (s : State) : Served :=
  let t := fld pl 0 1
  let ts := if t == 0xFF then stagedTargets s else [t]
  let n := (s.cal.blocks.filter fun k => ts.contains k.target).length
  if !((calTarget t || t == 0xFF)) then no 0x04F1 s
  else if s.cal.owner.any (· != ch) then no 0x04F3 s
  else if n == 0 then no 0x0411 s
  else ok 0x0400 (le 4 n) { s with cal := calDrop ts s.cal }

def execCalDiscard (ch : Nat) (s : State) : Out := .next (serve 0x0404 (len 4) (calDiscardBody ch) ch s)

/-- CAL_PULSE (07 R201, Table CA-11). -/
def calPulseBody (pl : List Byte) (s : State) : Served :=
  let o := fld pl 0 1
  let p := fld pl 1 1
  let x := fld pl 2 1
  let d := fld pl 3 1
  if !(decide (o ≤ 1 ∧ p ≤ 23 ∧ d ≤ 2) && (decide (x ≤ 2) || x == 0xFF)) then no 0x04F1 s
  else if !fitted s p then no 0x0412 s
  else if !(rdy s rPulse && rdy s p) then no 0x04F0 s
  else if !sealPort s then no 0x04F2 s
  else
    let q := getPulse s o
    let active := (pulseSel q).phase != 0xFF
    let s1 := calPulseEnd o s
    let s2 := if x != 0xFF then pulseSet o { source := p, phase := x, dir := d } (cairnO 0x16 p [byteOf o, byteOf x, byteOf d] s1)
              else if active then pulseSet o {} s1 else s1
    ok 0x0400 ([byteOf o, byteOf p, byteOf x, byteOf d] ++ le 4 (tf s 0x4303 0 4) ++ le 4 q.pulses ++
      le 2 (pulseBacklog q) ++ [byteOf (bankOf s p).band, 0]) s2

def execCalPulse (ch : Nat) (s : State) : Out := .next (serve 0x0405 (len 4) calPulseBody ch s)

/-- The seal closes (05 R159, 07 R198, R199, R201): holds end at the next crossing, CAL_PULSE ends, the staging and the
records not yet logged are discarded. -/
def calSealShut (s : State) : State :=
  let s1 := foldN 72 (fun i s => if (getPh s (i / 3) (i % 3)).hold != 0 || (getPh s (i / 3) (i % 3)).holdReq.isSome then
      updPh i (fun h => { h with holdReq := some (0, 0) }) s else s) s
  let s2 := foldN 2 (fun o s => if (pulseSel (getPulse s o)).phase != 0xFF then pulseSet o {} (calPulseEnd o s) else s) s1
  calRunTick true { s2 with cal := { s2.cal with blocks := [], owner := none } }

/-- Edges of the bands, 0.1 degC (07 Table CA-5). -/
def edge (s : State) (k : Nat) : Int := fldI (tab s 0x4401) (2 * k) 2

/-- The band without hysteresis, and the rule of R193. -/
def bandOf (s : State) (t : Int) : Nat := ((List.range 7).takeWhile fun k => decide (edge s k ≤ t)).length
def bandUp (s : State) (t : Int) : Nat → Nat → Nat
  | 0, b => b
  | n + 1, b => if b < 7 && decide (edge s b ≤ t) then bandUp s t n (b + 1) else b
def bandDown (s : State) (t : Int) : Nat → Nat → Nat
  | 0, b => b
  | n + 1, b => if 0 < b && decide (t < edge s (b - 1) - 20) then bandDown s t n (b - 1) else b
def bandNext (s : State) (t : Int) (b : Nat) : Nat := bandDown s t 8 (bandUp s t 8 b)

/-- Mean of a sum of temperatures, 0.1 degC. -/
def tempMean (sum : Int) (n : Nat) : Int := if n == 0 then 0 else rnd 21 ((sum : Rat) / (n : Rat))

/-- The first band of the boot (07 R193): the banks of all lanes are composed with it. -/
def bootBand (s : State) : State :=
  let t := tempMean (s.cal.sum0 + s.cal.sum1) (s.cal.n0 + s.cal.n1)
  let s1 := { s with cal := { s.cal with
    band := bandOf s t, bandSet := true, temp := t, sum0 := 0, n0 := 0, sum1 := 0, n1 := 0, secTicks := 0 } }
  { s1 with cal := { s1.cal with banks := (List.range 24).map fun p => { active := composed s1 p } } }

/-- Calibration's work of one tick: temperature results, the boot band, bank swaps, records (07 R192, R193, R196). -/
def calTick (i : TickIn) (s : State) : State :=
  if !orRun s then s
  else
    let a := i.temp0.map Config.tempOf
    let b := i.temp1.map Config.tempOf
    let c := s.cal
    let s1 := { s with cal := { c with
      sum0 := c.sum0 + a.foldl (· + ·) 0, n0 := c.n0 + a.length
      sum1 := c.sum1 + b.foldl (· + ·) 0, n1 := c.n1 + b.length
      secTicks := c.secTicks + 1, bootTicks := min 64 (c.bootTicks + 1)
      banks := c.banks.map (bankTick (now s)) } }
    let s2 := if !c.bandSet && 64 ≤ s1.cal.bootTicks then bootBand s1 else s1
    calRunTick false s2

/-- TEMP_BAND_SECOND (07 R192 to R194). -/
def tempSecond (s : State) : State :=
  let c := s.cal
  if !(orRun s && c.bandSet && decide (8000 ≤ c.secTicks)) then s
  else
    let m0 := tempMean c.sum0 c.n0
    let m1 := tempMean c.sum1 c.n1
    let d := (m0 - m1).natAbs
    let t := if 50 < d then max m0 m1 else tempMean (c.sum0 + c.sum1) (c.n0 + c.n1)
    let far := if 150 < d then c.farN + 1 else 0
    let near := if d ≤ 50 then c.nearN + 1 else 0
    let frozen := if c.frozen then near < 3 else 3 ≤ far
    let b := if frozen then c.band else bandNext s t c.band
    let s1 := { s with cal := { c with
      temp := t, farN := far, nearN := near, frozen := frozen, band := b
      sum0 := 0, n0 := 0, sum1 := 0, n1 := 0, secTicks := 0 } }
    let s2 := if 50 < d then evrec 0x0401 2 0xFF (leI 2 m0 ++ leI 2 m1) s1 else s1
    let s3 := if frozen != c.frozen then cairnO 0x14 0xFF (leI 2 m0 ++ leI 2 m1 ++ [byteOf (b2n frozen)]) s2 else s2
    if b != c.band then composeAll (cairnO 0x13 0xFF ([byteOf c.band, byteOf b] ++ leI 2 t) s3) else s3

def execTempBandSecond (s : State) : Out := .next (gated (orRun s) tempSecond s)

/-- Table 0x4401 (07 R195, Table CA-5). -/
def check4401 (b : List Byte) : Option Nat :=
  let e := fun k => fldI b (2 * k) 2
  let gain := fun o => gainIn b o 9900 10100
  let blk := fun o => gain o && offIn b (o + 4) 65535 && gain (o + 8) && offIn b (o + 12) 100000 && gain (o + 16) &&
    offIn b (o + 20) 100000 && gain (o + 24)
  let ref := fld b 14 1
  let unit := q30 ++ unitBlock ++ unitBlock
  if (List.range 7).all (fun k => decide (-400 ≤ e k ∧ e k ≤ 1250)) && (List.range 6).all (fun k => decide (e k + 50 ≤ e (k + 1))) &&
     decide (ref ≤ 7) && fld b 15 1 == 0 && (List.range 28).all (fun k => decide (fld b (16 + k) 1 ≤ 3)) && allZero b 44 4 &&
     (List.range 32).all (fun i => let o := 48 + 64 * i; gain o && blk (o + 4) && blk (o + 32) && allZero b (o + 60) 4) &&
     (List.range 4).all (fun r => bytesAt b (48 + 512 * r + 64 * ref) 60 == unit) then none
  else some 0x0410

end Sys2Proof.Machine
end

