-- ==== Sys2Proof/Machine/Bch.lean ====
section
/-!
DEFINITION. The binary BCH code that protects a sector of a NAND unit (18 R432).
-/

namespace Sys2Proof.Machine

/-- Multiplication by α in GF(2¹⁴), primitive polynomial x¹⁴ + x⁵ + x³ + x + 1 (18 R432). -/
def gfDouble (a : Nat) : Nat := if 8192 ≤ a then (2 * a) ^^^ 0x402B else 2 * a
def gfMul (a b : Nat) : Nat :=
  (List.range 14).foldl (fun r k => if b.testBit (13 - k) then gfDouble r ^^^ a else gfDouble r) 0

/-- A polynomial over GF(2¹⁴), lowest coefficient first, times x + r. -/
def mulRoot (p : List Nat) (r : Nat) : List Nat := List.zipWith (· ^^^ ·) (p.map (gfMul r) ++ [0]) (0 :: p)

/-- The minimal polynomial of an element a: the product over its 14 conjugates. Its coefficients are 0 or 1. -/
def minPoly (a : Nat) : Nat :=
  let p := (List.range 14).foldl (fun (q : List Nat × Nat) _ => (mulRoot q.1 q.2, gfMul q.2 q.2)) ([1], a)
  bitsOf (p.1.map (· == 1))

/-- The product of two binary polynomials; the first has at most n coefficients. -/
def polyMul (n a b : Nat) : Nat :=
  (List.range n).foldl (fun r k => if a.testBit (n - 1 - k) then (2 * r) ^^^ b else 2 * r) 0

/-- The generator: the product of the minimal polynomials of α¹ to α³¹, which are those of the odd powers (18 R432). -/
def bchGen : Nat := (List.range 16).foldl (fun g k => polyMul 15 (minPoly (iter gfDouble (2 * k + 1) 1)) g) 1

/-- One message bit enters the division by a generator of degree 224. -/
def bchBit (gen r : Nat) (bit : Bool) : Nat :=
  let d := (2 * r) % 2 ^ 224
  if r.testBit 223 != bit then d ^^^ gen % 2 ^ 224 else d
def bchByte (gen r : Nat) (b : Byte) : Nat :=
  (List.range 8).foldl (fun r k => bchBit gen r (b.toNat.testBit (7 - k))) r

/-- The 28 bytes of parity over a sector: message bytes in ascending order, bit 7 first (18 R432). -/
def bchParity (msg : List Byte) : List Byte := be 28 (msg.foldl (bchByte bchGen) 0)

end Sys2Proof.Machine
end

