-- ==== Sys2Proof/Machine/Cairn.lean ====
section
/-!
DEFINITION. The Cairn log: the writer and the reading commands (15).
-/

namespace Sys2Proof.Machine

/-- Bytes 0 to 59 of an entry (15 Table SA-2). -/
def cairnBody (e : CairnEntry) : List Byte :=
  le 8 e.seq ++ le 8 e.time ++ le 8 e.tick ++ le 2 e.code ++ [byteOf e.writer, byteOf e.subject] ++
  padTo 24 e.data ++ padTo 8 e.link

/-- An entry as stored, 64 bytes with its CRC (15 Table SA-2). -/
def cairnBytes (e : CairnEntry) : List Byte := cairnBody e ++ le 4 (crc32 (cairnBody e))

/-- LINK of the next entry (15 R366): 8 bytes of 0 for SEQ 1. -/
def cairnLink (c : Cairn) : List Byte :=
  match c.ring.getLast? with
  | some e => (sha256 (cairnBytes e)).take 8
  | none => zeros 8

/-- The newest entries of a ring of a size. -/
def ringAdd {α : Type} (n : Nat) (l : List α) (a : α) : List α :=
  let m := l ++ [a]
  m.drop (m.length - n)

/-- The ring of 1,024 slots: SEQ s lies in slot s mod 1,024, so that an entry takes the place of the one 1,024 before it
(15 R365). -/
def cairnRing (l : List CairnEntry) (e : CairnEntry) : List CairnEntry :=
  (l.filter fun k => decide (e.seq < k.seq + 1024)) ++ [e]

/-- An entry is written to MRAM: SEQ, TIME and LINK are formed, and a seal entry moves the state block (15 R363,
R367). -/
def cairnStore (e : CairnEntry) (s : State) : State :=
  let c := s.cairn
  let n := c.openCount + 1
  let data := if e.code == 1 then le 4 n else if e.code == 2 then le 4 c.openCount ++ bytesAt e.data 4 4 else e.data
  let f : CairnEntry := { e with
    seq := c.head + 1, time := rtcWord s, data := padTo 24 data, link := cairnLink c }
  let c1 := { c with ring := cairnRing c.ring f, head := c.head + 1, inTick := c.inTick + 1 }
  let c2 := if e.code == 1 then
              { c1 with sealState := true, openCount := n, openTick := e.tick, openedAt := some e.tick }
            else if e.code == 2 then { c1 with sealState := false, openedAt := none } else c1
  { s with cairn := c2 }

/-- The entry CAIRN_OVERFLOW for the entries not written (15 R369). -/
def overflowEntry (s : State) : CairnEntry :=
  ⟨0, 0, now s, 0x71, 0, 0xFF, padTo 24 (le 4 s.cairn.lost ++ zeros 4 ++ le 8 s.cairn.lostTick), []⟩

/-- The port waits for the SEAL_OPENED entry no longer: it is in MRAM in this tick, or it is lost (15 R363). -/
def sealEntryEnds (tok : Nat) (written : Bool) (s : State) : State :=
  if s.sealIn.opening == some tok then
    { s with sealIn := { s.sealIn with opening := none, openedIn := if written then some (now s) else none } }
  else s

/-- Effects that are refused where their entry is counted in LOST: OR_IMAGE, OR_ACTIVATED, TABLE_CHANGED, CAL_COMMIT
(15 R369). -/
def cairnGates (code : Nat) : Bool := code == 3 || code == 4 || code == 5 || code == 0x10

/-- An entry that another of its tick may yet have to precede waits for the tick to end while ticks run: Keystone's, and
SEAL_CLOSED (15 Table SA-8, log 149). -/
def cairnWaits (e : CairnEntry) (s : State) : Bool :=
  (e.writer == 1 || e.code == 2) && e.tick == now s && tickRun s

/-- CAIRN_ENTRY_WRITE (15 R367, R369): one queued entry is written, or counted as lost while 1,024 await mirroring. The
entry that names a torn one takes its SEQ, before CAIRN_OVERFLOW (R371). -/
def cairnWrite (s : State) : State :=
  let c := s.cairn
  if s.boot.phase == .reset || 4 ≤ c.inTick then s
  else if 1024 ≤ cairnAwait s then
    match c.queue.find? fun j => !j.tamper with
    | some j =>
      let c1 := { c with
        queue := c.queue.filter fun k => k.token != j.token
        lost := c.lost + 1, lostTick := if c.lost == 0 then j.entry.tick else c.lostTick
        lostToks := if cairnGates j.entry.code then c.lostToks ++ [j.token] else c.lostToks }
      sealEntryEnds j.token false { s with cairn := c1 }
    | none => s
  else if c.lost != 0 && !((c.queue.take 1).any fun j => j.entry.code == 0x70) then
    cairnStore (overflowEntry s) { s with cairn := { c with lost := 0, lostTick := 0 } }
  else
    match c.queue with
    | j :: js =>
      if cairnWaits j.entry s then s
      else sealEntryEnds j.token true (cairnStore j.entry { s with cairn := { c with queue := js } })
    | [] => s

def execCairnEntryWrite (s : State) : Out := .next (cairnWrite s)

/-- The oldest entry held in MRAM and in the mirror, 0 for none. -/
def oldestOf (l : List CairnEntry) : Nat := match l with
  | e :: _ => e.seq
  | [] => 0

/-- The entry with a SEQ as stored, from MRAM or from the mirror (15 R371). -/
def cairnFind (s : State) (n : Nat) : Option CairnEntry :=
  match s.cairn.ring.find? fun e => e.seq == n with
  | some e => some e
  | none => s.cairn.mirror.find? fun e => e.seq == n

/-- The oldest entry held. -/
def cairnOldest (s : State) : Nat :=
  let a := oldestOf s.cairn.ring
  let b := oldestOf s.cairn.mirror
  if b == 0 then a else if a == 0 then b else min a b

/-- CAIRN_READ (15 R373, Table SA-6). -/
def cairnReadBody (pl : List Byte) (s : State) : Served :=
  let want := fld pl 0 8
  let n := fld pl 8 2
  if !rdy s rOR then no 0x0BF0 s
  else if !(decide (1 ≤ n ∧ n ≤ 95)) then no 0x0BF1 s
  else
    let start := if want == 0 then max 1 (cairnOldest s) else want
    let k := min n (s.cairn.head + 1 - start)
    let away := fun n : Nat => !s.cairn.ring.any fun e => e.seq == n
    if (List.range k).any (fun i => away (start + i)) && !rdy s rCairn then no 0x0B11 s
    else if k != 0 && start < cairnOldest s then no 0x0B10 s
    else
      let es := (List.range k).map fun i => (start + i, cairnFind s (start + i))
      let body := es.flatMap fun e => match e.2 with
        | some f => cairnBytes f
        | none => le 8 e.1 ++ zeros 56
      ok 0x0B00 (le 8 start ++ le 2 k ++
        le 2 (bitsOf [es.any fun e => away e.1 && e.2.isSome, es.any fun e => e.2.isNone]) ++ zeros 4 ++ body) s

/-- CAIRN_STATUS (15 Table SA-7). -/
def cairnStatusBody (_ : List Byte) (s : State) : Served :=
  if !rdy s rOR then no 0x0BF0 s
  else
    let st := if !s.sealIn.open_ then 0 else if 960 ≤ cairnAwait s then 2 else 1
    ok 0x0B00 ([byteOf st, 0, 0, 0] ++ le 4 s.cairn.openCount ++ le 8 s.cairn.head ++
      le 8 (oldestOf s.cairn.ring) ++ le 8 s.cairn.mirrorSeq ++ le 8 (oldestOf s.cairn.mirror) ++ le 8 s.cairn.lost) s

def execCairnStatus (ch : Nat) (s : State) : Out := .next (serve 0x0B02 (len 0) cairnStatusBody ch s)

end Sys2Proof.Machine
end

