-- ==== Sys2Proof/Machine/EvLog.lean ====
section
/-!
DEFINITION. The event recorder: write port, ring, reading and clearing (21). The spill is with the Quarry store.
-/

namespace Sys2Proof.Machine

/-- An entry as stored, 32 bytes with its CRC (21 Table EV-1). -/
def evBody (e : EvEntry) : List Byte :=
  le 8 e.seq ++ le 2 e.code ++ [byteOf e.unit, byteOf e.subject] ++ padTo 16 e.data
def evBytes (e : EvEntry) : List Byte := evBody e ++ le 4 (crc32 (evBody e))

/-- AP raises SEQ_RESERVED by 65,536 when the head reaches it (21 R491). -/
def raiseReserved (s : State) : State :=
  if s.ev.reserved ≤ s.ev.head + 1 then
    sysWrite .ap .seqReserved s.ev.reserved (s.ev.reserved + 65536) (fun v s => { s with ev := { s.ev with reserved := v } }) s
  else s

/-- An entry enters the ring (21 R488 to R491): SEQ is assigned, SEQ_RESERVED is raised when the head reaches it, and
an entry overwritten before it is spilled counts as lost. -/
def evStore (e : EvEntry) (s0 : State) : State :=
  let s := raiseReserved s0
  let v := s.ev
  let f := { e with seq := v.head + 1 }
  let overN := if v.ring.length < 4096 then none else v.ring.head?
  let v1 := { v with
    ring := ringAdd 4096 v.ring f, head := v.head + 1, inTick := v.inTick + 1 }
  match overN with
  | some o => if max v.spilled v.spilling < o.seq then
                { s with ev := { v1 with spilled := o.seq, lost := sat32 v.lost } }
              else { s with ev := v1 }
  | none => { s with ev := v1 }

/-- The response to an EVREC_CLEAR whose CLEARED entry has met the write port (21 Table EV-7). -/
def clearAnswer (ch seq : Nat) (s : State) : State :=
  match s.ev.clearing.find? fun c => c.1 == ch with
  | some (_, before, after) =>
    answer ch 0x1100 (le 8 before ++ le 8 after ++ le 8 seq)
      { s with ev := { s.ev with clearing := s.ev.clearing.filter fun c => c.1 != ch } }
  | none => s

/-- EVREC_WRITE (21 R489): the write port takes the next entry, or drops it beyond 16 in a tick; OVERFLOW goes first. -/
def evWrite (s : State) : State :=
  match s.ev.queue with
  | [] => s
  | e :: es =>
    if s.boot.phase == .reset then s
    else if 16 ≤ s.ev.inTick then
      let s1 := { s with ev := { s.ev with
        queue := es, dropped := sat32 s.ev.dropped, dropRun := s.ev.dropRun + 1 } }
      if e.code == 6 then (let d := draw s1; clearAnswer (e.subject - 0xC0) d.1 d.2) else s1
    else if s.ev.dropRun != 0 then
      evStore ⟨0, 5, 6, 0xFF, padTo 16 (le 4 s.ev.dropRun)⟩ { s with ev := { s.ev with dropRun := 0 } }
    else
      let s1 := evStore e { s with ev := { s.ev with queue := es } }
      if e.code == 6 then clearAnswer (e.subject - 0xC0) s1.ev.head s1 else s1

def execEvrecWrite (s : State) : Out := .next (evWrite s)

/-- Entries held above CLEARED_SEQ, in ascending SEQ, with a mark on those that only the spill zone holds (21 R493). -/
def evHeld (s : State) : List (Bool × EvEntry) :=
  let r := s.ev.ring.filter fun e => s.ev.cleared < e.seq
  let low := match s.ev.ring with
    | e :: _ => e.seq
    | [] => s.ev.head + 1
  let z := s.ev.zone.filter fun e => s.ev.cleared < e.seq && e.seq < low
  z.map (fun e => (true, e)) ++ r.map fun e => (false, e)

/-- FIRST_VALID_SEQ (21 R493); the number after the head while no entry is held. -/
def firstValid (s : State) : Nat := match evHeld s with
  | e :: _ => e.2.seq
  | [] => s.ev.head + 1


/-- A run of sequence numbers has a gap. -/
def hasGap : Nat → List (Bool × EvEntry) → Bool
  | _, [] => false
  | n, e :: es => e.2.seq != n || hasGap (n + 1) es

/-- EVREC_READ (21 Table EV-6). -/
def evReadBody (spillOk : State → Bool) (pl : List Byte) (s : State) : Served :=
  let want := fld pl 0 8
  let n := fld pl 8 2
  if !rdy s rAP then no 0x11F0 s
  else if !(decide (1 ≤ n ∧ n ≤ 190)) then no 0x11F1 s
  else if s.ev.head < want then no 0x1110 s
  else
    let first := firstValid s
    let start := max want first
    let es := ((evHeld s).filter fun e => start ≤ e.2.seq).take n
    let spill := es.any fun e => e.1
    if spill && !spillOk s then no 0x1111 s
    else ok 0x1100 (le 8 first ++ le 8 s.ev.head ++ le 8 s.ev.cleared ++ le 2 es.length ++
      le 2 (bitsOf [spill, want < first, hasGap start es]) ++ zeros 4 ++ es.flatMap fun e => evBytes e.2) s

/-- EVREC_CLEAR (21 R492): the mark moves, and the response carries the SEQ of the CLEARED entry. -/
def evClearBody (ch : Nat) (pl : List Byte) (s : State) : Served :=
  if !rdy s rAP then no 0x11F0 s
  else
    let before := s.ev.cleared
    let after := max before (min (fld pl 0 8) s.ev.head)
    let put := fun (v : Nat) (s : State) => { s with ev := { s.ev with cleared := v } }
    let s1 := sysWrite .ap .clearedSeq before after put s
    (none, evrec 6 6 (0xC0 + ch) (le 8 before ++ le 8 after)
      { s1 with ev := { s1.ev with clearing := s1.ev.clearing ++ [(ch, before, after)] } })

def execEvrecClear (ch : Nat) (s : State) : Out := .next (serve 0x1102 (len 8) (evClearBody ch) ch s)

/-- EVREC_STATUS (21 Table EV-8). -/
def evStatusBody (_ : List Byte) (s : State) : Served :=
  if !rdy s rAP then no 0x11F0 s
  else
    let old := match s.ev.ring with
      | e :: _ => e.seq
      | [] => 0
    ok 0x1100 (le 8 s.ev.head ++ le 8 (firstValid s) ++ le 8 s.ev.cleared ++ le 8 old ++ le 8 s.ev.spilled ++
      le 4 s.ev.lost ++ le 4 s.ev.dropped) s

def execEvrecStatus (ch : Nat) (s : State) : Out := .next (serve 0x1103 (len 0) evStatusBody ch s)

end Sys2Proof.Machine
end

