-- ==== Sys2Proof/Machine/Vault.lean ====
section
/-!
DEFINITION. The Drupe key vault and the Rind tamper envelope (19).
-/

namespace Sys2Proof.Machine

/-- A request to SE, last in order of arrival (01 R32). -/
def seAsk (o : SeOp) (s : State) : State := { s with qr := { s.qr with asks := s.qr.asks ++ [o] } }

/-- Bytes of the vault's random source (19 R452, log 3). -/
def randomBytes (n : Nat) (s : State) : List Byte × State :=
  ((List.range n).map fun i => Config.randomByte (s.vault.drawn + i),
   { s with vault := { s.vault with drawn := s.vault.drawn + n } })

def notB (l : List Byte) : List Byte := l.map fun b => ~~~b

/-- An entry for a key of 32 bytes under a mask and a polarity (19 R451). -/
def mkEntry (key mask : List Byte) (pol : Bool) (attr klen : Nat) (kcv : List Byte) : VEntry :=
  let p := xorB key mask
  { pat := if pol then notB p else p, mask := if pol then notB mask else mask, pol := pol, attr := attr, klen := klen, kcv := kcv }

/-- The active entry of a cell, and the key it holds, 32 bytes (19 R451). -/
def activeOf (c : VCell) : VEntry := if c.sel then c.b else c.a
def entryKey (e : VEntry) : List Byte := if e.pol then xorB (notB e.pat) (notB e.mask) else xorB e.pat e.mask

/-- The entry of a slot, and its key while one is written with that attribute (19 R449). -/
def slotEntryOf (s : State) (n : Nat) : VEntry := activeOf (nth s.vault.cells (nth s.vault.map n 0) {})
def slotWritten (s : State) (n : Nat) : Bool := (slotEntryOf s n).klen != 0
def slotKey (s : State) (n attr : Nat) : Option (List Byte) :=
  let e := slotEntryOf s n
  if e.klen != 0 && e.attr == attr then some ((entryKey e).take e.klen) else none

/-- The engine accepts the attribute of a job's slot (01 R36, 19 R449). -/
def aesAttr (s : State) (j : AesJob) : Bool := j.slot.all fun a => (slotKey s a.1 a.2).isSome

/-- An error is returned to the client of a job (01 R37). -/
def aesError (j : AesJob) (q : Aes) : Aes :=
  { q with errs := q.errs.modify (j.client - 1) sat32, fails := if j.id == 0 then q.fails else q.fails ++ [j.id] }

/-- Of the waiting jobs the one of the highest priority, in a priority the first to enter (01 Table AR-6). -/
def aesPick (l : List AesJob) : Option (AesJob × Nat) :=
  l.zipIdx.foldl (fun r e => match r with
    | some b => if e.1.client < b.1.client then some e else some b
    | none => some e) none

/-- A free engine takes the next job, of a priority what is left of a divided job first; one whose slot does not permit it
fails with an error (01 R35 to R37). -/
def aesStart (s : State) (q : Aes) : Aes :=
  match q.run, aesPick (q.rest ++ q.queue) with
  | none, some (j, i) =>
    let r := if i < q.rest.length then { q with rest := q.rest.eraseIdx i }
      else { q with queue := q.queue.eraseIdx (i - q.rest.length) ++ q.held.take 1, held := q.held.drop 1 }
    if aesAttr s j then { r with run := some j, out := [] } else aesError j r
  | _, _ => q

/-- A job enters the 16-entry queue, or waits with its client (01 R35). -/
def aesQueue (s : State) (j : AesJob) (q : Aes) : Aes :=
  aesStart s (if q.queue.length < 16 then { q with queue := q.queue ++ [j] } else { q with held := q.held ++ [j] })

/-- The running part of at most 4 KiB ends: the job is done, or the rest of it waits in its priority (01 R35). -/
def aesPart (s : State) (q : Aes) : Aes :=
  aesStart s (match q.run with
    | some j =>
      if j.left ≤ 4096 then { q with run := none, out := j.res }
      else { q with run := none, rest := { j with left := j.left - 4096 } :: q.rest }
    | none => q)

/-- The jobs of the engine that are not done. -/
def aesJobs (q : Aes) : List AesJob := q.run.toList ++ q.rest ++ q.queue ++ q.held
def aesPending (q : Aes) (id : Nat) : Bool := (aesJobs q).any fun j => j.id == id

/-- The engine works until the job whose client waits is done; what has priority is served before it (01 R35). -/
def aesUntil (s : State) : Nat → Aes → Aes
  | 0, q => q
  | k + 1, q => if aesPending q 0 then aesUntil s k (aesPart s q) else q

/-- A job whose client waits for it within its step (01 R35). -/
def aesRun (j : AesJob) (s : State) : State :=
  let q := aesQueue s { j with id := 0 } s.vault.aes
  let parts := ((aesJobs q).map fun j => j.left / 4096 + 2).foldl (· + ·) 0
  { s with vault := { s.vault with aes := aesUntil s parts q } }

/-- A job whose client goes on meanwhile: its number, and the state (01 R35). -/
def aesAsk (j : AesJob) (s : State) : Nat × State :=
  let n := s.vault.aes.ids + 1
  (n, { s with vault := { s.vault with aes := aesQueue s { j with id := n } { s.vault.aes with ids := n } } })

/-- The engine in a tick: six parts of at most 20.5 us fit into 125 us (01 R35). -/
def aesTick (s : State) : State :=
  if s.clk.busRun then { s with vault := { s.vault with aes := iter (aesPart s) 6 s.vault.aes } } else s

/-- The zeroise line aborts the running job, clears the output buffer and returns an error (01 R37). -/
def aesAbort (q : Aes) : Aes := match q.run with
  | some j => aesError j { q with run := none, out := [] }
  | none => { q with out := [] }

/-- CMAC under a slot: present only while the slot permits it (19 R449). -/
def slotMac (s : State) (n : Nat) (msg : List Byte) : Option (List Byte) := (slotKey s n 0).map fun k => cmac k msg

/-- A MAC, or its first bytes, verifies with a slot of 0 to 7, or else with its previous key (19 R450). -/
def macOk (s : State) (n : Nat) (msg mac : List Byte) : Bool :=
  (slotMac s n msg).any (fun m => m.take mac.length == mac) ||
  (slotMac s (n + 10) msg).any (fun m => m.take mac.length == mac)

/-- A client has the MAC of a message checked under a slot, and once more under the previous key where it does not verify
(01 Table AR-6, 19 R450). -/
def macJobs (client n : Nat) (msg mac : List Byte) (s : State) : State :=
  let job := fun (k : Nat) => aesRun { client := client, slot := some (k, 0), left := msg.length, res := (slotMac s k msg).getD [] }
  if (slotMac s n msg).any (fun m => m.take mac.length == mac) then job n s else job (n + 10) (job n s)

/-- K_ENC and K_MAC of the cornerstone (19 R453). -/
def csKey (s : State) (label : List Byte) : List Byte :=
  cmac s.otp.secret ([1] ++ label ++ s.otp.devId) ++ cmac s.otp.secret ([2] ++ label ++ s.otp.devId)
def kEnc (s : State) : List Byte := csKey s [0x4B, 0x45]
def kMac (s : State) : List Byte := csKey s [0x4B, 0x4D]

/-- The counter-mode keystream of R454 under a key: COUNTER, SLOT, ATTR, block number. -/
def keyStream (key : List Byte) (ctr slot attr : Nat) : List Byte :=
  (List.range 2).flatMap fun j => aesEnc key (le 8 ctr ++ [byteOf slot, byteOf attr, byteOf j] ++ zeros 5)

/-- KCV of a key (19 R456). -/
def kcvOf (key : List Byte) : List Byte := (cmac key [0x4B, 0x43, 0x56]).take 4

/-- RIND_EVENT (19 R468). -/
def rindEvent (ev det value : Nat) (s : State) : State :=
  notify 0x0F80 ([byteOf ev, byteOf det, 0, 0] ++ le 8 (now s) ++ le 4 value) s

/-- The role of a slot: its attribute, none for slots 20 to 119; slots 18 and 19 are reserved (19 Table KV-2). -/
def roleAttr (n : Nat) : Option Nat :=
  let base := fun k => nth [0, 0, 0, 0, 3, 3, 0, 0, 2, 2] k 0
  if n < 10 then some (base n) else if n < 18 then some (base (n - 10)) else none

/-- A cell's content. -/
def setCell (k : Nat) (f : VCell → VCell) (s : State) : State :=
  { s with vault := { s.vault with cells := s.vault.cells.modify k f } }

/-- A key is written into the cell of a slot; a failed cell takes none, and none does while the zeroise line is asserted
(19 R456, R462, Table KV-8, log 43). -/
def writeSlot (n attr klen : Nat) (key : List Byte) (s : State) : State :=
  let k := nth s.vault.map n 0
  let r := randomBytes 32 s
  let e := mkEntry (padTo 32 key) r.1 false attr klen (kcvOf key)
  let s1 := if (nth s.vault.cells k {}).bad || s.rind.zLine != 0 then r.2 else
    setCell k (fun c => { c with a := e, b := {}, sel := false }) { r.2 with vault := { r.2.vault with
      lost := r.2.vault.lost.set n false } }
  { s1 with vault := { s1.vault with
    kseq := s1.vault.kseq.modify n fun v => (v + 1) % 4294967296
    zeroised := s1.vault.zeroised && s.rind.zLine != 0 } }

/-- The slot that wraps the blob of a slot; slot 9 has no blob (19 R457). -/
def wrapper (n : Nat) : Nat := if n == 8 then 9 else 8

/-- The blob of a slot (19 Table KV-5). -/
def blobOf (s : State) (n : Nat) : Option (List Byte) :=
  let e := slotEntryOf s n
  match slotKey s (wrapper n) 2 with
  | some wk =>
    if e.klen == 0 || n == 9 then none
    else
      let q := nth s.vault.kseq n 0
      let b := [byteOf n, byteOf e.attr, byteOf e.klen, byteOf (wrapper n)] ++ le 4 q ++ zeros 8 ++
        xorB (padTo 32 ((entryKey e).take e.klen)) (keyStream wk q n e.attr)
      some (b ++ cmac wk b)
  | none => none

/-- SE is asked to write the blob of a slot (19 R457). -/
def askBlob (n : Nat) (s : State) : State :=
  match blobOf s n with
  | some b =>
    let (id, s1) := aesAsk { client := 4, slot := some (wrapper n, 2), left := 48, res := b } s
    seAsk { code := 9, cls := 3, kind := 0x26, units := 1, data := [b], after := [.blob n], job := id } s1
  | none => s

/-- The blobs after a key is written: the slot's own; with a blob key, those of every written slot it wraps (19 R457,
log 44). -/
def blobsAfter (n : Nat) (s : State) : State :=
  let s1 := askBlob n s
  if n == 8 || n == 9 then foldN 120 (fun m s => if m != n && wrapper m == n && slotWritten s m then askBlob m s else s) s1
  else s1

/-- SE is asked to drop the blobs: of one slot, or of all with 0xFF (19 R457, R463). -/
def askDrop (n : Nat) (s : State) : State := seAsk { code := 9, cls := 3, kind := 0x26, units := 1, after := [.blob (1000 + n)] } s

/-- The session registers of a front-end's exchange are cleared: no key is left to work with (19 R462, 01 R37). -/
def clearSession (q : Nf) : Nf :=
  { q with card := { q.card with kc := [], ks := [] }, mks := q.mks.map fun _ => [] }

/-- The zeroise line is asserted: the engine's job is aborted, every cell is cleared at once, and the engine's session registers (19 R462, R463). -/
def zeroise (source : Nat) (s : State) : State :=
  let s1 := { s with
    nf := { s.nf with fe := s.nf.fe.map clearSession }
    vault := { s.vault with
      cells := s.vault.cells.map (fun c => { c with a := {}, b := {} }), zeroised := true, aes := aesAbort s.vault.aes }
    rind := { s.rind with zCount := (s.rind.zCount + 1) % 4294967296, zTick := now s, zLine := 8 } }
  rindEvent 4 source 0 (askDrop 0xFF (setReady rLedger false s1))

/-- A key-update message is well formed for its OP (19 Table KV-4 check 1). -/
def kuForm (m : List Byte) : Bool :=
  let op := fld m 1 1
  let slot := fld m 2 1
  let attr := fld m 3 1
  let kl := fld m 4 1
  fld m 0 1 == 1 && allZero m 5 3 && slot ≤ 119 &&
  (if op == 1 then attr ≤ 3 && (kl == 16 || kl == 32) else (op == 2 || (op == 3 && slot == 0)) && attr == 0 && kl == 0)

/-- SLOT and ATTR are allowed (19 Table KV-4 check 5). -/
def kuRole (m : List Byte) : Bool :=
  let slot := fld m 2 1
  fld m 1 1 == 3 || (slot != 18 && slot != 19 && (fld m 1 1 != 1 || match roleAttr slot with
    | some a => fld m 3 1 == a
    | none => true))

/-- The checks of Table KV-4: the status of the first that fails, 0x0F00 for none (19 R455). -/
def kuCheck (s : State) (m : List Byte) : Nat :=
  if !kuForm m then 0x0F10
  else if bytesAt m 16 16 != s.otp.devId then 0x0F11
  else if cmac (kMac s) (m.take 64) != bytesAt m 64 16 then 0x0FF5
  else if fld m 8 8 ≤ s.vault.counter then 0x0F12
  else if !kuRole m then 0x0F13
  else if fld m 1 1 == 1 && s.vault.rngBad then 0x0F14 else 0x0F00

/-- The present key of a role slot moves to its previous-key slot (19 R456). -/
def keepPrevious (n : Nat) (s : State) : State :=
  let e := slotEntryOf s n
  if n < 8 && e.klen != 0 then writeSlot (n + 10) e.attr e.klen ((entryKey e).take e.klen) s else s

/-- The effect of an accepted message (19 R456). -/
def kuEffect (m : List Byte) (s : State) : State :=
  let op := fld m 1 1
  let n := fld m 2 1
  let put := fun (v : Nat) (s : State) => { s with vault := { s.vault with counter := v } }
  let s1 := sysWrite .ap .keyCounter s.vault.counter (fld m 8 8) put s
  let s2 := if op == 1 then
              let key := (xorB (bytesAt m 32 32) (keyStream (kEnc s) (fld m 8 8) n (fld m 3 1))).take (fld m 4 1)
              let moved := n < 8 && slotWritten s1 n
              let w := writeSlot n (fld m 3 1) (fld m 4 1) key (keepPrevious n s1)
              blobsAfter n (if moved then askBlob (n + 10) w else w)
            else if op == 2 then
              askDrop n (setCell (nth s1.vault.map n 0) (fun c => { c with a := {}, b := {} })
                { s1 with vault := { s1.vault with lost := s1.vault.lost.set n false } })
            else zeroise 4 s1
  evrec 0x0F02 0 0xFF ([byteOf n, byteOf op, 0, 0] ++ le 8 (fld m 8 8)) s2

/-- KEY_UPDATE (19 R454 to R456, Table KV-11). -/
def keyUpdateBody (m : List Byte) (s : State) : Served :=
  if !rdy s rDrupe then no 0x0FF0 s
  else
    let st := kuCheck s m
    let s0 := aesRun { client := 3, left := 64 } s
    if st != 0x0F00 then no st s0
    else
      let s1 := kuEffect m (if fld m 1 1 == 1 then aesRun { client := 3, left := 32 } s0 else s0)
      let kcv := if fld m 1 1 == 1 then padTo 4 (slotEntryOf s1 (fld m 2 1)).kcv else zeros 4
      ok 0x0F00 ([byteOf (fld m 2 1), byteOf (fld m 1 1), byteOf (fld m 3 1), 0] ++ kcv ++ le 8 s1.vault.counter) s1

def execKeyUpdate (ch : Nat) (s : State) : Out := .next (serve 0x0F01 (len 80) keyUpdateBody ch s)

/-- DRUPE_STATUS (19 Table KV-12). -/
def drupeStatusBody (_ : List Byte) (s : State) : Served :=
  if !rdy s rDrupe then no 0x0FF0 s
  else
    let v := s.vault
    let ent := (List.range 120).flatMap fun n =>
      let e := slotEntryOf s n
      let st := if e.klen != 0 then 1 else if nth v.lost n false then 2 else 0
      [byteOf st, byteOf e.attr, byteOf e.klen, byteOf (nth v.map n 0)] ++ padTo 4 e.kcv
    ok 0x0F00 (s.otp.devId ++ le 8 v.counter ++ [byteOf (bitsOf [!v.rngBad, v.zeroised, v.coverBit]),
      byteOf (spareCells s).length, 0, 0] ++ ent ++ le 4 v.remasks ++ le 4 v.inversions) s

def execDrupeStatus (ch : Nat) (s : State) : Out := .next (serve 0x0F02 (len 0) drupeStatusBody ch s)

/-- MAG of RIND_STATUS (19 Table KV-13). -/
def magCode (s : State) : Nat := if !s.rind.mag then 0 else if s.rind.fault then 2 else 1

/-- RIND_STATUS (19 Table KV-13). -/
def rindStatusBody (_ : List Byte) (s : State) : Served :=
  if !rdy s rKS then no 0x0FF0 s
  else
    let r := s.rind
    ok 0x0F00 ([byteOf (b2n r.broken), byteOf (b2n r.cover), byteOf (magCode s), 0] ++ le 2 r.level ++ le 2 r.peak ++
      le 2 r.reading ++ [0, 0] ++ le 4 r.zCount ++ le 8 r.zTick) s

def execRindStatus (ch : Nat) (s : State) : Out := .next (serve 0x0F03 (len 0) rindStatusBody ch s)

/-- The cell is remasked: its key under a new mask, by inversion also the polarity (19 R451, R452). -/
def remaskCell (inv : Bool) (k : Nat) (bad : Bool) (s : State) : State :=
  let c := nth s.vault.cells k {}
  let e := activeOf c
  let r := randomBytes 32 s
  let n := mkEntry (padTo 32 (entryKey e)) r.1 (e.pol != inv) e.attr e.klen e.kcv
  setCell k (fun c =>
    let d := if c.sel then { c with a := n } else { c with b := n }
    if bad then { d with miss := c.miss + 1 } else { d with miss := 0, sel := !c.sel }) r.2

/-- A blob of the store opens with its wrapper's key: attribute, length and key (19 R457). -/
def openBlob (s : State) (n : Nat) : Option (Nat × Nat × List Byte) :=
  let b := spGet [] s.qr.blobs n
  match slotKey s (wrapper n) 2 with
  | some wk =>
    if b.length == 64 && n != 9 && cmac wk (b.take 48) == bytesAt b 48 16 && fld b 0 1 == n &&
       fld b 4 4 == nth s.vault.kseq n 0 && rdy s rSE then
      some (fld b 1 1, fld b 2 1, (xorB (bytesAt b 16 32) (keyStream wk (fld b 4 4) n (fld b 1 1))).take (fld b 2 1))
    else none
  | none => none

/-- A failed cell is cleared and fenced (19 R458). -/
def dropCell (k : Nat) (s : State) : State :=
  fenceNow 11 k false 0x0C 0 (setCell k (fun c => { c with a := {}, b := {}, bad := true }) s)

/-- The cell of a slot has failed: the slot moves to the lowest healthy spare with its blob, or is lost (19 R458). -/
def cellFails (n : Nat) (s0 : State) : State :=
  let s := if spareCells s0 == [] then s0 else aesRun { client := 4, slot := some (wrapper n, 2), left := 64 } s0
  let k := nth s.vault.map n 0
  let was := slotWritten s n
  let blob := openBlob s n
  match (spareCells s).head? with
  | some c =>
    let s1 := dropCell k { s with vault := { s.vault with map := s.vault.map.set n c } }
    let s2 := spareEvent 11 c (!(spareCells s1).isEmpty) s1
    match blob with
    | some (a, l, key) =>
      let r := randomBytes 32 s2
      rindEvent 8 n 0 (setCell c (fun q => { q with a := mkEntry (padTo 32 key) r.1 false a l (kcvOf key), b := {}, sel := false }) r.2)
    | none =>
      if was then rindEvent 7 n 0 { s2 with vault := { s2.vault with lost := s2.vault.lost.set n true } } else s2
  | none =>
    let s1 := dropCell k s
    if was then rindEvent 7 n 0 { s1 with vault := { s1.vault with lost := s1.vault.lost.set n true } } else s1

/-- REMASK (19 R451, R452, R458): bad names the cells whose read-back differs, kcvBad the cells whose key check value
differs in the check that each inversion and the first remask after reset release make. -/
def remask (bad kcvBad : List Nat) (s : State) : State :=
  let due := match s.vault.last with
    | some t => decide (t + 480000 ≤ now s)
    | none => true
  if s.boot.phase == .reset || s.pw.mode == 2 || s.vault.rngBad || s.eg.pfailTick.isSome || !due then s
  else
    let inv := s.vault.turn + 1 == 1440
    let cells := (List.range 128).filter fun k =>
      (spareCells s).contains k || ((List.range 120).any fun n => nth s.vault.map n 0 == k && slotWritten s n)
    let s1 := cells.foldl (fun s k => remaskCell inv k (bad.contains k) s) s
    let s2 := { s1 with vault := { s1.vault with
      remasks := sat32 s1.vault.remasks, inversions := if inv then sat32 s1.vault.inversions else s1.vault.inversions
      turn := if inv then 0 else s1.vault.turn + 1, last := some (now s) } }
    let check := inv || s.vault.last.isNone
    let failed := fun (k : Nat) => decide (2 ≤ (nth s2.vault.cells k {}).miss) || (check && kcvBad.contains k)
    let slots := (List.range 120).filter fun n => slotWritten s n && failed (nth s.vault.map n 0)
    let spares := (spareCells s).filter failed
    let s3 := slots.foldl (fun s n => cellFails n s) (spares.foldl (fun s k => dropCell k s) s2)
    let clean := cells.all fun k => (nth s3.vault.cells k {}).miss == 0
    { s3 with vault := { s3.vault with passed := s3.vault.passed || clean } }

def execRemask (bad kcvBad : List Nat) (s : State) : Out := .next (remask bad kcvBad s)

/-- RNG_HEALTH_FAIL (19 R452): the start-up test or the continuous test of the random source fails. -/
def rngFail (continuous : Bool) (s : State) : State :=
  if s.vault.rngBad || s.boot.phase == .reset then s
  else evrec 0x0F01 5 0xFF [byteOf (b2n continuous)] { s with vault := { s.vault with rngBad := true } }

def execRngHealthFail (continuous : Bool) (s : State) : Out := .next (rngFail continuous s)

/-- A tamper event enters the latch (19 R464). -/
def latchTamper (code : Nat) (data : List Byte) (s : State) : State :=
  { s with rind := { s.rind with latch := s.rind.latch ++ [{ code := code, data := data, token := none }] } }

/-- MESH_BREAK (19 R460), in every power state. -/
def meshBreak (reading : Nat) (s : State) : State :=
  if s.rind.broken then s
  else
    let v := reading % 65536
    let s1 := { s with rind := { s.rind with broken := true, reading := v, meshTicks := 0 } }
    zeroise 1 (rindEvent 1 0 v (latchTamper 0x63 (le 2 v) s1))

def execMeshBreak (reading : Nat) (s : State) : Out := .next (meshBreak reading s)

/-- COVER_OPEN (19 R461). -/
def coverOpen (s : State) : State :=
  if s.rind.cover then s
  else
    let z := s.vault.coverBit
    let s1 := rindEvent 2 0 0 (latchTamper 0x62 [1, byteOf (b2n z)] { s with rind := { s.rind with cover := true } })
    if z then zeroise 2 s1 else s1

def execCoverOpen (s : State) : Out := .next (coverOpen s)

/-- COVER_CLOSED (19 R461). -/
def coverClosed (s : State) : State :=
  if s.rind.cover then
    rindEvent 3 0 0 (latchTamper 0x62 [0, 0] { s with rind := { s.rind with cover := false } })
  else s

def execCoverClosed (s : State) : Out := .next (coverClosed s)

/-- TAMPER_CAIRN_ENTRY (19 R464): Keystone queues the entry of the oldest latched event that has none. -/
def tamperEntry (s : State) : State :=
  match s.rind.latch.zipIdx.find? fun e => e.1.token.isNone with
  | some (t, i) =>
    if rdy s rKS then
      let s1 := cairnQ 1 t.code 0xFF t.data true s
      { s1 with rind := { s1.rind with latch := s1.rind.latch.set i { t with token := some (cairnToken s) } } }
    else s
  | none => s

def execTamperCairnEntry (s : State) : Out := .next (gated (ksRun s) tamperEntry s)

/-- Fields of the magnetic table (19 Table KV-7). -/
def magTab (s : State) (off : Nat) : Nat := tf s 0x4F01 off 2

/-- One bit of the mesh LFSR, x^31 + x^28 + 1 (19 R460). -/
def lfsrBit (v : Nat) : Nat := (v * 2 + b2n (v.testBit 30 != v.testBit 27)) % 2147483648

/-- The bits of the mesh drive in a tick: 250 kbit/s are 31.25 bits in 125 us. -/
def lfsrTick (n v : Nat) : Nat := iter lfsrBit (if n % 4 == 3 then 32 else 31) v

/-- The level of the magnetic input (19 R465). -/
def magLevel (s : State) (mean : Rat) : Rat :=
  let d := mean - (magTab s 0 : Rat)
  max d (-d)

/-- The Rind monitor in 125 us of a full reset: the mesh is driven and watched (19 R459, R460). -/
def rindHeld (i : TickIn) (r : Rind) : Rind :=
  { r with lfsr := lfsrTick r.held r.lfsr, held := (r.held + 1) % 4, broken := r.broken && !i.meshOk, zLine := r.zLine - 1 }

/-- The Rind monitor and the magnetic input in one tick (19 R460, R464, R465). -/
def rindTick (i : TickIn) (s : State) : State :=
  let r := s.rind
  let mean : Rat := if i.mags.isEmpty then r.mean else (i.mags.foldl (· + ·) 0 : Nat) / (i.mags.length : Rat)
  let lv := magLevel s mean
  let outside := decide (mean < 20 ∨ 4075 < mean)
  let on := ksRun s && !i.mags.isEmpty
  let fault := r.fault
  let level := if fault then 0xFFFF else (rnd 22 lv).toNat
  let r1 := { r with
    lfsr := lfsrTick (now s) r.lfsr
    broken := r.broken && !i.meshOk, meshTicks := if i.meshOk then min 8 (r.meshTicks + 1) else 0
    zLine := r.zLine - 1, magPwr := true, mean := mean
    level := if on then level else r.level
    peak := if on && r.mag then max r.peak level else r.peak
    setN := if on && decide ((magTab s 2 : Rat) ≤ lv) then r.setN + 1 else 0
    clrN := if on && decide (lv < (magTab s 4 : Rat)) then r.clrN + 1 else 0
    outN := if on && outside then r.outN + 1 else 0
    inN := if on && !outside then r.inN + 1 else 0
    latch := r.latch.filter fun t => match t.token with
      | some k => !cairnDone k s
      | none => true }
  { s with rind := r1 }

/-- MAG_EVENT_START (19 R465): a level at MAG_SET for MAG_SET_MS, or a sensor fault of 1 s, which begins an event of its
own also while another is active (log 45). -/
def magStart (s : State) : State :=
  let r := s.rind
  let fault := !r.fault && decide (8000 ≤ r.outN)
  if !fault && (r.mag || r.setN < 8 * magTab s 6 || r.setN == 0) then s
  else
    let lv := if fault then 0xFFFF else r.level
    rindEvent 5 0 lv (cairnK 0x60 0xFF (le 2 lv) { s with rind := { r with
      mag := true, fault := fault, level := lv, peak := lv, start := now s } })

def execMagEventStart (s : State) : Out := .next (gated (ksRun s) magStart s)

/-- The magnetic event ends (19 R465). -/
def magStop (s : State) : State :=
  let r := s.rind
  rindEvent 6 0 r.level (cairnK 0x61 0xFF (le 2 r.peak ++ [0, 0] ++ le 4 ((now s - r.start) / 8000))
    { s with rind := { r with mag := false, fault := false } })

/-- MAG_EVENT_END (19 R465). -/
def magEnd (s : State) : State :=
  let r := s.rind
  if r.mag && decide (8 * magTab s 8 ≤ (if r.fault then r.inN else r.clrN)) then magStop s else s

def execMagEventEnd (s : State) : Out := .next (gated (ksRun s) magEnd s)

/-- Table 0x4F01 (19 R466). -/
def check4F01 (b : List Byte) : Option Nat :=
  if within b 0 2 1024 3072 && within b 2 2 50 1500 && decide (20 ≤ fld b 4 2 ∧ fld b 4 2 + 10 ≤ fld b 2 2) &&
     within b 6 2 10 5000 && within b 8 2 100 60000 && allZero b 10 6 then none else some 0x0F15

end Sys2Proof.Machine
end

