-- ==== Sys2Proof/Machine/Nand.lean ====
section
/-!
DEFINITION. The medium of the Quarry store: chips, placement, units and their bytes, bad blocks (18 R429 to R437).
-/

namespace Sys2Proof.Machine

/-- Placement by what is fitted (18 R437). -/
def chipFit (s : State) (i : Nat) : Bool := (chipOf s i).fit
def bothChans (s : State) : Bool := (chipFit s 0 || chipFit s 1) && (chipFit s 2 || chipFit s 3)
def firstChip (s : State) (ch : Nat) : Nat := if chipFit s (2 * ch) then 2 * ch else 2 * ch + 1
def soleChan (s : State) : Nat := if chipFit s 0 || chipFit s 1 then 0 else 1
def twoOnSole (s : State) : Bool :=
  !bothChans s && chipFit s (2 * soleChan s) && chipFit s (2 * soleChan s + 1)

/-- The chip of a ledger copy, and the chips of a zone by its KIND (18 R437, Table QS-5, log 147). -/
def copyChip (s : State) (c : Nat) : Nat :=
  if bothChans s then firstChip s c else if twoOnSole s then 2 * soleChan s + c else firstChip s (soleChan s)
def zoneChips (s : State) (kind : Nat) : List Nat :=
  if kind == 0x10 then [copyChip s 0]
  else if kind == 0x11 then [copyChip s 1]
  else if bothChans s then [firstChip s (if [0x21, 0x24, 0x25].contains kind then 1 else 0)]
  else if twoOnSole s then [2 * soleChan s, 2 * soleChan s + 1]
  else [firstChip s (soleChan s)]

/-- A chip serves: mounted, its channel ready, neither fenced (18 R430, R446). -/
def chipUp (s : State) (i : Nat) : Bool :=
  (chipOf s i).st == 1 && rdy s (rQ0 + i / 2) && !fencedB s 8 (i / 2) && !fencedB s 9 i
/-- A chip that serves reads: a read-only chip still does (18 R434). -/
def chipReads (s : State) (i : Nat) : Bool :=
  ((chipOf s i).st == 1 || (chipOf s i).st == 2) && rdy s (rQ0 + i / 2) && !fencedB s 8 (i / 2)
def zoneReads (s : State) (kind : Nat) : Bool := (zoneChips s kind).any (chipReads s)
def updChip (i : Nat) (f : Chip → Chip) (s : State) : State :=
  { s with qr := { s.qr with chips := s.qr.chips.modify i f } }
def updBlk (i b : Nat) (f : Blk → Blk) (s : State) : State :=
  updChip i (fun k => { k with blks := spSet {} k.blks b (f (getBlk k b)) }) s

/-- The levels of a channel's balls (18 R429, Table QS-1): MHz of the clock while it runs, 0 where SCK is low; CSn_N of chips
0 and 1; the IO balls are driven or sampled, else high impedance. -/
structure QuarryBalls where
  sck : Nat
  cs : Bool × Bool
  io : Bool
deriving DecidableEq, Repr
def quarryBalls (s : State) (c : Nat) : QuarryBalls :=
  let chip := match (nth s.qr.time c {}).run with
    | some r => (s.qr.ops.find? fun o => o.id == r.1).bind fun o => (o.steps.head?).map (·.chip)
    | none => none
  match chip with
  | some k => ⟨100 / 2 ^ (chipOf s (2 * c + k)).clock, (k != 0, k != 1), true⟩
  | none => ⟨0, (true, true), false⟩

/-- Ledger units. -/
def ledKind (k : Nat) : Bool := k == 0x10 || k == 0x11
/-- The zones other than the ledger are rings (18 R437). -/
def ringKind (k : Nat) : Bool := [0x20, 0x21, 0x22, 0x23, 0x24, 0x25, 0x26].contains k

/-- Quota of a zone on a chip; blocks beyond 2 Gbit go to sessions, profiles and spill as 2 : 2 : 1, each of which has
lost the blocks that retirement took; on one channel with two chips each carries half of a zone (18 R434, R437, Table
QS-5, log 147). -/
def quotaOf (s : State) (i kind : Nat) : Nat :=
  let k := chipOf s i
  let n := blkScale k
  let x := k.blocks - 2048 / n
  let sc := fun q => (q + n - 1) / n
  let z := fun q => if twoOnSole s then sc ((q + 1) / 2) else sc q
  match kind with
  | 0x01 => 4
  | 0x02 => sc 16
  | 0x03 => sc 16
  | 0x10 => sc 544
  | 0x11 => sc 544
  | 0x20 => z 320 + 2 * x / 5 - k.shrunk
  | 0x21 => z 160 + 2 * x / 5 - k.shrunk
  | 0x22 => z 40
  | 0x23 => z 16
  | 0x24 => z 64 + x / 5 - k.shrunk
  | 0x25 => z 48
  | _ => z 4

/-- Blocks of a kind on a chip. -/
def blksOf (k : Chip) (kind : Nat) : List (Nat × Blk) := k.blks.filter fun e => e.2.kind == kind && !e.2.bad
/-- The system zone: block 0 and the first three good blocks after it (18 R434). -/
def sysBlks (k : Chip) : List Nat :=
  0 :: (((List.range 64).drop 1).filter fun n => !(getBlk k n).bad).take 3
/-- The free blocks of a chip. -/
def freeBlks (k : Chip) : List Nat :=
  let sys := sysBlks k
  (List.range k.blocks).filter fun n => !sys.contains n && (getBlk k n).kind == 0 && !(getBlk k n).bad && !(getBlk k n).shut
/-- The block with the least value of a measure. -/
def leastBlk (f : Nat → Nat) (l : List Nat) : Option Nat :=
  l.foldl (fun r n => match r with
    | some b => if f n < f b then some n else some b
    | none => some n) none

/-- A block is the victim of an open operation: it takes no unit (18 R435, R444). -/
def isVictim (s : State) (i b : Nat) : Bool :=
  s.qr.ops.any fun o => (5 ≤ o.code && o.code ≤ 7 || o.code == 10) && o.victim == (i / 2, i % 2, b)
/-- A block that may take further units. -/
def openBlk (s : State) (i : Nat) (e : Nat × Blk) : Bool :=
  decide (e.2.units.length < unitsPer (chipOf s i)) && !e.2.shut && !isVictim s i e.1
/-- Items that a zone's blocks on a chip hold. -/
def zoneItems (s : State) (i kind : Nat) : Nat :=
  (blksOf (chipOf s i) kind).foldl (fun n e => e.2.units.foldl (fun n u => n + u.data.length) n) 0
/-- A zone has not used up its quota; the Cairn mirror grows beyond its own while its blocks would otherwise hold fewer than
65,536 entries (18 R437, R440). -/
def zoneRoom (s : State) (i kind : Nat) : Bool :=
  decide ((blksOf (chipOf s i) kind).length < quotaOf s i kind) ||
  (kind == 0x22 && decide (zoneItems s i 0x22 < 65536 + 32 * unitsPer (chipOf s i)))
/-- The block that takes the next unit of a kind: the one being filled, or the free one with the lowest erase count (18
R435). -/
def placeBlk (s : State) (i kind : Nat) : Option Nat :=
  match (blksOf (chipOf s i) kind).find? (openBlk s i) with
  | some e => some e.1
  | none => if zoneRoom s i kind then leastBlk (fun n => (getBlk (chipOf s i) n).erases) (freeBlks (chipOf s i)) else none
/-- The chip that takes the next unit of a zone: of two, the one that is filling a block, else the one with fewer. -/
def zoneChip (s : State) (kind : Nat) : Nat := match zoneChips s kind with
  | [i, j] =>
    if (blksOf (chipOf s i) kind).any (openBlk s i) then i
    else if (blksOf (chipOf s j) kind).any (openBlk s j) then j
    else if (blksOf (chipOf s j) kind).length < (blksOf (chipOf s i) kind).length then j else i
  | l => nth l 0 0

/-- Address of a unit: chip in bit 20, block in 19:7, page in 6:1, half in 0 (18 R438). -/
def addrOf (k : Chip) (i b u : Nat) : Nat := i % 2 * 2 ^ 20 + b * 128 + (if k.page4 then u else 2 * u)
/-- Chip, block and unit of an address on a channel. -/
def placeOf (s : State) (chan ad : Nat) : Nat × Nat × Nat :=
  let i := 2 * chan + ad / 2 ^ 20
  (i, bitsAt ad 7 13, if (chipOf s i).page4 then ad % 128 else ad % 128 / 2)
def unitAt (s : State) (chan ad : Nat) : Option NUnit :=
  let p := placeOf s chan ad
  (getBlk (chipOf s p.1) p.2.1).units[p.2.2]?

/-- A free record (14 R339, 18 R439). -/
def freeRec (a : Nat) : List Byte := le 4 a ++ zeros 55 ++ [0xFF] ++ zeros 68

/-- The body of a journal record (18 R441, Table QS-6; order within the body: log 147). -/
def jBody (r : JRec) : List Byte :=
  r.recs.flatMap (fun e => e.2) ++ r.data.flatten ++
  (if r.ty == 1 && (5 ≤ r.op && r.op ≤ 7 || r.op == 10) then
    [byteOf r.victim.1, byteOf r.victim.2.1] ++ le 2 r.victim.2.2 else []) ++
  (if r.ty == 1 && (r.op == 8 || r.op == 9 || r.op == 11) then le 2 r.item else []) ++
  (if r.ty == 5 then le 3 (r.map.1 / 2) ++ [byteOf (r.map.1 % 2)] ++ le 3 r.map.2 else [])
/-- A journal record: TYPE, OP, LEN, OP_ID and its body (18 R441). -/
def jRecBytes (r : JRec) : List Byte := [byteOf r.ty, byteOf r.op] ++ le 2 (jBody r).length ++ le 4 r.id ++ jBody r
/-- The 2,048 data bytes of a journal unit: header, CRC and records (18 R441, log 147). -/
def journalData (u : NUnit) : List Byte :=
  let rs := u.recs.flatMap jRecBytes
  let h := le 8 u.jseq ++ le 8 u.ckpt ++ le 2 rs.length ++ [0, 0]
  h ++ le 4 (crc32 (h ++ zeros 4 ++ rs)) ++ rs
/-- The data bytes of a unit; an item of several units lies in them one after another. -/
def unitData (u : NUnit) : List Byte :=
  padTo 2048 (if u.kind == 2 then journalData u
    else if ledKind u.kind then u.data.zipIdx.flatMap fun e => if e.1.isEmpty then freeRec (16 * u.idx + e.2) else e.1
    else u.data.flatten.drop (2048 * u.part))
/-- A unit as it goes over the balls: data, then the spare of Table QS-3 with the parity of its two sectors (18 R432). -/
def unitImage (u : NUnit) : List Byte :=
  let d := unitData u
  let m0 := [byteOf u.kind] ++ le 3 u.idx
  let m1 := le 4 u.wseq
  d ++ m0 ++ bchParity (d.take 1024 ++ m0) ++ m1 ++ bchParity (d.drop 1024 ++ m1)

/-- SE is asked for the erase of a block of a ring zone (18 Table QS-6). -/
def eraseAsked (s : State) (i b : Nat) : Bool :=
  (s.qr.ops ++ s.qr.asks).any fun o => o.code == 7 && o.victim == (i / 2, i % 2, b)
def askErase (i b : Nat) (s : State) : State :=
  if eraseAsked s i b then s else seAsk { code := 7, cls := 5, victim := (i / 2, i % 2, b) } s
/-- The oldest block of a zone: the one whose first unit was programmed first. -/
def oldestBlk (s : State) (i kind : Nat) : Option Nat :=
  let k := chipOf s i
  leastBlk (fun n => match (getBlk k n).units with
    | u :: _ => u.wseq
    | [] => 0) (((blksOf k kind).filter fun e => !openBlk s i e && !eraseAsked s i e.1).map (·.1))
/-- The oldest block of a ring zone is erased when a new one is needed (18 R437). -/
def ringFull (i kind : Nat) (s : State) : State :=
  if !ringKind kind || zoneRoom s i kind || (blksOf (chipOf s i) kind).any (openBlk s i) then s
  else match oldestBlk s i kind with
    | some b => askErase i b s
    | none => s

/-- A zone that has lost a block of its quota gives up its oldest (18 R434). -/
def shrinkZone (i kind : Nat) (s : State) : State :=
  if (blksOf (chipOf s i) kind).length ≤ quotaOf s i kind then s
  else match oldestBlk s i kind with
    | some b => askErase i b s
    | none => s

/-- A unit is programmed into its block, with its WSEQ and, a new one in a ring, its first item number: its address, and the
state; none where no block takes it (18 R432, R435, R438). -/
def placeUnit (i : Nat) (u : NUnit) (s : State) : Option (Nat × State) :=
  match placeBlk s i u.kind with
  | some b =>
    let w := (nth s.qr.wseq (i / 2) 0 + 1) % 4294967296
    let n := spGet 0 s.qr.rings u.kind
    let ring := 0x20 ≤ u.kind && u.kind ≤ 0x24 && u.wseq == 0
    let v := { u with wseq := w, lost := false, idx := if ring then n % 2 ^ 24 else u.idx }
    let q := getBlk (chipOf s i) b
    let s1 := updBlk i b (fun q => { q with
      kind := u.kind, units := q.units ++ [v], since := if q.units.isEmpty then s.rtc.sec else q.since }) s
    let s2 := { s1 with qr := { s1.qr with
      wseq := s1.qr.wseq.set (i / 2) w
      rings := if ring then spSet 0 s1.qr.rings u.kind (n + u.data.length) else s1.qr.rings
      time := s1.qr.time.modify (i / 2) fun k => { k with sent := unitImage v } } }
    some (addrOf (chipOf s i) i b q.units.length, ringFull i u.kind s2)
  | none => none

/-- Items of a zone are gone: those of an erased block by age, those of an uncorrectable unit as lost (18 R433, R437). -/
def dropUnit (u : NUnit) (s : State) : State :=
  let out := fun (l : List (List Byte)) => l.filter fun b => !u.data.contains b
  match u.kind with
  | 0x20 => { s with qr := { s.qr with sess := out s.qr.sess } }
  | 0x21 => { s with qr := { s.qr with profs := out s.qr.profs } }
  | 0x22 => { s with cairn := { s.cairn with mirror := s.cairn.mirror.filter fun e => !u.data.contains (cairnBytes e) } }
  | 0x23 => { s with qr := { s.qr with bills := s.qr.bills.filter fun e => !u.data.contains e.2 } }
  | 0x24 => { s with ev := { s.ev with zone := s.ev.zone.filter fun e => !u.data.contains (evBytes e) } }
  | 0x25 => { s with qr := { s.qr with opens := s.qr.opens.filter fun r => r.id != u.idx } }
  | 0x26 => { s with qr := { s.qr with blobs := spSet [] s.qr.blobs u.idx [] } }
  | _ => s
/-- The newest items that leave a ring by age (18 Table QS-12). -/
def noteAged (u : NUnit) (s : State) : State :=
  let top := fun k w o => { s with qr := { s.qr with aged := s.qr.aged.modify k fun a => u.data.foldl (fun a b => max a (fld b o w)) a } }
  if u.kind == 0x21 then top 0 8 0 else if u.kind == 0x20 then top 1 4 0 else s
def ageUnit (u : NUnit) (s : State) : State := if u.live && !u.lost then dropUnit u (noteAged u s) else s

/-- A unit reads uncorrectable or erased: it counts as unwritten, and what it held is lost; of a ledger unit the other copy
serves (18 R433). -/
def loseUnit (i b n : Nat) (s : State) : State :=
  match (getBlk (chipOf s i) b).units[n]? with
  | some u =>
    if u.lost then s
    else
      let s1 := updBlk i b (fun q => { q with units := q.units.modify n fun u => { u with lost := true } }) s
      if ringKind u.kind && u.live then
        dropUnit u { s1 with qr := { s1.qr with lostItems := s1.qr.lostItems + u.data.length } }
      else s1
  | none => s

/-- The bad-block table is written, the two copies in turn (18 R434). -/
def writeBbt (i : Nat) (s : State) : State :=
  updChip i (fun k => { k with
    bbt := k.bbt.set (k.bbtN % 2) ((k.blks.filter fun e => e.2.bad).map (·.1)), bbtN := k.bbtN + 1 }) s

/-- A block is retired (18 R434): it takes no more programs, its live units move, it enters the bad-block table, a reserve
block joins the pool. -/
def retireBlk (i b : Nat) (s : State) : State :=
  if (getBlk (chipOf s i) b).bad then s
  else
    let low := decide (chipReserve s i * 100 < (chipOf s i).blocks)
    let s1 := writeBbt i (updChip i (fun k => { k with badR := k.badR + 1, shrunk := k.shrunk + b2n low })
      (updBlk i b (fun q => { q with bad := true }) s))
    let s2 := if low then [0x20, 0x21, 0x24].foldl (fun s z => shrinkZone i z s) s1 else s1
    let s3 := if (getBlk (chipOf s i) b).units.isEmpty then s2
      else seAsk { code := 10, cls := 5, victim := (i / 2, i % 2, b) } s2
    if chipReserve s3 i == 0 && (chipOf s3 i).st == 1 then
      fenceNow 9 i false 0x0A 2 (updChip i (fun k => { k with st := 2 }) s3)
    else s3

/-- A read of a unit: 0 clean, 1 weak, 2 uncorrectable, 3 erased (18 R433). -/
def readDone (i b n out : Nat) (s : State) : State :=
  let s1 := updBlk i b (fun q => { q with reads := q.reads + 1 }) s
  if out == 1 then updChip i (fun k => { k with weak := sat32 k.weak }) (updBlk i b (fun q => { q with weak := true }) s1)
  else if out == 2 then
    let q := getBlk (chipOf s1 i) b
    let recent := q.uncs.filter fun t => decide (s.rtc.sec < t + 2592000)
    let s2 := loseUnit i b n
      (updChip i (fun k => { k with unc := sat32 k.unc }) (updBlk i b (fun q => { q with uncs := recent ++ [s.rtc.sec] }) s1))
    if recent.isEmpty then s2 else retireBlk i b s2
  else if out == 3 then loseUnit i b n s1
  else s1

/-- An erase has completed (18 R435, R437, R444): the block joins the free pool once its operation has committed. -/
def eraseDone (code i b : Nat) (s : State) : State :=
  let q := getBlk (chipOf s i) b
  let s1 := if code == 7 then q.units.foldl (fun s u => ageUnit u s) s else s
  updBlk i b (fun q => { kind := q.kind, erases := q.erases + 1, scrubbed := s.rtc.sec, bad := q.bad, shut := true }) s1
def freeBlk (i b : Nat) (s : State) : State := updBlk i b (fun q => { q with kind := 0, shut := false }) s

end Sys2Proof.Machine
end

