-- ==== Sys2Proof/Machine/Tariff.lean ====
section
/-!
DEFINITION. Local time, rates, friendly hours and the clock (13 R316 to R323, R333 to R335, 14 R351).
-/

namespace Sys2Proof.Machine

/-- Days from 0000-03-01 to 2000-01-01 of the Gregorian calendar (13 R316). -/
def day2000 : Nat := 730425

/-- Days since 0000-03-01 of a date. -/
def dayNo (y m d : Nat) : Nat :=
  let y1 := if m ≤ 2 then y - 1 else y
  let mp := (m + 9) % 12
  365 * y1 + y1 / 4 - y1 / 100 + y1 / 400 + (153 * mp + 2) / 5 + d - 1

/-- The date of a day number: year, month, day. -/
def dateNo (z : Nat) : Nat × Nat × Nat :=
  let era := z / 146097
  let doe := z % 146097
  let yoe := (doe - doe / 1460 + doe / 36524 - doe / 146096) / 365
  let doy := doe - (365 * yoe + yoe / 4 - yoe / 100)
  let mp := (5 * doy + 2) / 153
  let m := if mp < 10 then mp + 3 else mp - 9
  (yoe + era * 400 + b2n (m ≤ 2), m, doy - (153 * mp + 2) / 5 + 1)

/-- Weekday of a day number, 0 Monday: 2000-01-01 is a Saturday (13 R316). -/
def weekdayNo (z : Nat) : Nat := (z + 2) % 7

/-- Days of a month. -/
def monthDays (y m : Nat) : Nat := if m == 12 then 31 else dayNo y (m + 1) 1 - dayNo y m 1

/-- The day that MONTH, WEEK, WEEKDAY at an offset of a tariff table name in a year; WEEK 5 is the last (13 R316). -/
def dstDay (b : List Byte) (off y : Nat) : Nat :=
  let m := fld b off 1
  let first := dayNo y m 1
  let d0 := (fld b (off + 2) 1 + 7 - weekdayNo first) % 7
  let w := fld b (off + 1) 1
  let k := if w == 5 then (if d0 + 28 < monthDays y m then 4 else 3) else w - 1
  first + d0 + 7 * k

/-- Local standard time of RTC SECONDS, in seconds since 0000-03-01 (13 R316). -/
def stdOf (b : List Byte) (sec : Nat) : Nat := ((sec + day2000 * 86400 : Nat) + 60 * fldI b 8 2 : Int).toNat

/-- RTC SECONDS of a local standard time. -/
def utcOf (b : List Byte) (std : Nat) : Nat := ((std : Int) - 60 * fldI b 8 2 - (day2000 * 86400 : Nat) : Int).toNat

/-- DST_OFFSET in seconds. -/
def dstOff (b : List Byte) : Nat := 60 * fld b 10 1

/-- Start and end of daylight time in a year, local standard time; the end is given in daylight time (13 R316). -/
def dstSpan (b : List Byte) (y : Nat) : Nat × Nat :=
  (dstDay b 12 y * 86400 + 3600 * fld b 15 1, dstDay b 16 y * 86400 + 3600 * fld b 19 1 - dstOff b)

/-- The last start and the last end of daylight time at or before a local standard time: an end named on 1 January may lie
in the year before in standard time (13 R316). -/
def dstLast (b : List Byte) (std : Nat) : Nat × Nat :=
  let y := (dateNo (std / 86400)).1
  let spans := [y - 1, y, y + 1].map (dstSpan b)
  let last := fun (l : List Nat) => (l.filter (· ≤ std)).foldl max 0
  (last (spans.map (·.1)), last (spans.map (·.2)))

/-- Daylight time is in force at a local standard time: it has started since it last ended (13 R316). -/
def dstAt (b : List Byte) (std : Nat) : Bool := dstOff b != 0 && decide ((dstLast b std).2 < (dstLast b std).1)

/-- The hour that ends daylight time repeats (13 R321). -/
def repeatsAt (b : List Byte) (std : Nat) : Bool :=
  dstOff b != 0 && !dstAt b std && decide (std < (dstLast b std).2 + dstOff b)

/-- Local time of RTC SECONDS in seconds since 0000-03-01 (13 R316). -/
def localOf (b : List Byte) (sec : Nat) : Nat :=
  let std := stdOf b sec
  if dstAt b std then std + dstOff b else std

/-- The first special day that names a date (13 R321). -/
def specialDay (b : List Byte) (y m d : Nat) : Option Nat :=
  (List.range 64).find? fun j =>
    fld b (2256 + 4 * j) 1 == m && fld b (2257 + 4 * j) 1 == d &&
    (fld b (2258 + 4 * j) 1 == 0 || fld b (2258 + 4 * j) 1 + 2000 == y)

/-- START_MONTH and START_DAY of a season as one number, 0 unused. -/
def seasonKey (b : List Byte) (k : Nat) : Nat :=
  if fld b (64 + 12 * k) 1 == 0 then 0 else 32 * fld b (64 + 12 * k) 1 + fld b (65 + 12 * k) 1

/-- The used season with the latest start among some. -/
def latestSeason (b : List Byte) (l : List Nat) : Option Nat :=
  l.foldl (fun r k => match r with
    | some j => if seasonKey b j < seasonKey b k then some k else some j
    | none => some k) none

/-- The season of a date (13 R321). -/
def seasonOf (b : List Byte) (m d : Nat) : Nat :=
  let used := (List.range 12).filter fun k => seasonKey b k != 0
  match latestSeason b (used.filter fun k => decide (seasonKey b k ≤ 32 * m + d)) with
  | some k => k
  | none => (latestSeason b used).getD 0

/-- The day profile of a local day number (13 R321). -/
def profileOf (b : List Byte) (z : Nat) : Nat :=
  let (y, m, d) := dateNo z
  match specialDay b y m d with
  | some j => fld b (2259 + 4 * j) 1
  | none => fld b (66 + 12 * seasonOf b m d + weekdayNo z) 1

/-- The rate of a local time (13 R321). -/
def rateLocal (b : List Byte) (loc : Nat) : Nat :=
  let pt := 208 + 64 * profileOf b (loc / 86400)
  let minute := loc / 60 % 1440
  match (List.range 16).reverse.find? fun i => fld b (pt + 4 * i) 2 != 0xFFFF && decide (fld b (pt + 4 * i) 2 ≤ minute) with
  | some i => fld b (pt + 4 * i + 2) 1
  | none => fld b (pt + 2) 1

/-- The rate of RTC SECONDS; while the hour that ends daylight time repeats, the rate of the last daylight second (13
R321). -/
def rateAt (b : List Byte) (sec : Nat) : Nat :=
  let std := stdOf b sec
  if repeatsAt b std then rateLocal b ((dstLast b std).2 + dstOff b - 1)
  else rateLocal b (localOf b sec)

/-- The first whole local minute after an instant at which the rate changes, none within 366 days (13 R321). -/
def nextSwitchGo (b : List Byte) (r : Nat) : Nat → Nat → Option Nat
  | 0, _ => none
  | k + 1, t => if rateAt b t == r then nextSwitchGo b r k (t + 60) else some t
def nextSwitch (b : List Byte) (sec : Nat) : Option Nat :=
  nextSwitchGo b (rateAt b sec) 527040 ((sec / 60 + 1) * 60)

/-- A window of the credit rules holds a local time (14 R351, Table PP-5). -/
def inWindow (c : List Byte) (loc w : Nat) : Bool :=
  let days := fld c (8 + 6 * w) 1
  let a := fld c (10 + 6 * w) 2
  let z := fld c (12 + 6 * w) 2
  let minute := loc / 60 % 1440
  let wd := weekdayNo (loc / 86400)
  if z < a then
    (days.testBit wd && decide (a ≤ minute)) || (days.testBit ((wd + 6) % 7) && decide (minute < z))
  else days.testBit wd && decide (a ≤ minute ∧ minute < z)

/-- friendly_now at RTC SECONDS, with time valid (14 R351). -/
def friendlyAt (b c : List Byte) (sec : Nat) : Bool :=
  let loc := localOf b sec
  let (y, m, d) := dateNo (loc / 86400)
  (List.range 4).any (inWindow c loc) || (fld c 32 1 == 1 && (specialDay b y m d).isSome)

/-- The billing boundary of a month in RTC SECONDS: BILL_HOUR:00 local on BILL_DAY; where daylight time skips that
hour the change, where it repeats it the first (13 R328). -/
def billOf (b : List Byte) (y m : Nat) : Nat :=
  let loc := dayNo y m (fld b 23 1) * 86400 + 3600 * fld b 24 1
  if dstAt b (loc - dstOff b) then utcOf b (loc - dstOff b)
  else if dstAt b loc then utcOf b (dstLast b loc).1
  else utcOf b loc

/-- The billing boundary of month n, counted from January of the year 0 (13 R328). -/
def monthBill (b : List Byte) (n : Nat) : Nat := billOf b (n / 12) (n % 12 + 1)

/-- The month of the last billing boundary at or before an instant (13 R328). -/
def lastMonth (b : List Byte) (sec : Nat) : Nat :=
  let (y, m, _) := dateNo (localOf b sec / 86400)
  let n := 12 * y + m - 1
  if monthBill b (n + 1) ≤ sec then n + 1 else if monthBill b n ≤ sec then n else n - 1

/-- The first billing boundary after an instant (13 R328). -/
def nextBill (b : List Byte) (sec : Nat) : Nat := monthBill b (lastMonth b sec + 1)

/-- The active tariff table, its version, and the credit rules in force. -/
def tarTab (s : State) : List Byte := tab s 0x4901
def tarVersion (s : State) : Nat := match tabRec s 0x4901 with
  | some r => r.version
  | none => 0
def creditTab (s : State) : List Byte := tab s 0x4A01

/-- The sub-interval length in seconds (13 R324). -/
def subLen (b : List Byte) : Nat := fld b 21 1 * 60 / max 1 (fld b 22 1)

/-- The next instant after sec at which sec + 60 UTC_OFFSET is a multiple of a length (13 R324). -/
def alignedAfter (b : List Byte) (len sec : Nat) : Nat :=
  let std := stdOf b sec
  utcOf b ((std / len + 1) * len)
def isAligned (b : List Byte) (len sec : Nat) : Bool := stdOf b sec % len == 0

/-- The rate and friendly_now that time gives now (13 R321, R323, 14 R351). -/
def rateNow (s : State) : Nat := if s.rtc.valid then rateAt (tarTab s) s.rtc.sec else fld (tarTab s) 11 1
def friendlyNow (s : State) : Bool := s.rtc.valid && friendlyAt (tarTab s) (creditTab s) s.rtc.sec

/-- The rate in force in this tick (13 R319). -/
def rateInForce (s : State) : Nat := match s.eg.rates with
  | r :: _ => r
  | [] => s.tar.rate

/-- TARIFF_EVENT (13 R338). -/
def tariffEvent (ev det flags tick : Nat) (value : Int) (s : State) : State :=
  notify 0x0980 ([byteOf ev, byteOf det] ++ le 2 flags ++ le 8 tick ++
    leI 4 (clampI (-2147483648) 4294967295 value)) s

/-- The next end on tick count: whole lengths from the tick in which TIME_VALID cleared or OR_RDY set (13 R325). -/
def tickEnd (s : State) (len : Nat) : Nat := s.tar.countFrom + ((now s - s.tar.countFrom) / len + 1) * len

/-- The ends that lie ahead: of the sub-interval and of the profile interval (13 R324, R325, 18 Table QS-7). -/
def reschedule (s : State) : State :=
  let b := tarTab s
  { s with tar := { s.tar with
      nextD := alignedAfter b (subLen b) s.rtc.sec, endOf := valOf s 0x0C40, nextP := alignedAfter b 900 s.rtc.sec
      nextTick := tickEnd s (subLen b * 8000), nextPTick := tickEnd s (900 * 8000) } }

/-- The sub-interval energies are cleared (13 R327). -/
def clearSubs (s : State) : State := { s with tar := { s.tar with subs := List.replicate 25 [] } }

/-- Tick-count mode begins (13 R323, R325). -/
def enterUnknown (s : State) : State :=
  let s1 := reschedule (clearSubs { s with tar := { s.tar with
    rate := fld (tarTab s) 11 1, friendly := false, tcm := true, unknown := now s, countFrom := now s
    run := s.tar.run ||| 4, profRun := s.tar.profRun ||| 4 } })
  tariffEvent 7 0 0 (now s) 0 s1

/-- TIME_VALID clears, with its reason (13 R317). -/
def timeClears (reason : Nat) (s : State) : State :=
  if s.rtc.valid then
    let s1 := cairnO 0x40 0xFF [byteOf reason] { s with rtc := { s.rtc with valid := false } }
    if s1.eg.restored then enterUnknown s1 else s1
  else s

/-- OR_RDY has set: where time is unknown the ends are counted from it (13 R325). -/
def orRise (s : State) : State :=
  if s.tar.tcm then reschedule { s with tar := { s.tar with countFrom := now s } } else s

/-- RTC time as a count of SUBSEC units. -/
def rtcUnits (s : State) : Nat := s.rtc.sec * 32768 + s.rtc.sub

/-- A change of the clock (13 R333): what it is (0 set, 1 trim, 2 no change), and the state after. -/
def clockChange (sec sub source : Nat) (s : State) : Nat × State :=
  let delta : Int := (sec * 32768 + sub : Nat) - (rtcUnits s : Int)
  let mag := delta.natAbs
  let day := s.tar.trims.filter fun t => decide (s.rtc.sec < t.1 + 86400)
  let sum := (day.map (·.2)).foldl (· + ·) 0
  if s.rtc.valid && mag * 1000 < 32768 then (2, s)
  else if s.rtc.valid && mag ≤ 65536 && sum + mag ≤ 983040 then
    let s1 := { s with tar := { s.tar with slew := delta * 100000, trims := day ++ [(s.rtc.sec, mag)] } }
    (1, tariffEvent 8 0 0 (now s) (clampI (-2147483648) 2147483647 ((sec : Int) - s.rtc.sec))
      (evrec 0x0901 2 0xFF (leI 4 (rnd 23 ((delta * 1000 : Int) / (32768 : Rat)))) s1))
  else (0, { s with tar := { s.tar with set := some { sec := sec, sub := sub, source := source } } })

/-- A closed set comes into force at the start of the set tick (13 R333, Table TD-6). -/
def applySet (s : State) : State :=
  match s.tar.set with
  | some c =>
    if !c.closed || !s.clk.rtcRun then s
    else
      let was := s.rtc.valid
      let old := s.rtc.sec
      let s1 := { s with
        rtc := { sec := c.sec, sub := c.sub, frac := 0, valid := true }
        tar := { s.tar with
          set := none, setTick := some (now s), bFlags := if was then 2 else 4, slew := 0, tcm := false } }
      let s2 := if s1.tar.nextClose == 0 then { s1 with tar := { s1.tar with nextClose := nextBill (tarTab s1) c.sec } } else s1
      let s3 := cairnO 0x41 0xFF (le 8 old ++ le 8 c.sec ++ [byteOf c.source]) (reschedule s2)
      let s4 := tariffEvent 5 0 0 (now s) (clampI (-2147483648) 2147483647 ((c.sec : Int) - old)) s3
      let s5 := if was then s4 else tariffEvent 6 0 0 (now s) 0 s4
      let r := rateNow s5
      let s6 := { s5 with tar := { s5.tar with rate := r, friendly := friendlyNow s5 } }
      if r == s.tar.rate then s6 else tariffEvent 1 r 0 (now s) 0 s6
  | none => s

/-- The RTC over one tick of 4.096 SUBSEC units, with a trim's slew of 10 ms per second (04 Table HL-14, 13 R333). -/
def rtcTick (s : State) : State :=
  let step : Int := clampI (-4096) 4096 s.tar.slew
  let f : Nat := ((s.rtc.frac : Int) + 409600 + step).toNat
  let u := s.rtc.sub + f / 100000
  { s with
    rtc := { s.rtc with sec := (s.rtc.sec + u / 32768) % 2 ^ 48, sub := u % 32768, frac := f % 100000 }
    tar := { s.tar with slew := s.tar.slew - step } }

/-- TIME_SET (13 R335, Table TD-13). -/
def timeSetBody (pl : List Byte) (s : State) : Served :=
  let sec := fld pl 0 8
  if !rdy s rOR then no 0x09F0 s
  else if !(decide (631152000 ≤ sec ∧ sec < 2 ^ 48 ∧ fld pl 8 2 ≤ 32767) && fld pl 10 2 == 0) then no 0x09F1 s
  else if !macOk s 0 (s.otp.devId ++ le 2 0x0904 ++ pl.take 20) (bytesAt pl 20 16) then no 0x09F5 (checked s)
  else if fld pl 12 8 ≤ s.tar.counter then no 0x0915 (checked s)
  else
    let put := fun (v : Nat) (s : State) => { s with tar := { s.tar with counter := v } }
    let r := clockChange sec (fld pl 8 2) 0 (sysWrite .ap .timeCounter s.tar.counter (fld pl 12 8) put (checked s))
    let t := if r.1 == 0 then (now s + 1, r.2) else draw r.2
    ok 0x0900 (le 8 s.rtc.sec ++ le 8 sec ++ [byteOf r.1, 0, 0, 0] ++ le 8 t.1) t.2
where
  /-- The engine has checked the MAC (01 Table AR-6). -/
  checked (s : State) : State := macJobs 3 0 (s.otp.devId ++ le 2 0x0904 ++ pl.take 20) (bytesAt pl 20 16) s

def execTimeSet (ch : Nat) (s : State) : Out := .next (serve 0x0904 (len 36) timeSetBody ch s)

/-- The passive table (13 R320). -/
def passive (s : State) : Option TableRec := tabRec s 0x4902

/-- TARIFF_ACTIVATE (13 R322, Table TD-14). -/
def tariffActivateBody (pl : List Byte) (s : State) : Served :=
  if !rdy s rOR then no 0x09F0 s
  else if !sealPort s then no 0x09F2 s
  else if !(passive s).any (fun r => r.version == fld pl 0 2) then no 0x0912 s
  else if s.tar.act.isSome then no 0x09F3 s
  else if !s.rtc.valid then no 0x0913 s
  else ok 0x0900 (le 2 (fld pl 0 2) ++ [0, 0] ++ le 8 (now s)) { s with tar := { s.tar with act := some (s.rtc.sec + 1) } }

def execTariffActivate (ch : Nat) (s : State) : Out := .next (serve 0x0905 (len 4) tariffActivateBody ch s)

/-- A coupling is ready, so that boundaries wait for a superframe start (13 R318). -/
def couplingReady (s : State) : Bool := (List.range 3).any fun k => rdy s (rPL + k)

/-- Register index of the total A_IMP of a scope, and of the word START of it (08 Table EG-1, 13 Table TD-3). -/
def scopeBase (c : Nat) : Nat := if c < 24 then 96 * c + 24 else 2304
def scopeRates (c : Nat) : Nat := if c < 24 then 96 * c + 32 else 2312
def startWord (c : Nat) : Nat := 0x0C00 + 2 * c
def maxWord (c : Nat) : Nat := 0x0C01 + 2 * c

/-- The number of the running period, from 1 (13 Table TD-3). -/
def periodNo (s : State) : Nat := max 1 (resOfReg s 0x0C41)

/-- TARIFF_STATUS (13 Table TD-10). -/
def tariffStatusBody (_ : List Byte) (s : State) : Served :=
  if !rdy s rOR then no 0x09F0 s
  else
    let b := tarTab s
    let v := s.rtc.valid
    let sec := s.rtc.sec
    let loc := localOf b sec
    let (y, m, d) := dateNo (loc / 86400)
    let ns := if v then nextSwitch b sec else none
    let due := match passive s with
      | some r => fld r.bytes 0 8
      | none => 0
    ok 0x0900 (le 8 sec ++
      [byteOf (b2n v), byteOf (rateInForce s), byteOf (if v then seasonOf b m d else 0xFF),
       byteOf (if v then profileOf b (loc / 86400) else 0)] ++
      le 2 (tarVersion s) ++ le 2 (match passive s with
        | some r => r.version
        | none => 0) ++ le 8 due ++ le 8 (ns.getD 0) ++
      [byteOf (match ns with
        | some t => rateAt b t
        | none => 0), byteOf (b2n (!couplingReady s)), byteOf (b2n (v && dstAt b (stdOf b sec))),
       byteOf (bitsOf [v && (specialDay b y m d).isSome, v && repeatsAt b (stdOf b sec), s.tar.slew != 0, s.tar.act.isSome])] ++
      le 4 (periodNo s) ++ le 8 (valOf s 0x0C41) ++ le 8 s.tar.nextClose) s

def execTariffStatus (ch : Nat) (s : State) : Out := .next (serve 0x0901 (len 0) tariffStatusBody ch s)

/-- Demand of an energy sum, mW (13 R324). -/
def demandOf (b : List Byte) (e : Nat) : Nat := e * 3600 / (60 * max 1 (fld b 21 1))
def sat32of (n : Nat) : Nat := min 0xFFFFFFFF n

/-- One entry of DEMAND_READ (13 Table TD-11). -/
def demandEntry (s : State) (c : Nat) : List Byte :=
  let b := tarTab s
  let subs := nth s.tar.subs c []
  let k := max 1 (fld b 22 1)
  let held := subs.drop (subs.length + 1 - k)
  let run := (held.map (·.1)).foldl (· + ·) 0 + (valOf s (scopeBase c) - valOf s (startWord c))
  let (d, e, f) := nth s.tar.last c (0, 0, 0)
  [byteOf c, byteOf subs.length] ++ le 2 s.tar.run ++ le 4 (sat32of (demandOf b run)) ++ le 4 d ++ le 8 e ++ le 2 f ++
  le 2 (valOf s (maxWord c) / 2 ^ 48) ++ le 4 (resOfReg s (maxWord c)) ++ le 8 (valOf s (maxWord c) % 2 ^ 48) ++ zeros 4

/-- DEMAND_READ (13 Table TD-11). -/
def demandReadBody (pl : List Byte) (s : State) : Served :=
  let sc := fld pl 0 1
  if !rdy s rOR then no 0x09F0 s
  else if !((decide (sc ≤ 24) || sc == 0xFF)) then no 0x09F1 s
  else
    let l := if sc == 0xFF then (List.range 24).filter (fitted s) ++ [24] else [sc]
    let b := tarTab s
    ok 0x0900 ([byteOf l.length, byteOf (fld b 20 1), byteOf (fld b 21 1), byteOf (fld b 22 1)] ++
      l.flatMap (demandEntry s)) s

def execDemandRead (ch : Nat) (s : State) : Out := .next (serve 0x0902 (len 4) demandReadBody ch s)

/-- Bytes of a range rise strictly, over the used points of a day profile (13 Table TD-2). -/
def pointsOk (b : List Byte) (d : Nat) : Bool :=
  let m := fun i => fld b (208 + 64 * d + 4 * i) 2
  m 0 == 0 && (List.range 15).all (fun i =>
    m (i + 1) == 0xFFFF || (m i != 0xFFFF && decide (m i < m (i + 1) ∧ m (i + 1) ≤ 1439))) &&
  (List.range 16).all fun i => decide (fld b (210 + 64 * d + 4 * i) 1 ≤ 7) && fld b (211 + 64 * d + 4 * i) 1 == 0

/-- A date exists in a leap year. -/
def leapDate (m d : Nat) : Bool :=
  decide (1 ≤ d ∧ 1 ≤ m ∧ m ≤ 12) && decide (d ≤ nth [31, 29, 31, 30, 31, 30, 31, 31, 30, 31, 30, 31] (m - 1) 0)

/-- No value of a list occurs twice. -/
def distinct : List Nat → Bool
  | [] => true
  | a :: l => !l.contains a && distinct l

/-- A DST rule of a tariff table (13 R320, Table TD-2). -/
def dstRule (b : List Byte) (off : Nat) : Bool :=
  if dstOff b == 0 then allZero b off 4
  else within b off 1 1 12 && within b (off + 1) 1 1 5 && decide (fld b (off + 2) 1 ≤ 6 ∧ fld b (off + 3) 1 ≤ 23)

/-- Content of table 0x4902 (13 R320). -/
def check4902 (b : List Byte) : Option Nat :=
  let sp := (List.range 64).filter fun j => fld b (2256 + 4 * j) 1 != 0
  let se := (List.range 12).filter fun k => fld b (64 + 12 * k) 1 != 0
  let dm := fld b 21 1
  let k := fld b 22 1
  let good := decide (-720 ≤ fldI b 8 2 ∧ fldI b 8 2 ≤ 840) && [0, 60, 120].contains (fld b 10 1) &&
    decide (fld b 11 1 ≤ 7) && dstRule b 12 && dstRule b 16 && [5, 10, 15, 30, 60].contains dm &&
    (if fld b 20 1 == 0 then k == 1 else fld b 20 1 == 1 && decide (1 ≤ k ∧ k ≤ 15) && dm * 60 % k == 0) &&
    within b 23 1 1 28 && decide (fld b 24 1 ≤ 23) && allZero b 25 3 &&
    (List.range 9).all (fun i => decide (fld b (28 + 4 * i) 4 ≤ 100000000)) &&
    (List.range 12).all (fun i => decide (fld b (64 + 12 * i) 1 ≤ 12) && allZero b (73 + 12 * i) 3 &&
      within b (65 + 12 * i) 1 1 31 && (List.range 7).all fun w => decide (fld b (66 + 12 * i + w) 1 ≤ 31)) &&
    fld b 64 1 != 0 && se.all (fun i => leapDate (fld b (64 + 12 * i) 1) (fld b (65 + 12 * i) 1)) &&
    distinct (se.map (seasonKey b)) && (List.range 32).all (pointsOk b) &&
    sp.all (fun j => leapDate (fld b (2256 + 4 * j) 1) (fld b (2257 + 4 * j) 1)) &&
    (List.range 64).all (fun j => decide (fld b (2256 + 4 * j) 1 ≤ 12 ∧ fld b (2259 + 4 * j) 1 ≤ 31)) &&
    distinct (sp.map fun j => fld b (2256 + 4 * j) 3) && allZero b 2512 16
  if good then none else some 0x0910

end Sys2Proof.Machine
end

