-- ==== Sys2Proof/Machine/Quarry.lean ====
section
/-!
DEFINITION. The Quarry store: placement, ledger records, UID index, operations and their NAND steps (18, 14 R339 to
R343).
-/

namespace Sys2Proof.Machine

/-- A ledger copy serves reads, and takes writes too (18 Table QS-11). -/
def copyServes (s : State) (c : Nat) : Bool := chipReads s (copyChip s c) && !nth s.qr.rebuild c false
def copyWhole (s : State) (c : Nat) : Bool := chipUp s (copyChip s c) && !nth s.qr.rebuild c false
/-- LEDGER of QUARRY_STATUS: 0 two copies, 1 degraded, 2 none (18 Table QS-13). -/
def ledgerState (s : State) : Nat :=
  if copyWhole s 0 && copyWhole s 1 then 0 else if copyServes s 0 || copyServes s 1 then 1 else 2

/-- The conditions of LEDGER_RDY and CAIRN_RDY (03 Table PU-16, 15 R370, 18 Table QS-11, 19 R463). -/
def ledgerOk (s : State) : Bool := imgActive s 5 && s.qr.loaded && slotWritten s 1 && ledgerState s != 2
def cairnOk (s : State) : Bool := rdy s rSE && zoneReads s 0x22

/-- Bytes put into a record at an offset. -/
def putF (r : List Byte) (off : Nat) (b : List Byte) : List Byte := r.take off ++ b ++ r.drop (off + b.length)

/-- A record with its MAC (14 R341). -/
def ledgerMsg (s : State) (r : List Byte) : List Byte := s.otp.devId ++ r.take 112
def signRec (s : State) (r : List Byte) : List Byte := r.take 112 ++ padTo 16 ((slotMac s 1 (ledgerMsg s r)).getD [])

/-- The unit of a bucket in a copy, and a record as it lies there, empty where it was never written (18 R438). -/
def copyUnit (s : State) (c b : Nat) : Option NUnit :=
  let ad := spGet 0 s.qr.bmap (2 * b + c)
  if ad == 0 then none else unitAt s (copyChip s c / 2) ad
def rawRec (s : State) (c a : Nat) : List Byte := match copyUnit s c (a / 16) with
  | some u => if u.lost then [] else nth u.data (a % 16) []
  | none => []
/-- The unit that a copy's map names does not read (18 R433). -/
def copyLost (s : State) (c b : Nat) : Bool :=
  spGet 0 s.qr.bmap (2 * b + c) != 0 && (match copyUnit s c b with
    | some u => u.lost
    | none => true)

/-- A valid copy of a record (14 R340, 18 R433, R439). -/
def copyRec (s : State) (c a : Nat) : Option (List Byte) :=
  if !copyServes s c || copyLost s c (a / 16) then none
  else
    let r := rawRec s c a
    if r.isEmpty then (if s.qr.gen == 1 then some (freeRec a) else none)
    else if macOk s 1 (ledgerMsg s r) (bytesAt r 112 16) && fld r 0 4 == a then some r else none

/-- The copy returned, the state of the other, and the record (14 R340, Table PP-14). -/
def ledRead (s : State) (a : Nat) : Option (Nat × Nat × List Byte) :=
  match copyRec s 0 a, copyRec s 1 a with
  | some r, some q =>
    if fld r 8 8 < fld q 8 8 then some (1, 1, q) else some (0, if fld r 8 8 == fld q 8 8 then 0 else 1, r)
  | some r, none => some (0, 2, r)
  | none, some q => some (1, 2, q)
  | none, none => none

/-- The newest content of a record whose write is pending: the one with the highest SEQ, of equal ones the last (01 R33, 14
R340). -/
def pendRec (s : State) (a : Nat) : Option (List Byte) :=
  (((s.qr.ops ++ s.qr.asks).flatMap fun o => o.recs).filter fun r => r.1 == a).foldl (fun q r => match q with
    | some p => if fld p 8 8 ≤ fld r.2 8 8 then some r.2 else some p
    | none => some r.2) none

/-- What follows the commit of the last pending write to a record (01 R33). -/
def afterWrite (a : Nat) (f : Follow) (s : State) : State :=
  let add := fun (l : List SeOp) => l.map fun o =>
    if o.recs.any (fun e => pendRec s a == some e.2 && e.1 == a) then { o with after := o.after ++ [f] } else o
  { s with qr := { s.qr with ops := add s.qr.ops, asks := add s.qr.asks } }

/-- A refusal that rests on the content of a record: while a write to the record is pending it is answered once that
write has committed (01 R33). -/
def refuseRead (a ch st : Nat) (pending : Bool) (s : State) : Served :=
  if pending then (none, afterWrite a (.answer ch st []) s) else no st s

/-- The record of an account as the next command sees it. -/
def ledView (s : State) (a : Nat) : Option (List Byte) := match pendRec s a with
  | some r => some r
  | none => (ledRead s a).map (·.2.2)

/-- The NAND read of a unit. -/
def readStep (i b u kind : Nat) : NStep := { act := 0, chan := i / 2, chip := i % 2, kind := kind, blk := b, unit := u }
/-- The NAND reads of a bucket, one per copy that is mapped and serves (14 R340, 18 R438). -/
def bucketReads (s : State) (b : Nat) : List NStep :=
  [0, 1].filterMap fun c =>
    let ad := spGet 0 s.qr.bmap (2 * b + c)
    let p := placeOf s (copyChip s c / 2) ad
    if ad == 0 || !copyServes s c then none else some (readStep p.1 p.2.1 p.2.2 (0x10 + c))

/-- SE reads a bucket in class INTERACTIVE, both copies (01 Table AR-5); the content is given at once (log 142). -/
def readBucket (a : Nat) (s : State) : State :=
  match bucketReads s (a / 16) with
  | [] => s
  | l => seAsk { cls := 2, steps := l } s

/-- A record is read: the other copy is repaired in class MAINT, a record without a valid copy is reported (14 R340). -/
def ledFetch (a : Nat) (s : State) : Option (List Byte) × State :=
  match pendRec s a with
  | some r => (some r, s)
  | none =>
    let s1 := aesRun { client := 4, slot := some (1, 0), left := 256 } (readBucket a s)
    match ledRead s a with
    | some (c, o, r) =>
      (some r, if o == 0 || !chipUp s (copyChip s (1 - c)) then s1
        else seAsk { code := 1, cls := 5, recs := [(a, r)], copies := [1 - c] } s1)
    | none => (none, evrec 0x0A02 4 0xFF (le 4 a) s1)

/-- A record is written in a class: with its next SEQ and its MAC (14 R340, R341, 18 Table QS-6). -/
def ledWriteAs (cls code a : Nat) (r : List Byte) (data : List (List Byte)) (after : List Follow) (s : State) : State :=
  let q := signRec s (putF r 8 (le 8 ((fld r 8 8 + 1) % 2 ^ 64)))
  let (id, s1) := aesAsk { client := 4, slot := some (1, 0), left := 128, res := bytesAt q 112 16 } s
  seAsk { code := code, cls := cls, recs := [(a, q)], data := data, after := after ++ [.update a], job := id } s1

/-- A record is written in class RECORD (01 Table AR-5). -/
def ledWrite (code a : Nat) (r : List Byte) (data : List (List Byte)) (after : List Follow) (s : State) : State :=
  ledWriteAs 3 code a r data after s

/-- The card UID of a record, its slot h and its tag f in the index (18 R438). -/
def uidOf (r : List Byte) : List Byte := bytesAt r 48 (fld r 58 1)
def uidHash (u : List Byte) : Nat × Nat :=
  let h := sha256 u
  (fld h 0 4 % 131072, if fld h 4 2 == 0 then 1 else fld h 4 2)

/-- An index slot. -/
def uidSlot (s : State) (i : Nat) : Nat := spGet 0 s.qr.uids (i % 131072)
def setUid (i v : Nat) (s : State) : State := { s with qr := { s.qr with uids := spSet 0 s.qr.uids (i % 131072) v } }

/-- Lookup of a UID: slots are probed upwards from h (18 R438). -/
def uidFindGo (s : State) (u : List Byte) (f : Nat) : Nat → Nat → Option (Nat × Nat)
  | 0, _ => none
  | k + 1, i =>
    let e := uidSlot s i
    if e == 0 then none
    else if e / 65536 == f && (ledRead s (e % 65536)).any (fun r => uidOf r.2.2 == u) then some (i % 131072, e % 65536)
    else uidFindGo s u f k (i + 1)
def uidFind (s : State) (u : List Byte) : Option (Nat × Nat) :=
  let (h, f) := uidHash u
  uidFindGo s u f 131072 h

/-- The account that holds a UID once every pending write has reached the medium (14 R343). -/
def uidHolder (s : State) (u : List Byte) : Option Nat :=
  match (s.qr.ops ++ s.qr.asks).find? fun o => o.recs.any fun r => uidOf r.2 == u && pendRec s r.1 == some r.2 with
  | some o => (o.recs.find? fun r => uidOf r.2 == u).map (·.1)
  | none => match uidFind s u with
    | some e => if (ledView s e.2).any (fun r => uidOf r == u) then some e.2 else none
    | none => none

/-- The first empty slot from h on (18 R438). -/
def uidFreeGo (s : State) : Nat → Nat → Option Nat
  | 0, _ => none
  | k + 1, i => if uidSlot s i == 0 then some (i % 131072) else uidFreeGo s k (i + 1)

/-- The slot h of an entry, from its record. -/
def homeOf (s : State) (e : Nat) : Nat := match ledRead s (e % 65536) with
  | some r => (uidHash (uidOf r.2.2)).1
  | none => 0

/-- Deletion shifts later entries back (18 R438): the hole at i, the entry looked at j. -/
def uidShift : Nat → Nat → Nat → State → State
  | 0, i, _, s => setUid i 0 s
  | k + 1, i, j, s =>
    let e := uidSlot s j
    if e == 0 then setUid i 0 s
    else if (j + 131072 - homeOf s e) % 131072 < (j + 131072 - i) % 131072 then uidShift k i ((j + 1) % 131072) s
    else uidShift k j ((j + 1) % 131072) (setUid i e s)

/-- The index follows a record that has come to the medium (14 R343). -/
def uidUpdate (a : Nat) (s : State) : State :=
  let s1 := match (s.qr.uids.find? fun e => e.2 % 65536 == a).map (·.1) with
    | some i => uidShift 131072 i ((i + 1) % 131072) s
    | none => s
  match ledRead s1 a with
  | some (_, _, r) =>
    if fld r 58 1 == 0 || 65535 < a then s1
    else
      let (h, f) := uidHash (uidOf r)
      match uidFreeGo s1 131072 h with
      | some i => setUid i (f * 65536 + a) s1
      | none => s1
  | none => s1

/-- The bucket map names a new unit; the one before is dead (18 R438, R444). -/
def mapBucket (key ad : Nat) (s : State) : State := { s with qr := { s.qr with bmap := spSet 0 s.qr.bmap key ad } }

/-- The 16 records of a bucket as a write carries them to a copy: those of the operation, the others as they lie there, or
as the other copy has them where the two differ (14 R340, 18 R438). -/
def bucketData (s : State) (recs : List (Nat × List Byte)) (c b : Nat) : List (List Byte) :=
  (List.range 16).map fun k =>
    let a := 16 * b + k
    match (recs.filter fun e => e.1 == a).getLast? with
    | some e => e.2
    | none =>
      let x := rawRec s c a
      if x == rawRec s (1 - c) a && !copyLost s c b then x
      else match ledRead s a with
        | some r => r.2.2
        | none => x

/-- The channels that take journal units, and the chip of each (18 R437, R441). -/
def jChans (s : State) : List (Nat × Nat) :=
  (List.range 2).filterMap fun c => ([2 * c, 2 * c + 1].find? (chipUp s)).map fun i => (c, i % 2)
def jSteps (s : State) (ty : Nat) : List NStep :=
  (jChans s).map fun e => { act := 1, chan := e.1, chip := e.2, kind := 2, idx := ty }

/-- Programs of zone units. -/
def unitSteps (s : State) (kind n : Nat) : List NStep :=
  let i := zoneChip s kind
  (List.range n).map fun k => { act := 1, chan := i / 2, chip := i % 2, kind := kind, idx := k }

/-- Programs of the buckets of an operation, copy 0 first (14 R340). -/
def ledSteps (s : State) (o : SeOp) : List NStep :=
  o.recs.flatMap fun e => o.copies.filterMap fun c =>
    let i := copyChip s c
    if chipUp s i then some { act := 1, chan := i / 2, chip := i % 2, kind := 0x10 + c, idx := e.1 / 16 } else none

/-- The live units of a block that a move copies: number of the unit, and the bucket key or again its number (18 R444). -/
def liveUnits (s : State) (v : Nat × Nat × Nat) : List (Nat × Nat) :=
  let i := 2 * v.1 + v.2.1
  let q := getBlk (chipOf s i) v.2.2
  q.units.zipIdx.filterMap fun e =>
    let key := 2 * e.1.idx + (e.1.kind - 0x10)
    if e.1.lost then none
    else if ledKind e.1.kind then
      (if spGet 0 s.qr.bmap key == addrOf (chipOf s i) i v.2.2 e.2 then some (e.2, key) else none)
    else if e.1.live then some (e.2, e.2) else none
def moveSteps (s : State) (v : Nat × Nat × Nat) : List NStep :=
  let i := 2 * v.1 + v.2.1
  let kind := (getBlk (chipOf s i) v.2.2).kind
  (liveUnits s v).flatMap fun k =>
    [readStep i v.2.2 k.1 kind, { readStep i v.2.2 k.1 kind with act := 1, idx := k.2 }]
def eraseStep (v : Nat × Nat × Nat) : NStep := { act := 2, chan := v.1, chip := v.2.1, blk := v.2.2 }

/-- The NAND operations of an operation (18 R441, R444, Table QS-6). -/
def stepsOf (s : State) (o : SeOp) : List NStep :=
  match o.code with
  | 0 => o.steps ++ (if o.steps.isEmpty then (if o.kind == 0 then jSteps s 4 else unitSteps s o.kind o.units) else [])
  | 5 | 6 => jSteps s 1 ++ moveSteps s o.victim ++ jSteps s 2 ++ [eraseStep o.victim] ++ jSteps s 3
  | 7 => jSteps s 1 ++ [eraseStep o.victim] ++ jSteps s 3
  | 10 => jSteps s 1 ++ moveSteps s o.victim ++ jSteps s 3
  | 11 => jSteps s 1 ++ (jChans s).flatMap (fun c =>
      (List.range 340).map fun k => { act := 1, chan := c.1, chip := c.2, kind := 3, idx := k }) ++ jSteps s 3
  | _ => jSteps s 1 ++ ledSteps s o ++ unitSteps s o.kind o.units ++ jSteps s 3

/-- The Cairn entries and profile records that lie in the journal and not yet in their zone (18 R440). -/
def mirrorPend (s : State) : List (List Byte) := (s.cairn.mirror.drop (s.cairn.mirror.length - s.qr.mirrorN)).map cairnBytes
def profPend (s : State) : List (List Byte) := s.qr.profs.drop (s.qr.profs.length - s.qr.profN)
/-- The valid journal units on the medium, one of each JSEQ, in order (18 R441). -/
def journalUnits (s : State) : List NUnit :=
  let all := (List.range 4).flatMap fun i =>
    if chipFit s i && (chipOf s i).st != 0 then (blksOf (chipOf s i) 2).flatMap fun e => e.2.units.filter fun u => !u.lost else []
  all.foldl (fun l u => if l.any fun v => v.jseq == u.jseq then l else insBy (fun a b => a.jseq < b.jseq) u l) []
/-- A DATA record, or the session record of an intent, is not yet in its zone (18 R440); CARD_VERIFIED stands until its
credit (14 Table PP-9). -/
def dataWaits (s : State) (r : JRec) : Bool :=
  r.data.any fun b => (r.ty == 4 && ((mirrorPend s).contains b || (profPend s).contains b ||
    (b.length == 4 && s.qr.verified.contains (fld b 0 4)))) || s.qr.sessPend.contains (true, b)
/-- A journal block may be erased: every operation recorded in it has committed, its DATA records are in their zones and
a later checkpoint is in force, one that covers those commits too (18 R441, log 147). -/
def mayErase (s : State) (o : SeOp) : Bool :=
  let b := getBlk (chipOf s (2 * o.victim.1 + o.victim.2.1)) o.victim.2.2
  let us := journalUnits s
  o.code != 7 || b.kind != 2 || b.units.all fun u => u.jseq ≤ s.qr.ckpt && u.recs.all fun r => !dataWaits s r &&
    (r.ty != 1 || us.any fun v => v.jseq ≤ s.qr.ckpt && v.recs.any fun q => q.ty == 3 && q.id == r.id)

/-- Units that the journal of a chip still takes; it is tight with less than a block of room (18 Table QS-11, log 147). -/
def journalRoom (s : State) (i : Nat) : Nat :=
  let n := unitsPer (chipOf s i)
  let l := blksOf (chipOf s i) 2
  l.foldl (fun r e => r + (if openBlk s i e then n - e.2.units.length else 0)) (n * (quotaOf s i 2 - l.length))
def journalTight (s : State) : Bool := (jChans s).any fun c => decide (journalRoom s (2 * c.1 + c.2) < 64)

/-- A write waits for another: it writes the same record, or gives a record the UID that the other's account still holds (01
R33, 14 R343). -/
def waitsFor (s : State) (r q : Nat × List Byte) : Bool :=
  q.1 == r.1 || (!(uidOf r.2).isEmpty && (ledRead s q.1).any fun e => uidOf e.2.2 == uidOf r.2)

/-- Operations with an intent that are open (18 R441, Table QS-13). -/
def openOps (s : State) : Nat := (s.qr.ops.filter fun o => o.code != 0).length
/-- A request has the medium that it needs: the chip of its victim, a copy of the ledger, room in its zone, room in the
journal (18 R434, R441, Table QS-11). -/
def hasMedium (s : State) (o : SeOp) : Bool :=
  (!(5 ≤ o.code && o.code ≤ 7 || o.code == 10) || chipReads s (2 * o.victim.1 + o.victim.2.1)) &&
  (!(5 ≤ o.code && o.code ≤ 7) || chipUp s (2 * o.victim.1 + o.victim.2.1)) &&
  (o.recs.isEmpty || o.copies.any fun c => chipUp s (copyChip s c)) &&
  (o.kind == 0 || (chipUp s (zoneChip s o.kind) && (placeBlk s (zoneChip s o.kind) o.kind).isSome)) &&
  (o.code == 7 || o.code == 11 || (o.code == 0 && (o.kind != 0 || !o.steps.isEmpty)) || !journalTight s) &&
  (o.code == 0 || decide (openOps s < 8))

/-- A request may be taken: its job of the AES engine is done, its medium is there, and no open operation writes one of its
records (01 R33, R35). -/
def mayTake (s : State) (o : SeOp) : Bool :=
  (o.job == 0 || (!aesPending s.vault.aes o.job && !s.vault.aes.fails.contains o.job)) && mayErase s o && hasMedium s o &&
  o.recs.all fun r => s.qr.ops.all fun p => p.recs.all fun q => !waitsFor s r q

/-- A step programs a journal unit of its operation; a journal unit that a move copies lies in a block, none of which is
block 0. -/
def isJournal (t : NStep) : Bool := t.act == 1 && t.kind == 2 && t.blk == 0
/-- The class of a NAND operation: journal units go as JOURNAL, the rest of a JOURNAL operation as RECORD (01 Table AR-5). -/
def stepCls (o : SeOp) (t : NStep) : Nat := if isJournal t then 1 else if o.cls == 1 then 3 else o.cls

/-- Channel time that a class has used in the window that ends now, and the length of that window (01 Table AR-5, 18 R443):
BULK in any 1 s, MAINT in any 100 ms. -/
def shareWin (cls : Nat) : Nat := if cls == 4 then 8000 else 800
def shareUsed (s : State) (chan cls : Nat) : Nat :=
  (nth s.qr.time chan {}).used.foldl (fun n e => if e.2.1 == cls && now s < e.1 + shareWin cls then n + e.2.2 else n) 0

/-- A class with a guaranteed share has had less than 10 % of its window on a channel (01 R32, 18 R443, log 142). -/
def owed (s : State) (chan cls : Nat) : Bool :=
  (cls == 4 || cls == 5) && decide (10 * shareUsed s chan cls < min (shareWin cls) (now s))

/-- The rank of a class on a channel: those whose share is owed first, then by priority (01 R32, 18 R443). -/
def rankOn (s : State) (chan cls : Nat) : Nat := if owed s chan cls then cls - 4 else 2 + cls

/-- The channels that the work of a request lies on. -/
def workChans (s : State) (o : SeOp) : List Nat :=
  if 5 ≤ o.code && o.code ≤ 7 || o.code == 10 then [o.victim.1]
  else if o.code == 11 then (jChans s).map (·.1)
  else o.steps.map (·.chan) ++ (if o.kind == 0 then [] else [zoneChip s o.kind / 2]) ++
    (if o.recs.isEmpty then [] else o.copies.map fun c => copyChip s c / 2)

/-- The rank of a request: on a channel where its class is owed its share and no open operation serves it, it goes first. -/
def askRank (s : State) (o : SeOp) : Nat :=
  (workChans s o).foldl (fun n c =>
    if s.qr.ops.any (fun p => p.cls == o.cls && p.steps.any fun t => t.chan == c) then n else min n (rankOn s c o.cls)) (2 + o.cls)

/-- The next request: the highest class first, in a class in order of arrival, with the shares of BULK and MAINT (01 R32). -/
def nextAsk (s : State) : Option (SeOp × Nat) :=
  (s.qr.asks.zipIdx.filter fun e => mayTake s e.1).foldl (fun r e => match r with
    | some b => if askRank s e.1 < askRank s b.1 then some e else some b
    | none => some e) none

/-- SE starts no NAND operation any more: a STANDBY entry has reached step 4 (24 R526). -/
def seStill (s : State) : Bool := s.pw.entry.any fun e => e.step == 2

/-- SE starts new work (18 R442, R445, 20 Table FU-2, 24 R526). -/
def seServes (s : State) : Bool :=
  imgActive s 5 && rdy s rSE && s.clk.busRun && !(s.upd.quiesce && s.upd.image == 5) && s.eg.pfailTick.isNone &&
  !seStill s && !(jChans s).isEmpty

/-- SE takes an operation. A ledger copy that a write leaves out is to be rebuilt (18 Table QS-11). -/
def takeOp (o : SeOp) (s : State) : State :=
  let left := fun c => !o.recs.isEmpty && o.copies.contains c && !chipUp s (copyChip s c)
  { s with qr := { s.qr with
    ops := s.qr.ops ++ [{ o with id := s.qr.nextId, steps := stepsOf s o, chans := (jChans s).map (·.1) }]
    nextId := (s.qr.nextId + 1) % 4294967296
    rebuild := s.qr.rebuild.zipIdx.map fun e => e.1 || left e.2 } }

/-- DATA records are packed into one unit of their zone (18 R440). -/
def packOp (kind : Nat) (data : List (List Byte)) : SeOp :=
  { cls := if kind == 0x22 then 3 else 4, kind := kind, units := 1, data := data }
def isPack (kind : Nat) (o : SeOp) : Bool := o.code == 0 && o.kind == kind && o.after.isEmpty
def packing (s : State) (kind : Nat) : Bool := (s.qr.ops ++ s.qr.asks).any (isPack kind)

/-- A NAND operation that its chip can no longer do: a read needs a chip that serves reads, the others one that serves
(18 Table QS-11). -/
def stepDead (s : State) (t : NStep) : Bool :=
  let i := 2 * t.chan + t.chip
  if t.act == 0 then !chipReads s i else !chipUp s i

/-- The next NAND operation of an operation lies on a channel and can be done: its chip serves, and a block takes its unit. -/
def onChan (s : State) (chan : Nat) (o : SeOp) : Bool := match o.steps with
  | t :: _ => t.chan == chan && !stepDead s t && (t.act != 1 || (placeBlk s (2 * t.chan + t.chip) t.kind).isSome)
  | [] => false
def headCls (o : SeOp) : Nat := match o.steps with
  | t :: _ => stepCls o t
  | [] => o.cls

/-- The operation whose NAND operation starts next on a channel: by the rank of its class, in a class the first in order of
arrival (01 R32). -/
def nextOn (s : State) (chan : Nat) : Option SeOp :=
  (s.qr.ops.filter (onChan s chan)).foldl (fun r o => match r with
    | some b => if rankOn s chan (headCls o) < rankOn s chan (headCls b) then some o else some b
    | none => some o) none

/-- The operation whose NAND operation runs on a channel: it always completes (01 R32). -/
def running (s : State) (chan : Nat) : Option SeOp :=
  match (nth s.qr.time chan {}).run with
  | some r => s.qr.ops.find? fun o => o.id == r.1 && onChan s chan o
  | none => none

/-- A channel on which no NAND operation runs starts the next one; during a supply loss none starts (18 R445, 08 Table EG-5
step 6). -/
def startNand (chan : Nat) (s : State) : State :=
  if (running s chan).isSome || seStill s || s.eg.pfailTick.isSome then s
  else
    let run := (nextOn s chan).map fun o => (o.id, now s)
    { s with qr := { s.qr with time := s.qr.time.modify chan fun k => { k with run := run } } }

/-- Both channels. -/
def startNands (s : State) : State := startNand 1 (startNand 0 s)

/-- The journal block that is the next to be erased holds the oldest Cairn entry not yet in its zone, and everything else in
it is done (18 R440). -/
def mirrorDue (s : State) : Bool := match mirrorPend s with
  | e :: _ => (jChans s).any fun c =>
    let i := 2 * c.1 + c.2
    (s.qr.asks.any fun o => o.code == 7 && o.victim.1 == c.1 && o.victim.2.1 == c.2 &&
      (getBlk (chipOf s i) o.victim.2.2).kind == 2 &&
      (getBlk (chipOf s i) o.victim.2.2).units.any fun u => u.recs.any fun r => r.data.contains e)
  | [] => false

/-- SE's own work while no request can be taken: the next Cairn entry is copied, DATA records are packed into their zone,
a tight journal gets a checkpoint (15 R369, 18 R440, Table QS-11). -/
def ownWork (s : State) : State :=
  let n := max s.cairn.mirrorSeq s.cairn.copying + 1
  let pack := fun kind data => if hasMedium s (packOp kind data) then takeOp (packOp kind data) s else s
  if journalTight s && s.qr.ckpt < s.qr.jseq && !((s.qr.ops ++ s.qr.asks).any fun o => o.code == 11) then
    seAsk { code := 11, cls := 5 } s
  else match s.cairn.ring.find? fun e => e.seq == n with
    | some e =>
      let o : SeOp := { cls := 3, data := [cairnBytes e], after := [.mirror n] }
      if rdy s rCairn && hasMedium s o then takeOp o { s with cairn := { s.cairn with copying := n } } else s
    | none =>
      if (32 ≤ s.qr.mirrorN || mirrorDue s) && !packing s 0x22 then pack 0x22 ((mirrorPend s).take 32)
      else if 4 ≤ s.qr.profN && !packing s 0x21 then pack 0x21 ((profPend s).take 4)
      else s

/-- QUARRY_JOB (01 R32, R33): SE takes the next request, or turns to its own work. -/
def quarryJob (s : State) : State :=
  if !seServes s then s
  else match nextAsk s with
    | some (o, i) => startNands (takeOp o { s with qr := { s.qr with asks := s.qr.asks.eraseIdx i } })
    | none => startNands (ownWork s)

def execQuarryJob (s : State) : Out := .next (quarryJob s)

/-- A NAND operation of a class has used channel time up to now, in whole ticks and at least one (18 R443, log 142). -/
def useTime (chan cls : Nat) (s : State) : State :=
  let n := match (nth s.qr.time chan {}).run with
    | some r => max 1 (now s - r.2)
    | none => 1
  { s with qr := { s.qr with time := s.qr.time.modify chan fun k => { k with
      run := none, used := (k.used.filter fun e => now s < e.1 + 8000) ++ [(now s, cls, n)] } } }

/-- The operation whose NAND operation may complete on a channel. -/
def nandTurn (s : State) (chan id : Nat) : Option SeOp :=
  match running s chan with
  | some o => if o.id == id then some o else none
  | none => none

/-- An operation is replaced by id. -/
def setOp (o : SeOp) (s : State) : State :=
  { s with qr := { s.qr with ops := s.qr.ops.map fun p => if p.id == o.id then o else p } }

/-- The operation moves a block's content. -/
def moves (o : SeOp) : Bool := o.code == 5 || o.code == 6 || o.code == 10
/-- A bucket still points into the victim (18 R444). -/
def inVictim (s : State) (o : SeOp) (key : Nat) : Bool :=
  let ad := spGet 0 s.qr.bmap key
  ad / 2 ^ 20 == o.victim.2.1 && bitsAt ad 7 13 == o.victim.2.2
def victimKind (s : State) (o : SeOp) : Nat := (getBlk (chipOf s (2 * o.victim.1 + o.victim.2.1)) o.victim.2.2).kind

/-- What an intent names besides its records: table, key slot or checkpoint slot (18 Table QS-6). -/
def itemOf (s : State) (o : SeOp) : Nat :=
  if o.code == 11 then (match nth s.qr.cks 0 none, nth s.qr.cks 1 none with
    | some a, some b => if a.done && (!b.done || b.jseq < a.jseq) then 1 else 0
    | some a, none => if a.done then 1 else 0
    | none, _ => 0)
  else o.after.foldl (fun n f => match f with
    | .table k => k
    | .blob k => k
    | _ => n) 0

/-- The records of a journal unit: an INTENT; a STEP with a MAP for each bucket that still points into the victim; a COMMIT
with a MAP for each unit the operation gave a bucket; a DATA record (18 R441, R444). -/
def jRecs (s : State) (o : SeOp) (ty : Nat) : List JRec :=
  let r : JRec := { ty := ty, op := o.code, id := o.id }
  let maps := fun (p : Nat × Nat → Bool) => (o.dests.filter p).map fun e => ({ ty := 5, op := o.code, id := o.id, map := e } : JRec)
  match ty with
  | 1 => [{ r with
      recs := o.recs, victim := o.victim, item := itemOf s o
      data := if o.code ≤ 4 || o.code == 9 then o.data else if o.code == 8 then o.data.take 1 else [] }]
  | 2 => r :: (if ledKind (victimKind s o) then maps fun e => inVictim s o e.1 else [])
  | 3 => r :: (if o.code ≤ 4 || (o.code == 10 && ledKind (victimKind s o)) then maps fun e => spGet 0 s.qr.bmap e.1 == e.2 else [])
  | _ => [{ r with data := o.data }]

/-- Session records reach the journal and wait for the sweep (18 R440). -/
def addSess (d : List (List Byte)) (s : State) : State :=
  let new := d.filter fun r => !s.qr.sess.contains r
  { s with qr := { s.qr with sess := s.qr.sess ++ new, sessPend := s.qr.sessPend ++ new.map fun r => (true, r) } }

/-- STEP COPIED is on the medium: the buckets that still point into the victim take the copies; in another zone the copies
replace the victim's units (18 R444). -/
def applyCopies (o : SeOp) (s : State) : State :=
  let i := 2 * o.victim.1 + o.victim.2.1
  if ledKind (victimKind s o) then o.dests.foldl (fun s e => if inVictim s o e.1 then mapBucket e.1 e.2 s else s) s
  else
    let s1 := o.dests.foldl (fun s e =>
      let p := placeOf s o.victim.1 e.2
      updBlk p.1 p.2.1 (fun q => { q with units := q.units.modify p.2.2 fun u => { u with live := true } }) s) s
    updBlk i o.victim.2.2 (fun q => { q with units := q.units.map fun u => { u with live := false } }) s1

/-- The content of a checkpoint as its INTENT is programmed (18 R439). -/
def captureStore (s : State) (jseq : Nat) : Ckpt :=
  { jseq := jseq, bmap := s.qr.bmap, uids := s.qr.uids, rings := s.qr.rings
    erases := s.qr.chips.map fun k => (k.blks.filter fun e => e.2.erases != 0).map fun e => (e.1, e.2.erases) }

/-- A journal unit is programmed on every channel that takes it (18 R440, R441). -/
def journalClose (o : SeOp) (u : NUnit) (ty : Nat) (s : State) : SeOp × State :=
  match ty with
  | 1 => ({ o with begun := true },
      if o.code == 11 then { s with qr := { s.qr with cks := s.qr.cks.set (itemOf s o) (some (captureStore s u.jseq)) } }
      else if o.code ≤ 4 then addSess o.data s else s)
  | 2 => ({ o with copied := true }, applyCopies o s)
  | _ => (o, s)

/-- The unit that a program step carries. -/
def unitOf (s : State) (o : SeOp) (t : NStep) : NUnit :=
  if isJournal t then
    o.jnow.getD { kind := 2, jseq := s.qr.jseq + 1, ckpt := s.qr.ckpt, recs := jRecs s o t.idx }
  else if moves o then
    let u := (getBlk (chipOf s (2 * t.chan + t.chip)) t.blk).units.getD t.unit {}
    { u with live := o.code == 10 || ledKind t.kind }
  else if ledKind t.kind then { kind := t.kind, idx := t.idx, data := bucketData s o.recs (t.kind - 0x10) t.idx }
  else match t.kind with
    | 0x20 => { kind := t.kind, data := (o.data.drop (16 * t.idx)).take 16 }
    | 0x03 => { kind := t.kind, idx := t.idx, jseq := ((s.qr.cks.filterMap id).map fun c => if c.done then 0 else c.jseq).foldl max 0 }
    | 0x23 => { kind := t.kind, data := o.data, part := t.idx }
    | 0x25 => { kind := t.kind, idx := itemOf s o, data := o.data, part := t.idx }
    | 0x26 => { kind := t.kind, idx := itemOf s o, data := o.data }
    | _ => { kind := t.kind, data := o.data }

/-- What the programming of a unit other than a journal unit does. -/
def unitDone (o : SeOp) (t : NStep) (ad : Nat) (s : State) : SeOp × State :=
  let o1 := { o with dests := o.dests ++ [(if moves o then t.idx else if ledKind t.kind then 2 * t.idx + (t.kind - 0x10) else t.idx, ad)] }
  if o.code == 10 then
    if ledKind t.kind then (o1, if inVictim s o t.idx then mapBucket t.idx ad s else s)
    else (o1, updBlk (2 * t.chan + t.chip) t.blk (fun q => { q with units := q.units.modify t.unit fun u => { u with live := false } }) s)
  else if moves o then (o1, s)
  else if ledKind t.kind then (o1, mapBucket (2 * t.idx + (t.kind - 0x10)) ad s)
  else (o1, s)

/-- A program has passed: a journal unit is closed once no other channel still takes it. -/
def programDone (o : SeOp) (t : NStep) (rest : List NStep) (u : NUnit) (ad : Nat) (s : State) : SeOp × State :=
  if isJournal t then
    let s1 := { s with qr := { s.qr with jseq := max s.qr.jseq u.jseq } }
    if rest.head?.any (fun r => isJournal r && r.idx == t.idx) then ({ o with jnow := some u }, s1)
    else journalClose { o with jnow := none } u t.idx s1
  else unitDone o t ad s

/-- One NAND operation of an operation completes: the operation after it, and the state. A failed program is repeated in
another block, and the block is retired; a unit of a move that does not read is not copied (18 R433, R434, Table QS-11). -/
def nandStep (o : SeOp) (t : NStep) (rest : List NStep) (out : Nat) (s : State) : SeOp × State :=
  let i := 2 * t.chan + t.chip
  match t.act with
  | 0 => ({ o with steps := if moves o && 2 ≤ out then rest.drop 1 else rest }, readDone i t.blk t.unit out s)
  | 1 =>
    if out != 0 then
      match placeBlk s i t.kind with
      | some b => (o, retireBlk i b (updBlk i b (fun q => { q with kind := t.kind }) s))
      | none => (o, s)
    else
      let u := unitOf s o t
      match placeUnit i u s with
      | some p =>
        let r := programDone o t rest u p.1 p.2
        ({ r.1 with steps := rest }, r.2)
      | none => (o, s)
  | _ =>
    if out != 0 then ({ o with steps := rest }, retireBlk i t.blk s) else ({ o with steps := rest }, eraseDone o.code i t.blk s)

/-- NAND_OP_TIMEOUT (25 R541, Table SP-2): three operations beyond their limit within 1 h fence the chip. -/
def nandLate (chan chip : Nat) (s : State) : State :=
  let i := 2 * chan + chip
  if chan < 2 && chip < 2 && chipReads s i then
    let l := ((chipOf s i).late.filter fun t => decide (now s < t + 28800000)) ++ [now s]
    let s1 := updChip i (fun k => { k with late := l }) s
    if 3 ≤ l.length then fenceNow 9 i false 0x0A 3 (updChip i (fun k => { k with st := 3 }) s1) else s1
  else s

def execNandOpTimeout (chan chip : Nat) (s : State) : Out := .next (nandLate chan chip s)

/-- JOURNAL_CHECKPOINT (18 R439). -/
def askedFor (s : State) (code : Nat) : Bool := (s.qr.ops ++ s.qr.asks).any fun o => o.code == code
def journalCheckpoint (s : State) : State :=
  if rdy s rSE && s.qr.ckpt + 512 ≤ s.qr.jseq && !askedFor s 11 then seAsk { code := 11, cls := 5 } s else s

def execJournalCheckpoint (s : State) : Out := .next (journalCheckpoint s)

/-- A move of a block of a chip is asked for already. -/
def movePending (s : State) (i : Nat) (codes : List Nat) : Bool :=
  (s.qr.ops ++ s.qr.asks).any fun o => codes.contains o.code && 2 * o.victim.1 + o.victim.2.1 == i

/-- LEDGER_RECLAIM (18 R444): a copy whose free blocks have fallen to 8 reclaims its block with the fewest live units. -/
def ledgerReclaim (s : State) : State :=
  foldN 2 (fun c s =>
    let i := copyChip s c
    let l := blksOf (chipOf s i) (0x10 + c)
    let full := l.filter fun e => !openBlk s i e
    if rdy s rSE && chipUp s i && quotaOf s i (0x10 + c) ≤ l.length + 8 && !movePending s i [5] then
      match leastBlk (fun n => (liveUnits s (i / 2, i % 2, n)).length) (full.map (·.1)) with
      | some b => seAsk { code := 5, cls := 5, victim := (i / 2, i % 2, b) } s
      | none => s
    else s) s

def execLedgerReclaim (s : State) : Out := .next (ledgerReclaim s)

/-- STATIC_MOVE (18 R435): the block in use with the lowest count, while the highest count exceeds it by more than 500. -/
def staticMove (s : State) : State :=
  foldN 4 (fun i s =>
    let k := chipOf s i
    let used := (k.blks.filter fun e => 2 ≤ e.2.kind && !e.2.units.isEmpty && !e.2.bad).map (·.1)
    let top := (k.blks.map fun e => e.2.erases).foldl max 0
    match leastBlk (fun n => (getBlk k n).erases) used with
    | some b =>
      if rdy s rSE && chipUp s i && (getBlk k b).erases + 500 < top && !movePending s i [6] then
        seAsk { code := 6, cls := 5, victim := (i / 2, i % 2, b) } s
      else s
    | none => s) s

def execStaticMove (s : State) : Out := .next (staticMove s)

/-- Read-through interval and rewrite age in seconds by the die temperature (18 Table QS-4). -/
def scrubTimes (s : State) : Nat × Nat :=
  let t := s.cal.temp
  let d := if t < 550 then (90, 1095) else if t < 750 then (30, 365) else if t < 950 then (10, 120) else (3, 40)
  (d.1 * 86400, d.2 * 86400)

/-- A read-through of a block of a chip is asked for already. -/
def throughPending (s : State) (i : Nat) : Bool :=
  (s.qr.ops ++ s.qr.asks).any fun o => o.after.any fun f => match f with
    | .through j _ => j == i
    | _ => false

/-- SCRUB (18 R436): one block of each chip that is due is rewritten, or read through. -/
def scrub (s : State) : State :=
  foldN 4 (fun i s =>
    let k := chipOf s i
    let (rt, age) := scrubTimes s
    let l := k.blks.filter fun e => !e.2.units.isEmpty && !e.2.bad && !isVictim s i e.1
    if !rdy s rSE || !chipUp s i || movePending s i [5, 6, 10] || throughPending s i then s
    else match l.find? fun e => e.2.weak || decide (e.2.since + age < s.rtc.sec) with
      | some e => seAsk { code := 6, cls := 5, victim := (i / 2, i % 2, e.1) } s
      | none => match l.find? fun e => (decide (100000 ≤ e.2.reads) && !e.2.thru) || decide (e.2.scrubbed + rt ≤ s.rtc.sec) with
        | some e =>
          let b := e.1
          seAsk { cls := 5, victim := (i / 2, i % 2, b), after := [.through i b]
                  steps := (List.range e.2.units.length).map fun u => readStep i b u e.2.kind }
            (updBlk i b (fun q => { q with thru := q.thru || decide (100000 ≤ q.reads) }) s)
        | none => s) s

def execScrub (s : State) : Out := .next (scrub s)

/-- SESSION_SWEEP (18 R440): once every 60 s while any record is pending. -/
def sessionSweep (s : State) : State :=
  if rdy s rSE && !s.qr.sessPend.isEmpty && s.qr.sweepAt + 480000 ≤ now s then
    let n := s.qr.sessPend.length
    seAsk { cls := 3, kind := 0x20, units := (n + 15) / 16, data := s.qr.sessPend.map (·.2), after := [.sweep] }
      { s with qr := { s.qr with sweepAt := now s } }
  else s

def execSessionSweep (s : State) : Out := .next (sessionSweep s)

/-- EVREC_SPILL (21 R490): 64 unspilled entries go to the spill zone as one unit. -/
def evSpill (s : State) : State :=
  let from_ := max s.ev.spilled s.ev.spilling
  let es := (s.ev.ring.filter fun e => from_ < e.seq).take 64
  match es.getLast? with
  | some e =>
    if es.length == 64 && rdy s rSE && chipUp s (zoneChip s 0x24) then
      seAsk { cls := 4, kind := 0x24, units := 1, data := es.map evBytes, after := [.spill e.seq] }
        { s with ev := { s.ev with spilling := e.seq } }
    else s
  | none => s

def execEvrecSpill (s : State) : Out := .next (evSpill s)

/-- An event-recorder entry from its bytes (21 Table EV-1). -/
def evOfBytes (b : List Byte) : EvEntry := ⟨fld b 0 8, fld b 8 2, fld b 10 1, fld b 11 1, bytesAt b 12 16⟩

/-- The NAND reads of the units of a zone that hold any of some items. -/
def readsOf (s : State) (kind : Nat) (items : List (List Byte)) : List NStep :=
  (zoneChips s kind).flatMap fun i => if !chipReads s i then [] else
    ((chipOf s i).blks.filter fun e => e.2.kind == kind).flatMap fun e => e.2.units.zipIdx.filterMap fun u =>
      if u.1.live && !u.1.lost && u.1.data.any (fun b => items.contains b) then some (readStep i e.1 u.2 kind) else none
/-- SE reads items for a host in class INTERACTIVE (01 Table AR-5); the content is given at once (log 142). -/
def readItems (kind : Nat) (items : List (List Byte)) (s : State) : State :=
  match readsOf s kind items with
  | [] => s
  | l => seAsk { cls := 2, steps := l } s
/-- The reads behind a response: its items of a size after a header, those that lie in the store only. -/
def readFor (kind hdr size : Nat) (far : List Byte → Bool) (r : Served) : Served :=
  match r.1 with
  | some (_, pl) =>
    let b := pl.drop hdr
    (r.1, readItems kind (((List.range (b.length / size)).map fun k => bytesAt b (size * k) size).filter far) r.2)
  | none => r

/-- EVREC_READ (21 Table EV-6). -/
def execEvrecRead (ch : Nat) (s : State) : Out :=
  .next (serve 0x1101 (len 12) (fun pl s => readFor 0x24 32 32 (fun b => !s.ev.ring.any fun e => evBytes e == b)
    (evReadBody (fun s => rdy s rSE && zoneReads s 0x24) pl s)) ch s)

/-- CAIRN_READ (15 Table SA-6); entries that MRAM no longer holds are read from the mirror. -/
def execCairnRead (ch : Nat) (s : State) : Out :=
  .next (serve 0x0B01 (len 12) (fun pl s => readFor 0x22 16 64 (fun b => !s.cairn.ring.any fun e => e.seq == fld b 0 8)
    (cairnReadBody pl s)) ch s)

/-- Mean erase count of a chip, rounded by the free rounding (18 Table QS-13). -/
def eraseMean (k : Chip) : Nat := (rnd 25 (((k.blks.map fun e => e.2.erases).foldl (· + ·) 0 : Nat) / (max 1 k.blocks : Rat))).toNat

/-- QUARRY_STATUS (18 Table QS-13). -/
def quarryStatusBody (_ : List Byte) (s : State) : Served :=
  if !rdy s rSE then no 0x0EF0 s
  else
    let chip := fun i =>
      let k := chipOf s i
      let st := if k.st == 0 then 0 else if fencedB s 8 (i / 2) then 3 else if k.st == 2 then 2 else if fencedB s 9 i then 3 else k.st
      if st == 0 then zeros 32 else
      [byteOf st] ++ le 3 k.id ++ [byteOf k.clock, 0] ++ le 2 k.blocks ++ le 2 k.badF ++ le 2 k.badR ++
      le 2 (chipReserve s i) ++ le 4 ((k.blks.map fun e => e.2.erases).foldl max 0) ++ le 4 (eraseMean k) ++
      le 4 k.weak ++ le 4 k.unc ++ [0, 0]
    ok 0x0E00 ((List.range 4).flatMap chip ++ le 4 s.qr.gen ++ [byteOf (ledgerState s), 0, 0, 0] ++
      le 2 (s.qr.jseq - s.qr.ckpt) ++ le 2 (openOps s)) s

def execQuarryStatus (ch : Nat) (s : State) : Out := .next (serve 0x0E01 (len 0) quarryStatusBody ch s)

/-- PROFILE_READ (18 Table QS-14). -/
def profileReadBody (pl : List Byte) (s : State) : Served :=
  let from_ := fld pl 0 8
  let n := fld pl 8 2
  if !rdy s rSE then no 0x0EF0 s
  else if !(decide (1 ≤ n ∧ n ≤ 11)) then no 0x0EF1 s
  else if !zoneReads s 0x21 then no 0x0E11 s
  else
    let gone := nth s.qr.aged 0 0
    if gone != 0 && from_ ≤ gone then no 0x0E10 s
    else
      let es := (s.qr.profs.filter fun r => from_ ≤ fld r 0 8).take n
      ok 0x0E00 (le 2 es.length ++ zeros 6 ++ es.flatMap id) (readItems 0x21 es s)

def execProfileRead (ch : Nat) (s : State) : Out := .next (serve 0x0E02 (len 12) profileReadBody ch s)

/-- The order of session records: SESSION_ID, KIND, TICK (18 Table QS-15). -/
def sessBefore (a b : List Byte) : Bool :=
  let k := fun r => fld r 0 4 * 2 ^ 72 + fld r 10 1 * 2 ^ 64 + fld r 16 8
  decide (k a < k b)

/-- SESSION_LOG_READ (18 Table QS-15). -/
def sessionLogBody (pl : List Byte) (s : State) : Served :=
  let from_ := fld pl 0 4
  let n := fld pl 4 2
  if !rdy s rSE then no 0x0EF0 s
  else if !(decide (1 ≤ n ∧ n ≤ 47)) then no 0x0EF1 s
  else if !zoneReads s 0x20 then no 0x0E11 s
  else
    let all := sortBy sessBefore s.qr.sess
    if from_ != 0 && from_ ≤ nth s.qr.aged 1 0 then no 0x0E10 s
    else
      let l := all.filter fun r => from_ ≤ fld r 0 4
      let es := l.take n
      let next := match (l.drop n).head? with
        | some r => fld r 0 4
        | none => 0
      ok 0x0E00 (le 2 es.length ++ [0, 0] ++ le 4 next ++ es.flatMap id) (readItems 0x20 es s)

def execSessionLogRead (ch : Nat) (s : State) : Out := .next (serve 0x0E03 (len 8) sessionLogBody ch s)

/-- A snapshot's CRC is valid (13 Table TD-5). -/
def snapGood (b : List Byte) : Bool := !b.isEmpty && fld b 28 4 == crc32 (b.take 28 ++ b.drop 32)

/-- SE is asked to mirror a snapshot (13 R328). -/
def askBill (b : List Byte) (s : State) : State :=
  seAsk { cls := 3, kind := 0x23, units := 3, data := [b], after := [.bill (fld b 0 4)] } s

/-- A snapshot is in Quarry or on its way there. -/
def billKnown (s : State) (n : Nat) : Bool :=
  spGet [] s.qr.bills n != [] || (s.qr.asks ++ s.qr.ops).any fun o => o.after.contains (.bill n)

/-- The snapshots in MRAM that a full reset kept from Quarry are asked for again (13 R328). -/
def askBills (s : State) : State :=
  s.tar.snaps.foldl (fun s b => if snapGood b && !billKnown s (fld b 0 4) then askBill b s else s) s

/-- The snapshot of a period in MRAM (13 R331). -/
def snapOf (s : State) (n : Nat) : Option (List Byte) :=
  s.tar.snaps.find? fun b => !b.isEmpty && fld b 0 4 == n

/-- BILLING_READ (13 Table TD-12). -/
def billingReadBody (pl : List Byte) (s : State) : Served :=
  let last := periodNo s - 1
  let n := if fld pl 0 4 == 0 then last else fld pl 0 4
  if !rdy s rOR then no 0x09F0 s
  else if n == 0 || last < n then no 0x0914 s
  else match snapOf s n with
    | some b => ok 0x0900 b s
    | none =>
      if !rdy s rSE then no 0x09F0 s
      else match spGet [] s.qr.bills n with
        | [] => no 0x0914 s
        | b => ok 0x0900 b (readItems 0x23 [b] s)

def execBillingRead (ch : Nat) (s : State) : Out := .next (serve 0x0903 (len 8) billingReadBody ch s)

end Sys2Proof.Machine
end

