-- ==== Sys2Proof/Machine/Accounts.lean ====
section
/-!
DEFINITION. Accounts, tokens and sessions (14 R344 to R361, R567).
-/

namespace Sys2Proof.Machine

/-- CREDIT_EVENT (14 R361). -/
def creditEvent (port ev old new acct : Nat) (value : Int) (s : State) : State :=
  notify 0x0A80 ([byteOf port, byteOf ev, byteOf old, byteOf new] ++ le 4 acct ++ le 8 (now s) ++ leI 8 value) s

/-- Fields of a record (14 Table PP-1). -/
def recBal (r : List Byte) : Int := fldI r 16 8
def recStatus (r : List Byte) : Nat := fld r 4 1
def inSession (r : List Byte) : Bool := fld r 59 1 != 0xFF

/-- e of a record: the limit in force where EMERG_ALLOWED is set (14 R344, Table PP-1). -/
def emergOf (s : State) (r : List Byte) : Nat :=
  if !(fld r 6 2).testBit 0 then 0
  else if fld r 24 4 == 0 then fld (creditTab s) 0 4 else fld r 24 4

/-- The A_IMP VALUEs of a port's rates (14 R346). -/
def impVals (s : State) (p : Nat) : List Nat := (List.range 8).map fun t => valOf s (96 * p + 32 + 8 * t)

/-- The floored charge of a price segment under a tariff table (14 R347). -/
def segCharge (b : List Byte) (start vals : List Nat) : Nat :=
  ((List.range 8).map fun t => (nth vals t 0 - nth start t 0) * fld b (32 + 4 * t) 4).foldl (· + ·) 0 / 1000000
def segEnergy (start vals : List Nat) : Nat := ((List.range 8).map fun t => nth vals t 0 - nth start t 0).foldl (· + ·) 0

/-- A session record (14 Table PP-6). -/
def sessRecord (id acct port source kind cause version flags tick : Nat) (bal : Int) (charge seg : Nat) (start : List Nat)
    (energy : Nat) : List Byte :=
  let b := le 4 id ++ le 4 acct ++ [byteOf port, byteOf source, byteOf kind, byteOf cause] ++ le 2 version ++ le 2 flags ++
    le 8 tick ++ leI 8 bal ++ le 8 charge ++ le 8 seg ++ (List.range 8).flatMap (fun t => le 8 (nth start t 0)) ++ le 8 energy
  b ++ le 4 (crc32 b) ++ zeros 4

/-- The record of the session on a port, as it stands. -/
def portRecord (s : State) (p kind flags : Nat) : List Byte :=
  let q := (getPort s p).se
  sessRecord q.id q.account p q.source kind (if kind == 3 then q.cause else 0) q.tariff flags (now s) q.balance0 q.charge q.seg
    q.start q.energy

def updSess (p : Nat) (f : Session → Session) (s : State) : State := updPort p (fun q => { q with se := f q.se }) s

/-- Session records that carry an end (14 Table PP-6). -/
def endsOf (s : State) : List (List Byte) :=
  (s.qr.sess ++ (s.qr.ops ++ s.qr.asks).flatMap fun o => if o.code == 3 then o.data else []).filter fun r => 3 ≤ fld r 10 1

/-- A start record of a session from before the last full reset (14 R354). -/
def startBefore (s : State) (r : List Byte) : Bool :=
  fld r 10 1 == 0 && !s.ports.any fun q => q.se.stage != 0 && q.se.id == fld r 0 4

/-- A session from before the last full reset that has a start record and no end record (14 R354). -/
def unsettled (s : State) : Option (List Byte) :=
  s.qr.sess.find? fun r => startBefore s r && !(endsOf s).any (fun e => fld e 0 4 == fld r 0 4)

/-- A session on a port from before the last full reset waits for its settlement: no end record of it, or its end record
still in an operation (14 R354). -/
def owesSettle (s : State) (p : Nat) : Bool :=
  let open_ := (s.qr.ops ++ s.qr.asks).flatMap fun o => if o.code == 3 then o.data else []
  s.qr.sess.any fun r => startBefore s r && fld r 8 1 == p &&
    (open_.any (fun e => 3 ≤ fld e 10 1 && fld e 0 4 == fld r 0 4) ||
     !s.qr.sess.any fun e => decide (3 ≤ fld e 10 1) && fld e 0 4 == fld r 0 4)

/-- The checks of Table PP-2 from 1 to 4 on a port: the status of the first that fails. -/
def portChecks (s : State) (p : Nat) : Option Nat :=
  if !(rdy s rLedger && rdy s rAP && rdy s p) then some 0x0AF0
  else if !fitted s p then some 0x0A1A
  else if (getPort s p).hs.permit || (getPort s p).se.stage != 0 then some 0x0A14
  else if vetoed s p then some 0x0AF4 else none

/-- The checks 7 to 9 on a record. -/
def acctChecks (s : State) (r : List Byte) : Option Nat :=
  if recStatus r == 2 then some 0x0A11
  else if recStatus r != 1 then some 0x0A10
  else if inSession r then some 0x0A12
  else if fld r 5 1 == 0 && recBal r + (emergOf s r : Int) < (tf s 0x0A01 12 4 : Int) then some 0x0A13 else none

/-- Steps 1 and 2 of R346: the start record, in class JOURNAL, and the account's record under one intent (R353). -/
def askOpen (p acct : Nat) (r : List Byte) (s : State) : State :=
  let q := (getPort s p).se
  let s1 := updSess p (fun k => { k with stage := 1, start := impVals s p }) s
  ledWriteAs 1 2 acct (putF (putF r 59 [byteOf p]) 60 (le 4 q.id)) [portRecord s1 p 0 0] [.reserve p] s1

/-- A session is opened on a port for an account (14 R344, R346): the status of the first failing check, or the
opening. -/
def openSession (p acct source ch : Nat) (s : State) : Option Nat × State :=
  match portChecks s p with
  | some st => (some st, s)
  | none =>
    let f := ledFetch acct s
    match f.1 with
    | none => (some 0x0A1E, f.2)
    | some r =>
      match acctChecks s r with
      | some st => (some st, f.2)
      | none =>
        let id := if s.qr.sessId + 1 == 4294967296 then 1 else s.qr.sessId + 1
        let s1 := sysWrite .ap .sessionId s.qr.sessId id (fun v s => { s with qr := { s.qr with sessId := v } }) f.2
        let s2 := updSess p (fun _ => {
          stage := 1, id := id, account := acct, source := source, kind := fld r 5 1, flags := fld r 6 2
          balance := recBal r, balance0 := recBal r, low := fld r 28 4, emerg := emergOf s r
          tariff := tarVersion s, ch := ch }) s1
        (none, askOpen p acct r s2)

/-- SESSION_START (14 Table PP-17). -/
def sessionStartBody (ch : Nat) (pl : List Byte) (s : State) : Served :=
  let p := fld pl 0 1
  let a := fld pl 4 4
  if 23 < p || 262143 < a then no 0x0AF1 s
  else
    let r := openSession p a 0 ch s
    match r.1 with
    | some st => refuseRead a ch st ((pendRec s a).isSome && (portChecks s p).isNone) r.2
    | none => (none, r.2)

def execSessionStart (ch : Nat) (s : State) : Out := .next (serve 0x0A04 (len 8) (sessionStartBody ch) ch s)

/-- The account's record with the session taken off it (14 R352). -/
def sessionOff (r : List Byte) : List Byte := putF (putF r 59 [0xFF]) 60 (zeros 4)

/-- The account's record after a settlement (14 R352). -/
def settledRec (s : State) (r : List Byte) (charge energy : Nat) : List Byte :=
  let a := putF r 16 (leI 8 (recBal r - charge))
  let b := putF (putF a 80 (le 8 (fld r 80 8 + charge))) 88 (le 8 (fld r 88 8 + energy))
  sessionOff (putF b 96 (le 4 s.rtc.sec))

/-- The settlement of a session: the end record, and the debit while the record names the session (14 R352). -/
def askSettle (acct id charge energy : Nat) (endRec : Nat → List Byte) (after : Nat → List Follow) (s : State) : State :=
  let f := ledFetch acct s
  match f.1 with
  | none => seAsk { code := 3, cls := 3, data := [endRec 1], after := after 1 } f.2
  | some r =>
    if fld r 60 4 == id then ledWrite 3 acct (settledRec s r charge energy) [endRec 0] (after 0) f.2
    else seAsk { code := 3, cls := 3, data := [endRec 0], after := after 0 } f.2

/-- The settlement of the session on a port; CREDIT_EVENT 4 follows its commit. -/
def settlePort (p : Nat) (s : State) : State :=
  let q := (getPort s p).se
  askSettle q.account q.id q.charge q.energy (fun u => portRecord s p 3 u)
    (fun u => [.settled p, .credit p 4 u 0 q.account q.charge]) (updSess p (fun k => { k with stage := 4 }) s)

/-- SESSION_SETTLE (14 R352): the first port whose end commit is reported. -/
def sessionSettle (s : State) : State :=
  match (List.range 24).find? fun p => (getPort s p).se.stage == 3 && (getPort s p).se.ended with
  | some p => if rdy s rLedger && rdy s rAP then settlePort p s else s
  | none => s

def execSessionSettle (s : State) : Out := .next (sessionSettle s)

/-- RESERVATION_ACCEPT (14 R346): Orchard judges the first reservation passed to it in an earlier tick. A permit granted
while SSR is in demand is withdrawn again (12 R296). -/
def reservationAccept (s : State) : State :=
  match (List.range 24).find? fun p => (getPort s p).se.stage == 5 && (getPort s p).se.at_ < now s with
  | some p =>
    let q := (getPort s p).se
    if !orRun s || owesSettle s p then s
    else if q.start == impVals s p then
      let s1 := grantPermit p (updSess p (fun k => { k with stage := 2, at_ := now s, ckpt := now s }) s)
      let s2 := if ssrDemand s then withdrawPermit p 0x0C s1 else s1
      answerLate q.ch 0x0A00 ([byteOf p, 0, 0, 0] ++ le 4 q.id ++ leI 8 q.balance ++ le 4 q.emerg ++ zeros 4) s2
    else if q.tries == 0 then
      match ledView s q.account with
      | some r => askOpen p q.account r (updSess p (fun k => { k with tries := 1 }) s)
      | none => settlePort p (answerLate q.ch 0x0AF3 [] s)
    else settlePort p (answerLate q.ch 0x0AF3 [] s)
  | none => s

def execReservationAccept (s : State) : Out := .next (gated (orRun s) reservationAccept s)

/-- The charge of every session port after a commit, under a tariff table, and its end commit (14 R347, R352). -/
def chargeAll (b : List Byte) (s : State) : State :=
  eachPort (fun p s =>
    let q := getPort s p
    let k := q.se
    if (k.stage == 2 || k.stage == 3) && !k.ended then
      let v := impVals s p
      let done := k.stage == 3 && (decide (q.ct.cmdTick ≤ k.at_) || (!anyOn q && decide (q.ct.cmdTick + 8 * rcTab s p 58 2 ≤ now s)))
      updSess p (fun k => { k with
        charge := k.seg + segCharge b k.start v, energy := k.segE + segEnergy k.start v, ended := done }) s
    else s) s

/-- The price segments of open sessions end at a tariff activation (14 R350); new is the version that follows. -/
def segmentAll (new : Nat) (s : State) : State :=
  eachPort (fun p s =>
    let k := (getPort s p).se
    if (k.stage == 2 || k.stage == 3) && !k.ended then
      let s1 := updSess p (fun k => { k with
        seg := k.charge, segE := k.energy, start := impVals s p, tariff := new }) s
      seAsk { code := 3, cls := 3, data := [portRecord s1 p 2 0] } s1
    else s) s

/-- The credit state of a session (14 R348). -/
def creditOf (s : State) (k : Session) : Nat :=
  let left := k.balance - (k.charge : Int)
  let e : Int := if k.flags.testBit 0 then (k.emerg : Int) else 0
  if k.kind == 1 then 0
  else if k.credit == 4 then 4
  else if 0 < left then (if left ≤ (k.low : Int) then 1 else 0)
  else if -e < left then 2
  else if k.flags.testBit 1 && s.tar.friendly && decide (-(e + (fld (creditTab s) 4 4 : Int)) < left) then 3
  else 4

/-- The credit states of one tick (14 R348, Table PP-4). -/
def creditTick (s : State) : State :=
  eachPort (fun p s =>
    let k := (getPort s p).se
    let c := creditOf s k
    if k.stage != 2 || c == k.credit then s
    else
      let left := k.balance - (k.charge : Int)
      let s1 := updSess p (fun k => { k with credit := c }) s
      let s2 := if c == 4 then updPort p (fun q => { q with ss := { q.ss with pend := q.ss.pend ++ [3] } }) s1 else s1
      evrec 0x0A01 2 p ([byteOf k.credit, byteOf c, 0, 0] ++ le 4 k.account ++ leI 8 left)
        (creditEvent p 2 k.credit c k.account left s2)) s

/-- The port whose session of an account opens or is open (14 R346, R357). -/
def sessPort (s : State) (a : Nat) : Option Nat :=
  (List.range 24).find? fun p => [1, 2, 5].contains (getPort s p).se.stage && (getPort s p).se.account == a

/-- The reservation follows a record changed by a token, from the next tick (14 R357). -/
def reservationUpdate (a : Nat) (s : State) : State :=
  match sessPort s a, ledView s a with
  | some p, some r => updSess p (fun k => { k with balance := recBal r, emerg := emergOf s r }) s
  | _, _ => s

/-- A BLOCK token ends the account's session (14 R357); one that is still opening closes with charge 0 (log 153). -/
def blockSession (a : Nat) (s : State) : State :=
  match sessPort s a with
  | some p =>
    let k := (getPort s p).se
    if k.stage != 2 then settlePort p (answerLate k.ch 0x0A11 [] (updSess p (fun k => { k with cause := 2 }) s))
    else if portOn s p then updPort p (fun q => { q with ss := { q.ss with pend := q.ss.pend ++ [2] } }) s
    else withdrawPermit p 0x02 (endSequence p s)
  | none => s

/-- SESSION_END (14 Table PP-18). -/
def sessionEndBody (pl : List Byte) (s : State) : Served :=
  let p := fld pl 0 1
  if !rdy s rAP || !rdy s rKS then no 0x0AF0 s
  else if !(decide (p ≤ 23)) then no 0x0AF1 s
  else if !fitted s p then no 0x0A1A s
  else if (getPort s p).se.stage != 2 then no 0x0A15 s
  else
    let on := portOn s p
    let s1 := if on then updPort p (fun q => { q with ss := { q.ss with pend := q.ss.pend ++ [2] } }) s
      else withdrawPermit p 0 (endSequence p s)
    ok 0x0A00 ([byteOf p, byteOf (b2n on), 0, 0] ++ le 4 (getPort s p).se.id) s1

def execSessionEnd (ch : Nat) (s : State) : Out := .next (serve 0x0A05 (len 4) sessionEndBody ch s)

/-- One entry of SESSION_STATUS (14 Table PP-19). -/
def sessEntry (s : State) (p : Nat) : List Byte :=
  let k := (getPort s p).se
  [byteOf p, byteOf k.credit, byteOf k.source, 0] ++ le 4 k.id ++ le 4 k.account ++ zeros 4 ++ leI 8 k.balance ++
  le 8 k.charge ++ le 8 k.energy

/-- SESSION_STATUS (14 Table PP-19). -/
def sessionStatusBody (pl : List Byte) (s : State) : Served :=
  let p := fld pl 0 1
  let has := fun p => (getPort s p).se.stage == 2
  if !rdy s rAP then no 0x0AF0 s
  else if !((decide (p ≤ 23) || p == 0xFF)) then no 0x0AF1 s
  else if p != 0xFF && !has p then no 0x0A15 s
  else
    let l := if p == 0xFF then (List.range 24).filter has else [p]
    ok 0x0A00 ([byteOf l.length, 0, 0, 0] ++ l.flatMap (sessEntry s)) s

def execSessionStatus (ch : Nat) (s : State) : Out := .next (serve 0x0A06 (len 4) sessionStatusBody ch s)

/-- SESSION_CHECKPOINT (14 R353): a checkpoint record every 60 s of an open session. -/
def sessionCheckpoint (s : State) : State :=
  eachPort (fun p s =>
    let k := (getPort s p).se
    if k.stage == 2 && k.ckpt + 480000 ≤ now s then
      let s1 := updSess p (fun k => { k with ckpt := now s }) s
      { s1 with qr := { s1.qr with sessPend := s1.qr.sessPend ++ [(false, portRecord s p 1 0)] } }
    else s) s

def execSessionCheckpoint (s : State) : Out := .next (sessionCheckpoint s)

/-- The billing snapshots held, in MRAM and in the mirror. -/
def snapsHeld (s : State) : List (List Byte) := s.qr.bills.map (·.2) ++ s.tar.snaps.filter fun b => !b.isEmpty

/-- Charge and energy of a session found after a full reset (14 R354). -/
def restoredCharge (s : State) (id port : Nat) : Nat × Nat :=
  let rs := s.qr.sess.filter fun r => fld r 0 4 == id
  match (rs.filter fun r => fld r 10 1 == 0 || fld r 10 1 == 2).getLast? with
  | none => (0, 0)
  | some r =>
    let start := (List.range 8).map fun t => fld r (48 + 8 * t) 8
    let v := impVals s port
    let ver := fld r 12 2
    let e := fld r 112 8 + segEnergy start v
    if ver == tarVersion s then (fld r 40 8 + segCharge (tarTab s) start v, e)
    else
      let ends := fun (b : List Byte) => (List.range 8).map fun t => fld b (96 + 208 * port + 8 * t) 8
      match (snapsHeld s).find? fun b => fld b 6 2 == ver && (fld b 4 1).testBit 3 &&
          (List.range 8).all (fun t => decide (nth start t 0 ≤ nth (ends b) t 0)) with
      | some b =>
        let old := if s.tar.oldTab.1 == ver then s.tar.oldTab.2 else tarTab s
        (fld r 40 8 + segCharge old start (ends b) + segCharge (tarTab s) (ends b) v, e)
      | none => (fld r 40 8 + segCharge (tarTab s) start v, e)

/-- RESTORE_SETTLEMENT (14 R354). -/
def restoreSettlement (s : State) : State :=
  match unsettled s with
  | some r =>
    if rdy s rLedger && rdy s rOR && rdy s rAP then
      let id := fld r 0 4
      let a := fld r 4 4
      let p := fld r 8 1
      let c := restoredCharge s id p
      let last := ((s.qr.sess.filter fun q => fld q 0 4 == id && (fld q 10 1 == 0 || fld q 10 1 == 2)).getLast?).getD r
      let start := (List.range 8).map fun t => fld last (48 + 8 * t) 8
      askSettle a id c.1 c.2
        (fun u => sessRecord id a p (fld r 9 1) 4 0xFF (fld last 12 2) u s.eg.restTick (fldI r 24 8) c.1 (fld last 40 8) start c.2)
        (fun u => [.credit p 4 u 0 a c.1]) s
    else s
  | none => s

def execRestoreSettlement (s : State) : Out := .next (restoreSettlement s)

/-- ACCOUNT_READ (14 Table PP-14); while a write to the record is pending, its content once it has committed (01 R33). -/
def accountReadBody (ch : Nat) (pl : List Byte) (s : State) : Served :=
  let a := fld pl 0 4
  if !rdy s rLedger then no 0x0AF0 s
  else if 262143 < a then no 0x0AF1 s
  else match pendRec s a with
    | some r => (none, afterWrite a (.answer ch 0x0A00 ([0, 0, 0, 0] ++ r)) s)
    | none =>
      let f := ledFetch a s
      match ledRead s a with
      | some (c, o, r) => ok 0x0A00 ([byteOf c, byteOf o, 0, 0] ++ r) f.2
      | none => no 0x0A1E f.2

def execAccountRead (ch : Nat) (s : State) : Out := .next (serve 0x0A01 (len 4) (accountReadBody ch) ch s)

/-- Check 1 of R567. -/
def acctForm (pl : List Byte) : Bool :=
  let a := fld pl 0 4
  let u := fld pl 20 1
  a ≤ 262143 && fld pl 4 1 ≤ 3 && fld pl 5 1 ≤ 1 && fld pl 6 2 < 8 && [0, 4, 7, 10].contains u && fld pl 21 1 == 0 &&
  (u == 0 || a ≤ 65535) && allZero pl (22 + u) (10 - u)

/-- The record that ACCOUNT_SET asks for (14 Table PP-15); r is the present one, none under LEDGER_FAULT. -/
def acctRec (s : State) (pl : List Byte) (r : Option (List Byte)) : List Byte :=
  let a := fld pl 0 4
  let top := max (fld (rawRec s 0 a) 8 8) (fld (rawRec s 1 a) 8 8)
  let base := match r with
    | some r => r
    | none => putF (putF (freeRec a) 8 (le 8 top)) 32 (bytesAt pl 16 4)
  if fld pl 4 1 == 0 then putF (putF (putF (freeRec a) 8 (bytesAt base 8 8)) 32 (bytesAt base 32 4)) 40 (bytesAt base 40 8)
  else
    let b := putF (putF (putF base 4 (bytesAt pl 4 4)) 24 (bytesAt pl 8 8)) 48 (bytesAt pl 22 10)
    putF (putF b 58 (bytesAt pl 20 1)) 100 (bytesAt pl 32 8)

/-- UID_IN_USE: answered once the writes that it rests on have committed (14 R567, 01 R33). -/
def refuseUid (holder : Option Nat) (a ch : Nat) (pending : Bool) (s : State) : Served :=
  match holder with
  | some b => if (pendRec s b).isSome then (none, afterWrite b (.answer ch 0x0A1D []) s) else refuseRead a ch 0x0A1D pending s
  | none => no 0x0A1D s

/-- ACCOUNT_SET (14 Table PP-15, R567). -/
def accountSetBody (ch : Nat) (pl : List Byte) (s : State) : Served :=
  let a := fld pl 0 4
  if !rdy s rLedger || !rdy s rAP then no 0x0AF0 s
  else if !acctForm pl then no 0x0AF1 s
  else if !macOk s 3 (s.otp.devId ++ le 2 0x0A02 ++ pl.take 48) (bytesAt pl 48 16) then no 0x0AF5 (checked s)
  else if fld pl 40 8 ≤ s.qr.acctCtr then no 0x0A1F (checked s)
  else
    let put := fun (v : Nat) (s : State) => { s with qr := { s.qr with acctCtr := v } }
    let f := ledFetch a (sysWrite .ap .accountCounter s.qr.acctCtr (fld pl 40 8) put (checked s))
    let uid := bytesAt pl 22 (fld pl 20 1)
    let busy := f.1.any fun r => inSession r && (recStatus r != fld pl 4 1 || fld r 5 1 != fld pl 5 1)
    let held := f.1.any fun r => fld pl 4 1 == 0 && (recBal r != 0 || fld r 64 8 != 0)
    let pending := (pendRec s a).isSome
    if busy then refuseRead a ch 0x0A12 pending f.2
    else if held then refuseRead a ch 0x0A20 pending f.2
    else if !uid.isEmpty && (uidHolder f.2 uid).any (· != a) then refuseUid (uidHolder f.2 uid) a ch pending f.2
    else
      let r := acctRec s pl f.1
      (none, ledWrite 1 a r [] [.answer ch 0x0A00 (le 4 a ++ zeros 4 ++ le 8 ((fld r 8 8 + 1) % 2 ^ 64))] f.2)
where
  /-- The engine has checked the MAC (01 Table AR-6). -/
  checked (s : State) : State := macJobs 3 3 (s.otp.devId ++ le 2 0x0A02 ++ pl.take 48) (bytesAt pl 48 16) s

def execAccountSet (ch : Nat) (s : State) : Out := .next (serve 0x0A02 (len 64) (accountSetBody ch) ch s)

/-- Check 1 of Table PP-8. -/
def tokenForm (t : List Byte) : Bool :=
  let k := fld t 1 1
  let m := fldI t 12 8
  fld t 0 1 == 1 && fld t 2 2 == 0 && fld t 4 4 ≤ 262143 &&
  (if k == 1 then decide (1 ≤ m ∧ m ≤ 1000000000000)
   else if k == 2 then m != 0 && decide (-1000000000000 ≤ m ∧ m ≤ 1000000000000)
   else if k == 3 then decide (0 ≤ m ∧ m ≤ 100000000)
   else (k == 4 || k == 5) && m == 0)

/-- The serial rule of R356: TOKEN_HIGH and TOKEN_MAP after, or the status of the refusal. -/
def serialRule (high map s : Nat) : Nat ⊕ (Nat × Nat) :=
  if high < s then
    let sh := s - high
    .inr (s, if 64 < sh then 0 else if sh == 64 then 2 ^ 63 else (map * 2 ^ sh % 2 ^ 64) ||| 2 ^ (sh - 1))
  else if s == high then .inl 0x0A16
  else if s + 64 < high then .inl 0x0A17
  else
    let k := high - 1 - s
    if map.testBit k then .inl 0x0A16 else .inr (high, map ||| 2 ^ k)

/-- The checks of Table PP-8 on a token: a status, or the new record; the state after the read of the record. -/
def tokenCheck (t : List Byte) (s : State) : (Nat ⊕ List Byte) × State :=
  if !tokenForm t then (.inl 0x0A19, s)
  else
    let f := ledFetch (fld t 4 4) s
    match f.1 with
    | none => (.inl 0x0A1E, f.2)
    | some r =>
      let k := fld t 1 1
      let s1 := macJobs 3 2 (s.otp.devId ++ t.take 24) (bytesAt t 24 8) f.2
      if recStatus r != 1 && recStatus r != 2 then (.inl 0x0A10, f.2)
      else if !macOk s 2 (s.otp.devId ++ t.take 24) (bytesAt t 24 8) then (.inl 0x0AF5, s1)
      else if fld t 20 4 != 0 && !(s.rtc.valid && decide (s.rtc.sec < 60 * fld t 20 4)) then (.inl 0x0A18, s1)
      else match serialRule (fld r 32 4) (fld r 40 8) (fld t 8 4) with
        | .inl st => (.inl st, s1)
        | .inr (high, map) =>
          let bal := if k ≤ 2 then recBal r + fldI t 12 8 else recBal r
          if bal < -(2 ^ 62) || 2 ^ 62 < bal then (.inl 0x0AF1, s1)
          else
            let a := putF (putF (putF r 32 (le 4 high)) 40 (le 8 map)) 16 (leI 8 bal)
            let b := if k == 3 then putF a 24 (bytesAt t 12 4) else a
            (.inr (if k == 4 then putF b 4 [2] else if k == 5 then putF b 4 [1] else b), s1)

/-- The check of a token reads a record whose write is pending (01 R33). -/
def readsPending (t : List Byte) (s : State) : Bool := tokenForm t && (pendRec s (fld t 4 4)).isSome

/-- A token, by whichever route it came (14 R355, R357): the status, and the state with its write asked for. -/
def applyToken (t : List Byte) (after : List Byte → List Follow) (s : State) : Nat × State :=
  let c := tokenCheck t s
  match c.1 with
  | .inl st => (st, c.2)
  | .inr r =>
    let a := fld t 4 4
    let k := fld t 1 1
    let port := fld r 59 1
    (0x0A00, ledWrite 4 a r [] ([Follow.credit port 3 0 k a (recBal r)] ++ (if k == 4 then [.block a] else []) ++ after r) c.2)

/-- TOKEN_APPLY (14 Table PP-16). -/
def tokenApplyBody (ch : Nat) (t : List Byte) (s : State) : Served :=
  if !rdy s rLedger || !rdy s rAP then no 0x0AF0 s
  else
    let r := applyToken t (fun r => [.answer ch 0x0A00
      (bytesAt t 4 4 ++ bytesAt t 8 4 ++ leI 8 (recBal r) ++ [byteOf (recStatus r), 0, 0, 0])]) s
    if r.1 == 0x0A00 then (none, r.2) else refuseRead (fld t 4 4) ch r.1 (readsPending t s) r.2

def execTokenApply (ch : Nat) (s : State) : Out := .next (serve 0x0A03 (len 32) (tokenApplyBody ch) ch s)

/-- Tables 0x4A01 and 0x0A01 (14 Tables PP-3, PP-5). -/
def check4A01 (b : List Byte) : Option Nat :=
  if decide (fld b 0 4 ≤ 100000000 ∧ fld b 4 4 ≤ 100000000) && (List.range 4).all (fun w =>
       decide (fld b (8 + 6 * w) 1 < 128) && allZero b (9 + 6 * w) 1 &&
       decide (fld b (10 + 6 * w) 2 ≤ 1439 ∧ fld b (12 + 6 * w) 2 ≤ 1439) &&
       (fld b (8 + 6 * w) 1 == 0 || fld b (10 + 6 * w) 2 != fld b (12 + 6 * w) 2)) &&
     decide (fld b 32 1 ≤ 1) && allZero b 33 7 then none else some 0x0A1B
def check0A01 (b : List Byte) : Option Nat :=
  if decide (fld b 0 1 ≤ 1 ∧ fld b 1 1 ≤ 1) && allZero b 2 2 && allZero b 7 1 && allZero b 11 1 &&
     decide (fld b 12 4 ≤ 10000000) then none else some 0x0A1B

end Sys2Proof.Machine
end

