-- ==== Sys2Proof/Machine/Link.lean ====
section
/-!
DEFINITION. The host link: frames, registers, doorbells, waiting accesses, notifications (04), and the registers of
the boot window (03 R83, R84).
-/

namespace Sys2Proof.Machine

/-- HL_STATUS as read (04 Table HL-8): an access waits, or a staged write waits for the bus domain. -/
def hlStatusWord (s : State) : BitVec 32 :=
  bvSet s.link.hlStatus 0 (!s.link.waits.isEmpty || (s.link.staged.isSome && !s.clk.busRun))

/-- HIRQ_N low (04 R112). -/
def hirqLow (s : State) : Bool := s.link.irq &&& s.link.irqEn != 0

/-- HRDY high (04 R110). -/
def hrdy (s : State) : Bool :=
  hcRun s && s.link.staged.isNone && !s.link.waits.any fun a => a.bus

/-- MBX_STATE (04 Table HL-12). -/
def chCode : ChSt → Nat
  | .idle => 0 | .pending => 1 | .inService => 2 | .respReady => 3 | .notifyOnly => 4 | .fenced => 5
def mbxState (s : State) : Nat := (s.link.chans.map fun c => chCode c.st).foldr (fun v a => v + 8 * a) 0

def phaseCode : Phase → Nat
  | .reset => 0 | .selftest => 1 | .windowOpen => 2 | .running => 3 | .halted => 4
def imgCode : ImgSt → Nat
  | .empty => 0 | .loading => 1 | .verifying => 2 | .active => 3 | .failed => 4

/-- BOOT_STATE (03 Table PU-15). -/
def bootState (s : State) : Nat :=
  let st := fun i => imgCode (nth s.boot.imgs i {}).st
  phaseCode s.boot.phase + 8 * b2n s.boot.bootsel + 16 * st 0 + 128 * st 1 + 1024 * st 2 + 8192 * st 3 + 65536 * st 4 +
  524288 * b2n s.boot.sealOpen + 16777216 * s.boot.cause

/-- BW_STATUS (03 Table PU-8). -/
def bwStatus (b : Boot) : Nat :=
  bitsOf [b.free0, b.free1, b.hold, !b.queue.isEmpty] + 4096 * b.lastImage + 65536 * b.lastStatus

/-- A 32-bit register of the identification and status block, as read (04 Table HL-5). -/
def idRead (s : State) (a : Nat) : Nat :=
  match a with
  | 0x00 => 0x2484015D
  | 0x04 => 0x000045C1
  | 0x08 => bootState s
  | 0x0C => (hlStatusWord s).toNat
  | 0x10 => s.boot.ready.toNat % 2 ^ 32
  | 0x14 => s.boot.ready.toNat / 2 ^ 32
  | 0x18 => clkStatus s.clk
  | 0x1C => s.link.irq.toNat
  | 0x20 => s.link.irqEn.toNat
  | 0x28 => mbxState s
  | 0x2C => 65536 * s.link.refused + s.link.crcErrs
  | 0x30 => rtcWord s % 2 ^ 32
  | 0x34 => rtcWord s / 2 ^ 32
  | _ => if 0x40 ≤ a ∧ a < 0x60 then s.fences.map.toNat / 2 ^ (8 * (a - 0x40)) % 2 ^ 32 else 0

/-- A word of the boot window, as read (03 R83, Tables PU-5 to PU-8). -/
def bwRead (s : State) (a : Nat) : Nat :=
  let open_ := s.boot.phase == .selftest || s.boot.phase == .windowOpen
  match a with
  | 0x1004 => if open_ || s.boot.phase == .halted then bwStatus s.boot else 0
  | 0x1010 => if open_ || s.boot.phase == .halted then Config.plinthVer.toNat else 0
  | 0x1008 => if open_ then s.boot.chunk.toNat else 0
  | 0x100C => if open_ then s.boot.seq.toNat else 0
  | _ => if open_ && decide (0x1800 ≤ a ∧ a < 0x2000) then rdLE (memReadBytes s.link.mem a 4) else 0

/-- A word of the host's address space, as read (04 R105, R111, R113): the buffers of channels 6 and 7 read 0. -/
def hostWord (s : State) (a : Nat) : Nat :=
  if a < 0x1000 then idRead s a
  else if a < 0x2000 then bwRead s a
  else if 0x10000 ≤ a ∧ a < 0x1C000 then rdLE (memReadBytes s.link.mem a 4)
  else 0

/-- The bytes of a read frame, all from one state (04 R109). -/
def hostBytes (s : State) (a : Nat) : Nat → List Byte
  | 0 => []
  | k + 1 => le 4 (hostWord s a) ++ hostBytes s (a + 4) k

/-- The state that a channel takes when it becomes free: the notification channel is NOTIFY_ONLY (04 R120). -/
def idleChan (c : Nat) (s : State) : State :=
  setChan c (if s.link.noteCh == c then .notifyOnly else .idle) s

/-- DOORBELL (04 R115): an IDLE channel becomes PENDING, any other doorbell is ignored. -/
def doorbell (c : Nat) (s : State) : State :=
  if 6 ≤ c || !hcRun s then s
  else if (chan s c).st == .idle then
    { s with link := { s.link with
        chans := s.link.chans.modify c fun k => { k with st := .pending, since := now s } } }
  else hlErr 11 s

def execDoorbell (c : Nat) (s : State) : Out := .next (doorbell c s)

/-- The route whose response channel c carried takes effect (04 Table HL-24). What an earlier route left in the queue
stays there and goes out by the route in force (DESIGN CHOICE, log 13). -/
def takeRoute (c : Nat) (s : State) : State :=
  match s.link.routes.find? fun r => r.1 == c with
  | some (_, new, mask) =>
    let old := s.link.noteCh
    let s1 := { s with link := { s.link with
      noteCh := new, noteMask := mask, routes := s.link.routes.filter fun r => r.1 != c } }
    let s2 := if old != new && (chan s1 old).st == .notifyOnly then setChan old .idle s1 else s1
    if (chan s2 new).st == .idle then setChan new .notifyOnly s2 else s2
  | none => s

/-- RESPONSE_RELEASE (04 R115): MBX_RESP bit c clears and the buffer is free. -/
def responseRelease (c : Nat) (s : State) : State :=
  if c < 6 && hcRun s && s.link.irq.getLsbD c then
    let s1 := { s with link := { s.link with irq := bvSet s.link.irq c false } }
    let s2 := if (chan s1 c).st == .respReady then idleChan c s1 else s1
    takeRoute c s2
  else s

def execResponseRelease (c : Nat) (s : State) : Out := .next (responseRelease c s)

/-- The boot window may be written (03 R83). -/
def windowWritable (s : State) : Bool := s.boot.phase == .selftest || s.boot.phase == .windowOpen

/-- A write reaches the boot window now: the host-link core and the bus domain run (02 Table TK-6). -/
def windowReach (s : State) : Bool := windowWritable s && hcRun s && s.clk.busRun

/-- W1C bits of a register. -/
def w1c (v : BitVec 32) (mask : BitVec 32) (w : Nat) : BitVec 32 := v &&& ~~~(BitVec.ofNat 32 w &&& mask)

/-- REGISTER_WRITE (04 R111): the registers that have no command of their own; other addresses take no effect,
and in reset nothing does. -/
def registerWrite (addr value : Nat) (s : State) : State :=
  if !hcRun s then s
  else match addr with
  | 0x0C => { s with link := { s.link with hlStatus := w1c s.link.hlStatus 0x8F00 value } }
  | 0x18 => { s with clk := { s.clk with
      rtcStopSeen := s.clk.rtcStopSeen && !value.testBit 16
      relockSeen := s.clk.relockSeen && !value.testBit 17
      mortarOvr := s.clk.mortarOvr && !value.testBit 18 } }
  | 0x1C => { s with link := { s.link with irq := w1c s.link.irq 0x1F00 value } }
  | 0x20 => { s with link := { s.link with irqEn := BitVec.ofNat 32 value &&& 0x1F3F } }
  | 0x2C => { s with link := { s.link with
      refused := if value / 65536 % 65536 == 0 then 0 else s.link.refused
      crcErrs := if value % 65536 == 0 then 0 else s.link.crcErrs } }
  | 0x1008 => if windowReach s then { s with boot := { s.boot with chunk := BitVec.ofNat 32 value &&& 0x3FFFF } } else s
  | 0x100C => if windowReach s then { s with boot := { s.boot with seq := BitVec.ofNat 32 value } } else s
  | _ => s

def execRegisterWrite (addr value : Nat) (s : State) : Out := .next (registerWrite addr value s)

/-- Fields of BW_CHUNK (03 Table PU-7). -/
def chunkOf (b : Boot) : Chunk :=
  let v := b.chunk.toNat
  ⟨bitsAt v 15 3, bitsAt v 12 3, v.testBit 11, v % 2048, b.seq.toNat⟩

def updImg (code : Nat) (f : Image → Image) (s : State) : State :=
  if 1 ≤ code then { s with boot := { s.boot with imgs := s.boot.imgs.modify (code - 1) f } } else s

/-- Chunks of an image that wait in the queue may still change it before the end chunk behind them is due: an end chunk
makes its image VERIFYING when it comes to the front (03 R85, R93). -/
def markVerifying (s : State) : State :=
  match s.boot.queue with
  | [] => s
  | k :: _ =>
    if k.kind == 4 then updImg k.image (fun i => if i.st == .loading && k.seq == i.seq then { i with st := .verifying } else i) s
    else s

/-- BW_SUBMIT (03 R84): GO. During a supply loss it is HELD also where its buffer is busy (DESIGN CHOICE, log 149: the spec
gives no order of the two). A chunk submitted while PHASE is SELFTEST is queued and waits until the window opens (DESIGN
CHOICE, log 125). -/
def bwSubmit (s : State) : State :=
  let b := s.boot
  let k := chunkOf b
  if !windowReach s then s
  else if b.hold then { s with boot := { b with lastStatus := 0x0210 } }
  else if !(if k.buf then b.free1 else b.free0) then { s with boot := { b with lastStatus := 0x0212 } }
  else
    markVerifying { s with boot := { b with
      queue := b.queue ++ [k]
      free0 := b.free0 && k.buf, free1 := b.free1 && !k.buf } }

def execBwSubmit (s : State) : Out := .next (bwSubmit s)

/-- BW_RELEASE (03 R82). A RELEASE written before the tests end is remembered and skips the wait (DESIGN CHOICE, log 126). -/
def bwRelease (s : State) : State :=
  if s.boot.phase == .selftest && windowReach s then
    { s with boot := { s.boot with
      released := true, waiting := false, phase := if s.boot.waiting then .windowOpen else .selftest } }
  else s

def execBwRelease (s : State) : Out := .next (bwRelease s)

/-- BW_ABORT_IMAGE (03 R93, Table PU-6): the image becomes EMPTY, and an OR image that waits for its Cairn entry waits no
longer. In a reopened window an image that runs is not discarded (R79, log 38). Chunks of the image that are still queued
are processed in their turn (DESIGN CHOICE, log 127). -/
def bwAbort (s : State) : State :=
  let c := (chunkOf s.boot).image
  if windowReach s then
    let s1 := updImg c (fun i => if i.st == .active && s.boot.reopened then i else {}) s
    if c == 3 then { s1 with boot := { s1.boot with orWait := none } } else s1
  else s

def execBwAbortImage (s : State) : Out := .next (bwAbort s)

/-- A write of BW_CTRL: RELEASE, ABORT_IMAGE, GO (03 Table PU-6). -/
def bwCtrl (v : Nat) (s : State) : State :=
  let s1 := if v.testBit 2 then bwRelease s else s
  let s2 := if v.testBit 1 then bwAbort s1 else s1
  if v.testBit 0 then bwSubmit s2 else s2

/-- One word of the identification and status block, written at the ACK. -/
def idWrite (addr value : Nat) (s : State) : State :=
  match addr with
  | 0x24 => foldN 6 (fun c s => if value.testBit c then doorbell c s else s) s
  | 0x1C => foldN 6 (fun c s => if value.testBit c then responseRelease c s else s) (registerWrite addr value s)
  | _ => registerWrite addr value s

/-- One word of the boot window. -/
def bwWrite (addr value : Nat) (s : State) : State :=
  if !windowWritable s then s
  else if addr == 0x1000 then bwCtrl value s
  else if addr == 0x1008 || addr == 0x100C then registerWrite addr value s
  else if 0x1800 ≤ addr ∧ addr < 0x2000 then
    { s with link := { s.link with mem := memWriteBytes s.link.mem addr (le 4 value) } }
  else s

/-- The words of a write, in ascending address order, each written by f. -/
def eachWord (f : Nat → Nat → State → State) (addr : Nat) : Nat → List Byte → State → State
  | 0, _, s => s
  | k + 1, bs, s => eachWord f (addr + 4) k (bs.drop 4) (f addr (rdLE (bs.take 4)) s)

/-- A write frame's data reach their addresses in the bus domain. -/
def busCommit (addr : Nat) (data : List Byte) (s : State) : State :=
  if addr < 0x10000 then eachWord bwWrite addr (data.length / 4) data s
  else fwWrite .host .hostReq addr
    (fun s => { s with link := { s.link with mem := memWriteBytes s.link.mem addr data } }) s

/-- Regions of R105: 1 the identification block, 2 the boot window, 3 a request buffer, 4 a response buffer, 0 none. -/
def regionOf (a : Nat) : Nat :=
  if a < 0x1000 then 1 else if a < 0x2000 then 2
  else if 0x10000 ≤ a ∧ a < 0x20000 then (if (a - 0x10000) % 0x2000 < 0x800 then 3 else 4) else 0
/-- A frame lies wholly within one region. -/
def oneRegion (a len : Nat) : Bool :=
  regionOf a != 0 && regionOf a == regionOf (a + len - 1) &&
  (regionOf a < 3 || a / 0x2000 == (a + len - 1) / 0x2000)

/-- Frame length and alignment (04 Table HL-3). -/
def frameOk (addr len top : Nat) : Bool :=
  addr % 4 == 0 && len % 4 == 0 && decide (4 ≤ len ∧ len ≤ top) && oneRegion addr len

/-- The target of a write frame takes writes now (04 R113, R115, Table HL-19). -/
def writable (s : State) (addr : Nat) : Bool :=
  match regionOf addr with
  | 1 => true
  | 2 => windowWritable s
  | 3 => let c := (addr - 0x10000) / 0x2000
         c < 6 && (chan s c).st == .idle
  | _ => false

/-- A refused write: ACK 0x33 (04 R105, Table HL-19). -/
def refuseWrite (s : State) : State :=
  hlErr 10 { s with link := { s.link with ack := 0x33, refused := sat16 s.link.refused } }

/-- The area of bank 11 that an address of a mailbox buffer lies in (01 R20, 04 R113). -/
def mbxArea (addr : Nat) : Area :=
  if regionOf addr == 4 then .resp else if (addr - 0x10000) / 0x2000 < 6 then .hostReq else .maintReq

/-- A write into a buffer that takes none: refused, and counted by the firewall where the host link is none of the area's
writers (01 R20, 04 R113). -/
def refuseAt (addr : Nat) (s : State) : State :=
  if regionOf addr < 3 then refuseWrite s else fwWrite .host (mbxArea addr) addr id (refuseWrite s)

/-- The frame covers a part of RTC_TIME (04 R109). -/
def rtcFrame (addr len : Nat) : Bool := decide (addr < 0x38 ∧ 0x30 < addr + len)

/-- A read frame's fields 5r to 7r: RSTAT, DATA and CRC (04 R103, R108, R109). -/
def readReply (addr len : Nat) (s : State) : State :=
  let d := hostBytes s addr (len / 4)
  let t := { s with link := { s.link with
    rstat := 0xA5, rdata := d, rcrc := crc16 ([byteOf 0x3C] ++ be 3 addr ++ be 2 len ++ d) } }
  if regionOf addr == 1 && rtcFrame addr len then { t with link := { t.link with rtcReply := le 8 (rtcWord s) } } else t

/-- A read frame as received (04 R103, R108, R109): answered at once, or with wait bytes while its domain is stopped or an
earlier access into it waits. -/
def hostRead (addr len : Nat) (s : State) : State :=
  let wait := fun (bus : Bool) (s : State) => { s with link := { s.link with
    rstat := 0xF0, waits := s.link.waits ++ [⟨bus, none, (addr, len), false⟩] } }
  if regionOf addr == 1 then
    if rtcFrame addr len && (!s.clk.rtcOsc || s.link.waits.any fun a => !a.bus) then wait false s else readReply addr len s
  else if !s.clk.busRun || s.link.staged.isSome || s.link.waits.any (fun a => a.bus) then wait true s
  else readReply addr len s

/-- HOST_WRITE_FRAME (04 R103 to R108): one frame as received, a write or a read. -/
def hostWriteFrame (cmd addr len : Nat) (data : List Byte) (crc : Nat) (s : State) : State :=
  let quiet := { s with link := { s.link with ack := 0xFF, rstat := 0xFF } }
  if !hcRun s then quiet
  else if cmd == 0x3C then (if frameOk addr len 6144 then hostRead addr len quiet else hlErr 8 quiet)
  else if cmd != 0xC3 then hlErr 8 quiet
  else if data.length != len || crc16 ([byteOf cmd] ++ be 3 addr ++ be 2 len ++ data) != crc then
    hlErr 9 { s with link := { s.link with ack := 0x5A, crcErrs := sat16 s.link.crcErrs } }
  else if !frameOk addr len 1024 then hlErr 8 (refuseWrite s)
  else if regionOf addr == 1 then
    eachWord idWrite addr (len / 4) data { s with link := { s.link with ack := 0xA5 } }
  else if !writable s addr then refuseAt addr s
  else if !s.clk.busRun || s.link.staged.isSome || s.link.waits.any (fun a => a.bus) then
    { s with link := { s.link with ack := 0xF0, waits := s.link.waits ++ [⟨true, some (addr, data), (0, 0), false⟩] } }
  else { s with link := { s.link with ack := 0xA5, staged := some (addr, data) } }

def execHostWriteFrame (cmd addr len : Nat) (data : List Byte) (crc : Nat) (s : State) : Out :=
  .next (hostWriteFrame cmd addr len data crc s)

/-- STAGED_WRITE_COMMIT (04 R106). -/
def stagedCommit (s : State) : State :=
  match s.link.staged with
  | some (a, d) => if s.clk.busRun && hcRun s then busCommit a d { s with link := { s.link with staged := none } } else s
  | none => s

def execStagedWriteCommit (s : State) : Out := .next (stagedCommit s)

/-- RTC_TIME_READ (04 R108, R109): a read frame of RTC_TIME makes one request over MC13, answered at once or waiting. -/
def rtcTimeRead (s : State) : State := if hcRun s then hostRead 0x30 8 s else s

def execRtcTimeRead (s : State) : Out := .next (rtcTimeRead s)

/-- The last access of a domain that waits and is not abandoned is marked. -/
def abandonLast (bus : Bool) (l : List Access) : Option (List Access) :=
  match l.reverse.findIdx? fun a => a.bus == bus && !a.abandoned with
  | some i => some (l.reverse.modify i fun a => { a with abandoned := true }).reverse
  | none => none

/-- FRAME_ABANDONED (02 R70, 04 Table HL-19): the access stays pending; ABANDONED and ABANDON_DOMAIN are set, and for a
write, whose ACK has not come, FRAME_ERR too (Table HL-8, log 128). -/
def frameAbandoned (bus : Bool) (s : State) : State :=
  match abandonLast bus s.link.waits with
  | some w =>
    let v := s.link.hlStatus &&& ~~~(0x6000 : BitVec 32) ||| (if bus then 0x2000 else 0x4000)
    let isWrite := (s.link.waits.zip w).any fun e => !e.1.abandoned && e.2.abandoned && e.1.write.isSome
    let s1 := hlErr 15 { s with link := { s.link with waits := w, hlStatus := v } }
    if isWrite then hlErr 8 s1 else s1
  | none => s

def execFrameAbandoned (bus : Bool) (s : State) : Out := .next (frameAbandoned bus s)

/-- PENDING_ACCESS_COMPLETE (02 R66, R70): the oldest waiting access of a domain completes once its clock runs, an
abandoned one too: the result of an abandoned read is discarded, and an abandoned write is committed without an ACK (04
Table HL-19, log 128). -/
def accessComplete (bus : Bool) (s : State) : State :=
  if !hcRun s || !(if bus then s.clk.busRun && s.link.staged.isNone else s.clk.rtcOsc) then s
  else match s.link.waits.findIdx? fun a => a.bus == bus with
    | none => s
    | some i =>
      let a := nth s.link.waits i {}
      let s1 := { s with link := { s.link with waits := s.link.waits.eraseIdx i } }
      match a.write with
      | some w =>
        if writable s1 w.1 then
          { s1 with link := { s1.link with staged := some w, ack := if a.abandoned then s1.link.ack else 0xA5 } }
        else if a.abandoned then s1 else refuseAt w.1 s1
      | none => if a.abandoned then s1 else readReply a.read.1 a.read.2 s1

def execPendingAccessComplete (bus : Bool) (s : State) : Out := .next (accessComplete bus s)

/-- HCS_N_EARLY_RISE (04 Table HL-19). -/
def hcsEarlyRise (s : State) : State :=
  if !hcRun s then s else hlErr 8 { s with link := { s.link with ack := 0xFF } }

def execHcsNEarlyRise (s : State) : Out := .next (hcsEarlyRise s)

/-- NOTIFICATION_DELIVER (04 R120): the oldest notification goes to the free buffer of the notification channel. -/
def notificationDeliver (s : State) : State :=
  let c := s.link.noteCh
  match s.link.notes with
  | [] => s
  | n :: ns =>
    if c < 6 && hcRun s && (chan s c).st == .notifyOnly && !s.link.irq.getLsbD c && apServing s then
      irqSet c (fwWrite .ap .resp (respBase c) (fun s => { s with link := { s.link with
        notes := ns, lost := false
        mem := memWriteBytes s.link.mem (respBase c)
          (message c (1 + 2 * b2n s.link.lost) 0 n.op (n.op / 256 * 256) n.payload) } }) s)
    else s

def execNotificationDeliver (s : State) : Out := .next (notificationDeliver s)

/-- LINK_ECHO (04 Table HL-23). -/
def execLinkEcho (ch : Nat) (s : State) : Out := .next (serve 0x0101 (fun k => k ≤ 2032) (fun pl s => ok 0x0100 pl s) ch s)

/-- NOTIFY_ROUTE (04 R120, Table HL-24). -/
def notifyRouteBody (ch : Nat) (pl : List Byte) (s : State) : Served :=
  let c := fld pl 0 1
  if !(decide (1 ≤ c ∧ c ≤ 5) || c == 0xFF) then no 0x01F1 s
  else ok 0x0100 ([byteOf s.link.noteCh, 0, 0, 0] ++ le 4 s.link.noteMask)
    { s with link := { s.link with
      routes := (s.link.routes.filter fun r => r.1 != ch) ++ [(ch, c, fld pl 4 4)] } }

def execNotifyRoute (ch : Nat) (s : State) : Out := .next (serve 0x0102 (len 8) (notifyRouteBody ch) ch s)

end Sys2Proof.Machine
end

