-- ==== Sys2Proof/Machine/BootLoad.lean ====
section
/-!
DEFINITION. Manifests, base images and Nenas deltas, the processing of one chunk, and BOOT_INFO (03 R85 to R93).
-/

namespace Sys2Proof.Machine

def getImg (s : State) (code : Nat) : Image := nth s.boot.imgs (code - 1) {}

/-- Fields of a manifest (03 Table PU-9). -/
def manCode (m : List Byte) : Nat := fld m 6 1
def manKey (m : List Byte) : Nat := fld m 7 1
def manEpoch (m : List Byte) : Nat := fld m 12 2
def manLen (m : List Byte) : Nat := fld m 16 4
def manDigest (m : List Byte) : List Byte := bytesAt m 28 32
/-- VER_MAJOR, VER_MINOR, VER_BUILD as four bytes. -/
def manVer (m : List Byte) : List Byte := bytesAt m 8 4

/-- The entry of PEER_EPOCHS for a peer: offered, lowest, highest. -/
def peerEntry (m : List Byte) (peer : Nat) : Option (Nat × Nat × Nat) :=
  ([0, 1, 2, 3].find? fun i => fld m (64 + 8 * i) 1 == peer).map fun i =>
    (fld m (66 + 8 * i) 2, fld m (68 + 8 * i) 2, fld m (70 + 8 * i) 2)

/-- Each side's offered epoch lies within the other's accepted range (03 Table PU-10 check 8). -/
def epochsFit (a b : List Byte) : Bool :=
  match peerEntry a (manCode b), peerEntry b (manCode a) with
  | some (oa, la, ha), some (ob, lb, hb) => decide (lb ≤ oa ∧ oa ≤ hb ∧ la ≤ ob ∧ ob ≤ ha)
  | _, _ => false

/-- Largest image per code (03 Table PU-11). -/
def imgLimit (code : Nat) : Nat := 1024 * nth [0, 1280, 384, 96, 320, 320] code 0

/-- Check 1 of Table PU-10: magic, format, reserved bytes, image code, length. -/
def manForm (code : Nat) (m : List Byte) : Bool :=
  m.length == 320 && fld m 0 4 == 0x46544D4F && fld m 4 2 == 2 && manCode m == code &&
  fld m 14 2 == b2n (code == 3) && fld m 25 3 == 0 && fld m 60 4 == 0 && fld m 96 96 == 0 &&
  ([0, 1, 2, 3].all fun i => fld m (65 + 8 * i) 1 == 0)

/-- Checks 1 to 8 of Table PU-10 against the images of a list; the status of the first that fails, 0x0200 for none. -/
def manCheck (s : State) (code : Nat) (m : List Byte) (peers : List Image) : Nat :=
  if !manForm code m then 0x0201
  else if sha256 (bytesAt m 192 64) != nth s.otp.keyHash (manKey m) [] then 0x0202
  else if nth s.otp.revoked (manKey m) false then 0x0203
  else if !ecdsaOk (bytesAt m 192 64) (m.take 256) (bytesAt m 256 64) then 0x0204
  else if 0xC1 < fld m 24 1 then 0x0205
  else if manEpoch m < nth s.otp.floors (code - 1) 0 then 0x0206
  else if imgLimit code < manLen m then 0x0207
  else if !(peers.all fun i => epochsFit m i.man) then 0x0208
  else 0x0200

/-- The other images that are VERIFYING or ACTIVE; in a reopened window those that run (03 R79, Table PU-10 check 8). -/
def peersOf (s : State) (code : Nat) : List Image :=
  ((List.range 5).filter fun i => i + 1 != code).filterMap fun i =>
    let g := nth s.boot.imgs i {}
    if (g.st == .verifying && !s.boot.reopened) || g.st == .active then some g else none

/-- All checks of Table PU-10 at boot. -/
def manBoot (s : State) (code : Nat) (m : List Byte) : Nat :=
  let r := manCheck s code m (peersOf s code)
  if r != 0x0200 then r
  else if code == 3 && !sealPort s && manDigest m != s.boot.sealedOr then 0x0209
  else if code == 1 && !([2, 3, 4, 5].all fun c => imgActive s c) then 0x020A
  else if (getImg s code).st == .loading || (getImg s code).st == .verifying || (getImg s code).st == .active then 0x020B
  else 0x0200

/-- Target and source lengths of the delta header in force (03 Table PU-12). -/
def deltaTarget (g : Image) : Nat := fld g.hdr 12 4
def deltaSource (g : Image) : Nat := fld g.hdr 8 4
/-- A delta is in force and its output has not reached TARGET_LENGTH. -/
def deltaOpen (g : Image) : Bool := !g.hdr.isEmpty && decide (g.out.length < deltaTarget g)

/-- The rebuild loop of R91 over the bytes held, by fuel; none is DELTA_FORMAT. An INSERT of length 0, outside the range of
Table PU-13, is DELTA_FORMAT (DESIGN CHOICE, log 149). -/
def deltaRun : Nat → Image → Option Image
  | 0, g => some g
  | k + 1, g =>
    let room := deltaTarget g - g.out.length
    if g.part.isEmpty then some g
    else if room == 0 then none
    else if g.ins != 0 then
      let n := min g.ins g.part.length
      if room < n then none
      else deltaRun k { g with out := g.out ++ g.part.take n, part := g.part.drop n, ins := g.ins - n }
    else match fld g.part 0 1 with
      | 1 =>
        if g.part.length < 9 then some g
        else
          let off := fld g.part 1 4
          let n := fld g.part 5 4
          if deltaSource g < off + n || room < n then none
          else deltaRun k { g with out := g.out ++ bytesAt g.src off n, part := g.part.drop 9 }
      | 2 =>
        if g.part.length < 3 then some g
        else
          let n := fld g.part 1 2
          if n == 0 || room < n then none else deltaRun k { g with ins := n, part := g.part.drop 3 }
      | 3 =>
        if g.part.length < 6 then some g
        else
          let n := fld g.part 1 4
          if room < n then none
          else deltaRun k { g with
            out := g.out ++ List.replicate n (byteOf (fld g.part 5 1)), part := g.part.drop 6 }
      | _ => none

/-- A delta header (03 R85, R90): the source is the image before it. A header before the base image, or before the delta in
force has reached its target, is out of order. -/
def deltaHeader (code : Nat) (h : List Byte) (g : Image) : Nat × Image :=
  if deltaOpen g || g.ins != 0 || !g.part.isEmpty || (g.hdr.isEmpty && g.out.isEmpty) then (0x020C, g)
  else if h.length != 48 then (0x020E, g)
  else if fld h 0 4 != 0x544C444E || fld h 4 1 != code || fld h 5 1 != 0 || fld h 6 2 != 1 then (0x020E, g)
  else if fld h 8 4 != g.out.length || bytesAt h 16 32 != sha256 g.out then (0x020D, g)
  else (0x0200, { g with src := g.out, out := [], hdr := h, part := [], ins := 0, deltas := g.deltas + 1 })

/-- Delta data (03 R91). -/
def deltaData (d : List Byte) (g : Image) : Nat × Image :=
  let g1 := { g with part := g.part ++ d }
  match deltaRun (g1.part.length + 1) g1 with
  | some g2 => (0x0200, g2)
  | none => (0x020E, g)

/-- A chunk of data of an image being loaded: base data, delta header, delta data. -/
def dataChunk (code kind : Nat) (d : List Byte) (g : Image) : Nat × Image :=
  match kind with
  | 1 => if g.hdr.isEmpty then (0x0200, { g with out := g.out ++ d }) else (0x020C, g)
  | 2 => deltaHeader code d g
  | _ => if g.hdr.isEmpty then (0x020C, g) else deltaData d g

/-- The end of an image (03 R91, R92). -/
def endCheck (g : Image) : Nat :=
  if deltaOpen g || g.ins != 0 || !g.part.isEmpty then 0x020E
  else if g.out.length != manLen g.man || sha256 g.out != manDigest g.man then 0x020F
  else 0x0200

/-- The bytes of a chunk in its buffer. -/
def chunkBytes (s : State) (k : Chunk) : List Byte :=
  memReadBytes s.link.mem (if k.buf then 0x1C00 else 0x1800) k.len

/-- An image fails (03 R87, R99), and an OR image that waits for its Cairn entry waits no longer. In a reopened window the
images that run keep running (R79, log 38). -/
def failImg (code : Nat) (s : State) : State :=
  let s1 := updImg code (fun g => if g.st == .active && s.boot.reopened then g else { g with st := .failed }) s
  if code == 3 then { s1 with boot := { s1.boot with orWait := none } } else s1

/-- The chunk's buffer is FREE again with LAST_STATUS valid (03 R84). -/
def chunkDone (k : Chunk) (st : Nat) (s : State) : State :=
  let b := s.boot
  markVerifying (irqSet 10 { s with boot := { b with
    queue := b.queue.drop 1, lastStatus := st, lastImage := k.image
    free0 := b.free0 || !k.buf, free1 := b.free1 || k.buf } })

/-- The OR_IMAGE and OR_ACTIVATED data: versions and the first 8 bytes of the digests (15 Table SA-3). -/
def orImageData (s : State) (m : List Byte) : List Byte :=
  [byteOf (nth s.boot.sealedVer 0 0), byteOf (nth s.boot.sealedVer 1 0)] ++ le 2 (nth s.boot.sealedVer 2 0) ++
  manVer m ++ s.boot.sealedOr.take 8 ++ (manDigest m).take 8

/-- The sealed OR digest is replaced (03 R88). -/
def sealOr (m : List Byte) (s : State) : State :=
  { s with boot := { s.boot with
    sealedOr := manDigest m, sealedVer := [fld m 8 1, fld m 9 1, fld m 10 2], orWait := none } }

/-- The window closes when every image is ACTIVE (03 R79, R80). -/
def closeWindow (s : State) : State :=
  if [1, 2, 3, 4, 5].all (fun c => imgActive s c) && s.boot.phase == .windowOpen then
    { s with boot := { s.boot with phase := .running, reopened := false } }
  else s

/-- An image becomes ACTIVE and its processor starts (03 R92). -/
def activate (onActive : Nat → State → State) (k : Chunk) (s : State) : State :=
  let s1 := updImg k.image (fun g => { g with st := .active, loadTick := now s, src := [] }) s
  closeWindow (onActive k.image (chunkDone k 0x0200 s1))

/-- CHUNK_CONSUMED (03 R84 to R92): the oldest submitted chunk is processed. OR_IMAGE comes before a changed OR
starts (R88): until the entry is in MRAM the end chunk stays in process, and the image starts only while the seal-gated
port is still open (01 R41). A malformed chunk descriptor is answered FORMAT: with a reserved KIND or IMAGE it names no
image and leaves every image as it is, with a bad LENGTH it makes its image FAILED (DESIGN CHOICE, log 129). -/
def chunkConsume (onActive : Nat → State → State) (s : State) : State :=
  match s.boot.queue with
  | [] => s
  | k :: _ =>
    if s.boot.phase != .windowOpen then s
    else
      let g := getImg s k.image
      let d := chunkBytes s k
      let bad := fun st => chunkDone k st (failImg k.image s)
      if !(decide (1 ≤ k.image ∧ k.image ≤ 5 ∧ k.kind ≤ 4)) then chunkDone k 0x0201 s
      else if !(if k.kind == 4 then k.len == 0 else decide (1 ≤ k.len ∧ k.len ≤ 1024)) then bad 0x0201
      else if k.kind == 0 then
        if k.seq != 0 || (s.boot.imgs.zipIdx.any fun i => i.1.st == .loading && i.2 + 1 != k.image) then bad 0x020C
        else
          let r := manBoot s k.image d
          if r != 0x0200 then bad r
          else chunkDone k r (updImg k.image (fun _ => { st := .loading, man := d, seq := 1 }) s)
      else if !(if k.kind == 4 then g.st == .verifying || g.st == .loading else g.st == .loading) || k.seq != g.seq then
        bad 0x020C
      else if k.kind != 4 then
        let r := dataChunk k.image k.kind d g
        if r.1 != 0x0200 then bad r.1
        else chunkDone k 0x0200 (updImg k.image (fun _ => { r.2 with seq := g.seq + 1 }) s)
      else
        let r := endCheck g
        if r != 0x0200 then bad r
        else if k.image == 3 && manDigest g.man != s.boot.sealedOr then
          match s.boot.orWait with
          | some t =>
            if !cairnDone t s then s
            else if !s.sealIn.port || cairnLost t s then bad 0x0209
            else activate onActive k (sealOr g.man s)
          | none =>
            if !sealPort s then bad 0x0209
            else cairnO 3 0xFF (orImageData s g.man) { s with boot := { s.boot with orWait := some (cairnToken s) } }
        else activate onActive k s

/-- BOOT_INFO (03 Table PU-20). -/
def bootInfoBody (_ : List Byte) (s : State) : Served :=
  ok 0x0200 (((List.range 5).flatMap fun i =>
    let g := nth s.boot.imgs i {}
    manVer (padTo 320 g.man) ++ le 2 (manEpoch g.man) ++
      [byteOf (nth s.otp.floors i 0), byteOf (manKey g.man), byteOf g.deltas] ++
      zeros 7 ++ padTo 32 (manDigest g.man) ++ le 8 g.loadTick) ++ [byteOf s.boot.cause, 0, 0, 0]) s

def execBootInfo (ch : Nat) (s : State) : Out := .next (serve 0x0201 (len 0) bootInfoBody ch s)

end Sys2Proof.Machine
end

