-- ==== Sys2Proof/Machine/Boundary.lean ====
section
/-!
DEFINITION. Boundary ticks, maximum demand, billing closures, activations and the commits (13 R318 to R337, 08 R208).
-/

namespace Sys2Proof.Machine

/-- A demand-state word takes VALUE and RESIDUE (13 R327). -/
def setWord (i v r : Nat) (s : State) : State :=
  { s with eg := { s.eg with regs := spSet {} s.eg.regs i ⟨v * 4294967296 + r, (regOf s i).last⟩ } }

/-- The demand-state words that a boundary commit carries (13 Table TD-3). -/
def demandWords (s : State) : List (Nat × Nat) :=
  (((List.range 50).map (0x0C00 + ·)) ++ [0x0C40, 0x0C41, 0x0C42, 0x0C43]).map fun i => (i, eOf s i)

/-- Totals of a quantity as the commit of this tick leaves them, mWh or mvarh (13 R324). -/
def valAfter (s : State) (cr : Credits) (r : Nat) : Nat := (eOf s r + spGet 0 cr r) / 4294967296

/-- Flags of the interval that ends now (13 Table TD-4, 06 R184). -/
def magFlag (s : State) : Nat := if s.rind.mag then 16 else 0

/-- The demand of every scope at the end of a sub-interval (13 R324, R326). -/
def closeDemand (end_ flags : Nat) (cr : Credits) (s : State) : State :=
  let b := tarTab s
  let k := max 1 (fld b 22 1)
  let fl := s.tar.run ||| flags ||| magFlag s ||| (if s.rtc.valid then 0 else 4)
  let s1 := foldN 25 (fun c s =>
    let v := valAfter s cr (scopeBase c)
    let l := nth s.tar.subs c [] ++ [(v - valOf s (startWord c), fl)]
    let l1 := l.drop (l.length - k)
    let d := sat32of (demandOf b ((l1.map (·.1)).foldl (· + ·) 0))
    let f := (l1.map (·.2)).foldl (· ||| ·) 0
    let s1 := setWord (startWord c) v 0 { s with tar := { s.tar with
      subs := s.tar.subs.set c l1, last := s.tar.last.set c (d, end_, f) } }
    if resOfReg s (maxWord c) < d then setWord (maxWord c) (end_ % 2 ^ 48 + f * 2 ^ 48) d s1 else s1) s
  let h := nth s1.tar.last 24 (0, 0, 0)
  tariffEvent 2 0 h.2.2 (now s) h.1
    (setWord 0x0C40 end_ 0 { s1 with tar := { s1.tar with run := magFlag s, closedAt := some (now s) } })

/-- A load-profile record (18 Table QS-7). -/
def profRecord (end_ : Nat) (cr : Credits) (s : State) : List Byte :=
  let q := fun c => (List.range 4).map fun j =>
    let b := scopeBase c
    match j with
    | 0 => valAfter s cr b
    | 1 => valAfter s cr (b + 1)
    | 2 => valAfter s cr (b + 2) + valAfter s cr (b + 3)
    | _ => valAfter s cr (b + 4) + valAfter s cr (b + 5)
  let delta := fun c => (List.range 4).flatMap fun j => le 4 (nth (q c) j 0 - nth (nth s.tar.profBase c []) j 0)
  let body := le 8 end_ ++ le 8 (now s) ++
    le 2 (s.tar.profRun ||| magFlag s ||| (if s.rtc.valid then 0 else 4)) ++ [byteOf (rateInForce s)] ++ zeros 13 ++
    (List.range 25).flatMap delta ++ zeros 76
  body ++ le 4 (crc32 body)

/-- The totals that the next profile interval starts from. -/
def profNow (cr : Credits) (s : State) : List (List Nat) :=
  (List.range 25).map fun c =>
    let v := fun k => valAfter s cr (scopeBase c + k)
    [v 0, v 1, v 2 + v 3, v 4 + v 5]

/-- A profile interval ends: SE takes its record (18 Table QS-7, R440); in STANDBY none is formed and the next carries GAP (24
R528). -/
def closeProfile (end_ : Nat) (cr : Credits) (s : State) : State :=
  if s.pw.mode == 2 then { s with tar := { s.tar with profRun := s.tar.profRun ||| magFlag s ||| 1 } } else
  seAsk { cls := 4, data := [profRecord end_ cr s], after := [.profile] }
    { s with tar := { s.tar with profBase := profNow cr s, profRun := magFlag s } }

/-- The billing snapshot without its CRC fields filled (13 Table TD-5). -/
def snapBody (s : State) (maxes : List (Nat × Nat)) : List Byte :=
  (List.range 25).flatMap fun c =>
    let m := nth maxes c (0, 0)
    (List.range 8).flatMap (fun q => le 8 (valOf s (scopeBase c + q))) ++
    (List.range 8).flatMap (fun t => le 8 (valOf s (scopeRates c + 8 * t))) ++
    (List.range 8).flatMap (fun t => le 8 (valOf s (scopeRates c + 8 * t + 1))) ++
    le 4 m.2 ++ le 2 (m.1 / 2 ^ 48) ++ [0, 0] ++ le 8 (m.1 % 2 ^ 48)
def snapshot (s : State) (period flags skipped version start end_ : Nat) (maxes : List (Nat × Nat)) : List Byte :=
  let h := le 4 period ++ [byteOf flags, byteOf skipped] ++ le 2 version ++ le 8 start ++ le 8 end_ ++ le 4 s.eg.commits
  let b := snapBody s maxes
  h ++ le 4 (crc32 (h ++ b)) ++ b

/-- The slot of the older snapshot; one that holds no snapshot with a valid CRC comes first (13 R331, R332). -/
def olderSnap (s : State) : Nat :=
  let k := fun i => let b := nth s.tar.snaps i []; if snapGood b then fld b 0 4 else 0
  if k 0 ≤ k 1 then 0 else 1

/-- A snapshot is written to the older slot, and SE is asked to mirror it (13 R328, R331). -/
def writeSnap (b : List Byte) (s : State) : State :=
  askBill b { s with tar := { s.tar with snaps := s.tar.snaps.set (olderSnap s) b, snapTick := some (now s) } }

/-- The latest billing boundary passed and not yet closed, and how many others were passed (13 R329, R330). -/
def billSpan (s : State) : Option (Nat × Nat) :=
  let b := tarTab s
  if s.rtc.valid && s.tar.nextClose != 0 && s.tar.nextClose ≤ s.rtc.sec then
    let m := lastMonth b s.rtc.sec
    some (max s.tar.nextClose (monthBill b m), min 255 (m - lastMonth b s.tar.nextClose))
  else none

/-- The activation that is due, by its instant (13 R322). -/
def actDue (s : State) : Option Nat :=
  if !s.rtc.valid then none
  else match passive s with
    | none => none
    | some r =>
      let a := fld r.bytes 0 8
      match s.tar.act with
      | some t => if t ≤ s.rtc.sec then some t else if a != 0 && a ≤ s.rtc.sec then some a else none
      | none => if a != 0 && a ≤ s.rtc.sec then some a else none

/-- The billing part of a boundary: words, entry and event; the snapshot follows the commit. The next boundary lies after
every one that has closed, also where an activation closes the period (13 R328 to R330). -/
def closeBill (end_ skipped flags : Nat) (newTab : List Byte) (s : State) : State :=
  let n := periodNo s
  let s1 := foldN 25 (fun c s => setWord (maxWord c) 0 0 s) s
  let s2 := setWord 0x0C41 end_ ((n + 1) % 4294967296) { s1 with tar := { s1.tar with nextClose := nextBill newTab (max end_ s.tar.closedTo) } }
  tariffEvent 3 skipped 0 (now s) n (cairnO 0x42 0xFF (le 4 n ++ [byteOf flags, byteOf skipped]) s2)

/-- The passive table becomes the active one by exchange of the slots (13 R322). -/
def exchange (r : TableRec) (s : State) : State :=
  { s with
    tabs := { s.tabs with installed :=
      (s.tabs.installed.filter fun t => t.id != 0x4901 && t.id != 0x4902) ++ [{ r with id := 0x4901 }] }
    tar := { s.tar with oldTab := (tarVersion s, tarTab s), act := none } }

/-- The words that show the mode, the rate and the billing state (13 Table TD-3). -/
def stateWords (rate : Nat) (tcm closing : Bool) (s : State) : State :=
  let s1 := foldN 25 (fun c s => setWord (startWord c) (valOf s (startWord c)) (s.tar.run % 256) s) s
  let slot := if closing then olderSnap s else resOfReg s 0x0C42 % 2
  setWord 0x0C40 (valOf s1 0x0C40) (rate + 8 * b2n tcm) (setWord 0x0C43 s.tar.unknown 0
    (setWord 0x0C42 s.tar.nextClose slot s1))

/-- The table that an activation leaves active (13 R322). -/
def tabAfter (act : Option Nat) (s : State) : List Byte := match act, passive s with
  | some _, some r => r.bytes
  | _, _ => tarTab s

/-- A boundary in the order of Table TD-1: the interval closes, the period closes, the table changes, all in one commit;
sessions are charged under the old table, and the new rate holds from the next tick (13 R319, R322, R337). away: flags with
which the next interval begins. set: a clock set whose time holds from the next tick (R333). -/
def boundaryCore (dEnd span : Option (Nat × Nat)) (act prof : Option Nat) (bf away : Nat) (set : Option ClockSet)
    (s : State) : State :=
  let b := tarTab s
  let cr := creditsOf s (forcedDue s)
  let s1 := match dEnd with
    | some (e, f) => closeDemand e f cr s
    | none => s
  let s2 := match prof with
    | some e => closeProfile e cr s1
    | none => s1
  let newRec := match act with
    | some _ => passive s
    | none => none
  let newTab := tabAfter act s
  let maxes := (List.range 25).map fun c => (valOf s2 (maxWord c), resOfReg s2 (maxWord c))
  let start := valOf s 0x0C41
  let n := periodNo s
  let flags := bf ||| (if act.isSome then 8 else 0)
  let bill := match span, act with
    | some (e, k), some a => some (max e a, k)
    | some x, none => some x
    | none, some a => some (a, 0)
    | none, none => none
  let closed := match span with
    | some (e, _) => max e s.tar.closedTo
    | none => s.tar.closedTo
  let s3 := match bill with
    | some (e, k) => closeBill e k flags newTab { s2 with tar := { s2.tar with closedTo := closed } }
    | none => s2
  let s4 := match newRec, act with
    | some r, some _ =>
      tariffEvent 4 0 0 (now s) r.version (cairnO 6 0xFF (le 2 (tarVersion s) ++ le 2 r.version)
        (clearSubs s3))
    | _, _ => s3
  let rate := if s.rtc.valid then rateAt newTab s.rtc.sec else fld newTab 11 1
  let held := match set with
    | some c => rateAt newTab c.sec
    | none => rate
  let unknown := s.tar.tcm && set.isNone
  let s5 := stateWords held unknown bill.isSome
    { s4 with tar := { s4.tar with run := s4.tar.run ||| away ||| 4 * b2n unknown } }
  let s6 := commitNow (demandWords s5) s5
  let s7 := match bill with
    | some (e, k) => writeSnap (snapshot s6 n flags k (tarVersion s) start e maxes) s6
    | none => s6
  let s8 := chargeAll b s7
  let s9 := match newRec with
    | some r => exchange r (segmentAll r.version s8)
    | none => s8
  let fr := friendlyNow s9
  let s10 := reschedule { s9 with tar := { s9.tar with rate := rate, friendly := fr, bFlags := 0 } }
  let s11 := creditTick s10
  if rate == s.tar.rate then s11 else tariffEvent 1 rate 0 (now s) 0 s11

/-- Boundaries may fall in this tick: the tick of a superframe start while a coupling is ready (13 R318). -/
def boundaryGate (s : State) : Bool := !couplingReady s || s.lintel.sfTick == some (now s)

/-- Ends that are due: of the sub-interval, of the profile interval (13 R324, R325). -/
def demandDue (s : State) : Option Nat :=
  if s.rtc.valid then (if s.tar.nextD ≤ s.rtc.sec then some s.tar.nextD else none)
  else if s.tar.nextTick ≤ now s then some s.rtc.sec else none
def profDue (s : State) : Option Nat :=
  if s.rtc.valid then (if s.tar.nextP ≤ s.rtc.sec then some s.tar.nextP else none)
  else if s.tar.nextPTick ≤ now s then some s.rtc.sec else none

/-- A set waits for its closure in this tick (13 R333). -/
def setWaits (s : State) : Bool := s.tar.set.any fun c => !c.closed
/-- This tick is the set tick of a set (13 R333). -/
def inSetTick (s : State) : Bool := s.tar.setTick == some (now s)

/-- This tick is a boundary tick whose work is not yet done (13 R318). -/
def boundaryDue (s : State) : Bool :=
  orRun s && s.eg.restored &&
    (setWaits s || (inSetTick s && ((billSpan s).isSome || (actDue s).isSome)) ||
     (boundaryGate s && ((demandDue s).isSome || (profDue s).isSome || (billSpan s).isSome || (actDue s).isSome ||
        rateNow s != s.tar.rate || friendlyNow s != s.tar.friendly)))

/-- The flags with which the interval after an activation begins: SHORT where none of the new table's ends falls into this
boundary tick (13 R322, Table TD-4). -/
def awayAfter (act dd : Option Nat) (s : State) : Nat := match act with
  | none => 0
  | some a =>
    let t := tabAfter act s
    let since := if inSetTick s then s.rtc.sec else min a (dd.getD a)
    if alignedAfter t (subLen t) (since - 1) ≤ s.rtc.sec then 0 else 1

/-- The work of a boundary tick (13 R319, R334). An activation closes the interval with TARIFF_CHANGE, and with SHORT where
no end of the interval falls into the tick (R322). -/
def boundaryTick (s : State) : State :=
  if !boundaryDue s then s
  else
    let g := boundaryGate s
    let dd := if g then demandDue s else none
    let act := if g || inSetTick s then actDue s else none
    let span := if g || inSetTick s then billSpan s else none
    let bf := if inSetTick s then s.tar.bFlags else 0
    let change := if act.isSome then 8 else 0
    if setWaits s then
      let d := if s.tar.closedAt == some (now s) then none else some (dd.getD (act.getD s.rtc.sec), 1 ||| change)
      let mark := fun (s : State) => clearSubs { s with tar := { s.tar with
        set := s.tar.set.map fun c => { c with closed := true }, profRun := s.tar.profRun ||| 8 } }
      mark (boundaryCore d span act (if g then profDue s else none) bf 1 s.tar.set s)
    else
      let d := match dd, act with
        | some e, _ => some (e, change)
        | none, some a => some (a, 1 ||| change)
        | none, none => none
      boundaryCore d span act (if g then profDue s else none) bf (awayAfter act dd s) none s

def execBoundaryTick (s : State) : Out := .next (gated (orRun s) boundaryTick s)

/-- TIME_INVALID (13 R317): the RTC oscillator is found stopped, or the RTC domain has lost its supplies. A boundary of the
same tick completes on the old time (13 Table TD-7). -/
def execTimeInvalid (reason : Nat) (s : State) : Out :=
  .next (if (reason == 1 || reason == 2) && s.rtc.valid then timeClears reason (boundaryTick s) else s)

/-- COMMIT_TICK (08 R207, R208, R212); a boundary tick has its own commit (13 R319). -/
def commitTick (s : State) : State :=
  if commitDue s && !boundaryDue s then chargeAll (tarTab s) (commitNow [] s) else s

def execCommitTick (s : State) : Out := .next (gated (orRun s) commitTick s)

/-- The snapshot of the latest period is rebuilt where no slot holds it (13 R332). -/
def rebuildSnap (s : State) : State :=
  let n := periodNo s - 1
  if n == 0 || (snapOf s n).any snapGood then s
  else
    let maxes := (List.range 25).map fun c => (valOf s (maxWord c), resOfReg s (maxWord c))
    let start := match snapOf s (n - 1) with
      | some b => fld b 16 8
      | none => 0
    writeSnap (snapshot s n 16 0 (tarVersion s) start (valOf s 0x0C41) maxes) s

/-- Step 6 of the restore (13 R336, 08 Table EG-6). -/
def tariffRestore (s : State) : State :=
  let b := tarTab s
  let s0 := rebuildSnap s
  let s1 := { s0 with tar := { s0.tar with
    nextClose := valOf s 0x0C42, unknown := valOf s 0x0C43, run := resOfReg s (startWord 24) % 256 ||| 2
    profRun := 3, profBase := profNow [] s } }
  let fresh := eOf s 0x0C41 == 0
  let s2 := if fresh then setWord 0x0C41 0 1 (foldN 25 (fun c s => setWord (startWord c) (valOf s (scopeBase c)) 0 s) s1) else s1
  let s3 := if s2.rtc.valid && s2.rtc.sec < valOf s 0x0C40 then timeClears 3 s2 else s2
  if !s3.rtc.valid then
    boundaryCore none none none none 0 0 none (enterUnknown s3)
  else
    let sec := s3.rtc.sec
    let s4 := if s3.tar.nextClose == 0 then { s3 with tar := { s3.tar with nextClose := nextBill b sec } } else s3
    let tcm := (resOfReg s 0x0C40).testBit 3
    let lastEnd := valOf s 0x0C40
    let e := if s.tar.endOf == lastEnd && s.tar.nextD != 0 then s.tar.nextD else alignedAfter b (subLen b) lastEnd
    let act := actDue s4
    let d := if fresh || tcm then none
      else if e ≤ sec then some (e, 2)
      else act.map fun a => (a, 11)
    let t := tabAfter act s4
    let s5 := if fresh || tcm then setWord 0x0C40 (alignedAfter b (subLen b) sec - subLen b) 0 s4 else s4
    let away := (fresh || tcm || d.isSome) && !isAligned t (subLen t) sec
    boundaryCore d (billSpan s5) act none 1 (if away then 3 else 2) none s5

end Sys2Proof.Machine
end

