-- ==== Sys2Proof/Machine/Contactless.lean ====
section
/-!
DEFINITION. The contactless reader and card emulation (16), and the card purse (14 R358).
-/

namespace Sys2Proof.Machine

def getNf (s : State) (n : Nat) : Nf := nth s.nf.fe n {}
def updNf (n : Nat) (f : Nf → Nf) (s : State) : State := { s with nf := { s.nf with fe := s.nf.fe.modify n f } }
def updCard (n : Nat) (f : CardRun → CardRun) (s : State) : State := updNf n (fun q => { q with card := f q.card }) s

/-- Fields of the options in force at a front-end (16 Table CL-3). -/
def nfMode (q : Nf) : Nat := fld q.cfg 0 1
def nfOpt (q : Nf) (off len : Nat) : Nat := fld q.cfg off len
/-- The front-end's part of table 0x0C01 as loaded. -/
def nfTab (s : State) (n : Nat) : List Byte := bytesAt (tab s 0x0C01) (16 * n) 16

/-- LE drives the front-end: the image runs, the front-end is not fenced. -/
def nfUp (s : State) (n : Nat) : Bool := decide (n < 2) && imgActive s 4 && s.clk.busRun && !fencedB s 4 n && s.eg.pfailTick.isNone
/-- Pings are held back by an external field, or for 200 ms after it (16 R378, R392). -/
def fieldHolds (s : State) (q : Nf) : Bool := q.field || q.ended.any fun t => decide (now s < t + 1600)

/-- CARD_EVENT (16 R396). -/
def cardEvent (n ev result : Nat) (uid : List Byte) (s : State) : State :=
  notify 0x0C80 ([byteOf n, byteOf ev, byteOf result, byteOf uid.length] ++ padTo 10 uid ++ [0, 0] ++ le 8 (now s)) s

/-- The same for the card on the antenna. -/
def cardEv (n ev result : Nat) (s : State) : State := cardEvent n ev result (getNf s n).card.uid s

/-- A frame goes out and its answer is awaited. -/
def nfSend (n ph : Nat) (b : List Byte) (s : State) : State := updNf n (fun q => { q with ph := ph, tx := b }) s

/-- REQA, the first of up to 3 (16 R380). -/
def sendReqa (n k : Nat) (s : State) : State := nfSend n 1 [0x26] (updNf n (fun q => { q with reqa := k, card := {} }) s)

/-- The poll ends: carrier off, the next ping 10 ms later is the baseline (16 R380). -/
def endPoll (n : Nat) (s : State) : State :=
  updNf n (fun q => { q with ph := 0, carrier := false, rebase := true, nextPing := now s + 80, card := {} }) s

/-- Polling starts (16 R380). -/
def startPoll (n : Nat) (s : State) : State :=
  sendReqa n 1 (updNf n (fun q => { q with carrier := true, polls := sat32 q.polls }) s)

/-- The options loaded take effect at the next ping interval; a front-end in mode 0 or 3 is ready once its mode is applied,
one that reaches mode 1 or 2 once it has a baseline (16 R377, R379). -/
def applyCfg (n : Nat) (s : State) : State :=
  let c := nfTab s n
  let s1 := updNf n (fun q => { q with cfg := c }) s
  let q := getNf s1 n
  if nfMode q == 0 || nfMode q == 3 then setReady (rNF + n) true s1
  else setReady (rNF + n) q.based s1

/-- The detuning of a ping (16 R378). -/
def absR (x : Rat) : Rat := max x (-x)
def deltaOf (q : Nf) (a : Nat) (phi : Int) : Rat :=
  max (absR ((a : Rat) - q.aBase) * 1000 / (if q.aBase = 0 then (1 + Config.zeroDiv 5 : Rat) else q.aBase)) (absR ((phi : Rat) - q.phiBase))

/-- The start-up test of a fenced front-end is passed: it comes back with its maintenance channel (25 R543, Table SP-2). -/
def nfBootLift (n : Nat) (s : State) : State :=
  if n < 2 && imgActive s 4 && s.clk.busRun then
    let s1 := bootLift 4 n s
    if fencedB s1 4 n then s1 else bootLift 10 (6 + n) s1
  else s

/-- NF_PING (16 R378 to R380): amplitude and phase in 0.1 degree of the burst. -/
def nfPing (n a : Nat) (phi : Int) (s0 : State) : State :=
  let m := fld (nfTab s0 n) 0 1
  let s := if m == 0 || m == 3 then nfBootLift n s0 else s0
  if !nfUp s n || (getNf s n).ph != 0 || now s < (getNf s n).nextPing then s
  else
    let s1 := if (getNf s n).rebase then s else applyCfg n s
    let q := getNf s1 n
    let next := fun (s : State) => updNf n (fun q => { q with nextPing := now s + 8 * nfOpt q 4 2 }) s
    if !(nfMode q == 1 || nfMode q == 2) then next s1
    else if fieldHolds s1 q then next (updNf n (fun q => { q with skipped := sat32 q.skipped }) s1)
    else if !q.based || !s1.clk.plln then s1
    else
      let d := deltaOf q a phi
      let s2 := updNf n (fun q => { q with pings := sat32 q.pings, delta := min 65535 (rnd 26 d).toNat }) s1
      if q.rebase then next (updNf n (fun q => { q with aBase := a, phiBase := phi, rebase := false }) s2)
      else if d < (nfOpt q 6 2 : Rat) then
        next (updNf n (fun q => { q with
          aBase := q.aBase + ((a : Rat) - q.aBase) / (nfOpt q 3 1 : Rat)
          phiBase := q.phiBase + ((phi : Rat) - q.phiBase) / (nfOpt q 3 1 : Rat) }) s2)
      else startPoll n s2

def execNfPing (n a : Nat) (phi : Int) (s : State) : Out := .next (nfPing n a phi s)

/-- NF_BASELINE (16 R379): the means of 16 pings become the baseline. -/
def nfBaseline (n : Nat) (l : List (Nat × Int)) (s0 : State) : State :=
  let s := if l.length == 16 && s0.clk.plln then nfBootLift n s0 else s0
  if !nfUp s n || (getNf s n).ph != 0 || l.length != 16 then s
  else
    let s1 := if (getNf s n).cfg.isEmpty then applyCfg n s else s
    let q := getNf s1 n
    if (nfMode q == 1 || nfMode q == 2) && !q.based && !fieldHolds s1 q && s1.clk.plln then
      let a : Rat := ((l.map (·.1)).foldl (· + ·) 0 : Nat) / 16
      let p : Rat := ((l.map (·.2)).foldl (· + ·) 0 : Int) / 16
      setReady (rNF + n) true (updNf n (fun q => { q with
        aBase := a, phiBase := p, based := true, pings := min 0xFFFFFFFF (q.pings + 16)
        nextPing := now s + 8 * nfOpt q 4 2 }) s1)
    else s1

def execNfBaseline (n : Nat) (l : List (Nat × Int)) (s : State) : Out := .next (nfBaseline n l s)

/-- Bits of bytes, bit 0 of the first byte first, and back. -/
def bitsOfBytes (l : List Byte) : List Bool := l.flatMap fun b => (List.range 8).map fun i => b.getLsbD i
def bytesOfBits (l : List Bool) : List Byte := (groupsOf 8 l).map fun g => byteOf (bitsOf g)

/-- ANTICOLLISION of the level with the bits known (16 R383). -/
def selByte (level : Nat) : Byte := byteOf (0x93 + 2 * level)
def sendAnti (n : Nat) (s : State) : State :=
  let c := (getNf s n).card
  let k := c.known.length
  nfSend n 2 ([selByte c.level, byteOf (0x20 + 0x10 * (k / 8) + k % 8)] ++ bytesOfBits c.known) s

/-- The last bytes of a transaction's card: HALT by S(DESELECT) or HLTA; the next REQA follows (16 R384). -/
def haltCard (n : Nat) (s : State) : State :=
  let c := (getNf s n).card
  let s1 := updNf n (fun q => { q with handled := (q.handled.filter fun h => h.1 != c.uid) ++ [(c.uid, now s)] }) s
  if c.part4 then nfSend n 18 [0xC2] s1 else nfSend n 19 [0x50, 0x00] s1

/-- A transaction ends without success (16 R385, R395). -/
def refuse (n result : Nat) (s : State) : State := haltCard n (cardEv n 9 result s)

/-- A transaction is done (16 R385, R396). -/
def finishCard (n : Nat) (s : State) : State := haltCard n (cardEv n 2 0 s)

/-- Hub's absorber tag (16 Table CL-8). -/
def hubTag (s : State) : List Byte := (sha256 s.otp.devId).take 4

/-- Frame sizes by FSCI or FSDI (16 Table CL-4). -/
def frameSize (i : Nat) : Nat := nth [16, 24, 32, 40, 48, 64, 96, 128, 256] (min i 8) 256

/-- An I-block: block number, chaining bit, INF (16 Table CL-4). -/
def iBlock (bn : Nat) (chain : Bool) (inf : List Byte) : List Byte := byteOf (2 + bn + 16 * b2n chain) :: inf

/-- The next block of a command: as much as the card's frame takes, chained while more follows (16 Table CL-4). -/
def sendPart (n ph : Nat) (s : State) : State :=
  let c := (getNf s n).card
  let rest := c.out.drop (c.fsc - 3)
  let b := iBlock c.bn (!rest.isEmpty) (c.out.take (c.fsc - 3))
  nfSend n ph b (updCard n (fun c => { c with out := rest, acc := [], last := b }) s)

/-- A command of the card application goes out in I-blocks (16 R385). -/
def nfApp (n ph : Nat) (b : List Byte) (s : State) : State := sendPart n ph (updCard n (fun c => { c with out := b }) s)

/-- READ and WRITE of a record under the session key (16 R386). -/
def sendRead (n ph rcd : Nat) (s : State) : State :=
  let c := (getNf s n).card
  nfApp n ph ([0xB0, byteOf rcd] ++ le 2 c.ctr ++ (cmac c.ks ([0xB0] ++ le 2 c.ctr)).take 8)
    (updCard n (fun c => { c with ctr := (c.ctr + 1) % 65536, rcd := rcd }) (aesRun { client := 1, left := 4 } s))
def sendWrite (n ph rcd : Nat) (b : List Byte) (s : State) : State :=
  let c := (getNf s n).card
  nfApp n ph ([0xD0, byteOf rcd] ++ le 2 c.ctr ++ b ++ (cmac c.ks ([0xD0] ++ le 2 c.ctr ++ b)).take 8)
    (updCard n (fun c => { c with ctr := (c.ctr + 1) % 65536, slot := rcd, wr := b })
      (aesRun { client := 1, left := 4 + b.length } s))

/-- A response carries STATUS 0 and a good MAC over STATUS and its data; with the session key cleared the job fails (16
R386, 01 R37). -/
def rspOk (c : CardRun) (ans : List Byte) (k : Nat) : Bool :=
  !c.ks.isEmpty && fld ans 0 1 == 0 && ans.length == 1 + k + 8 && (cmac c.ks (ans.take (1 + k))).take 8 == bytesAt ans (1 + k) 8

/-- RESULT of a response that is refused: its STATUS, 2 (MAC) where that is 0 (16 R396, log 154). -/
def badRsp (ans : List Byte) : Nat := if fld ans 0 1 == 0 then 2 else fld ans 0 1

/-- Counter copies (16 R387, Table CL-8). -/
def ctrValid (c : CardRun) (r : List Byte) : Bool :=
  fld r 1 1 == 1 && fld r 16 8 ≤ fld r 8 8 && (cmac c.kc (c.uid ++ r.take 24)).take 8 == bytesAt r 24 8
def seqNewer (a b : Nat) : Bool := let d := (a + 256 - b) % 256; decide (1 ≤ d ∧ d ≤ 127)
def ctrRecord (c : CardRun) (b : List Byte) : List Byte := b.take 24 ++ (cmac c.kc (c.uid ++ b.take 24)).take 8

/-- Profile slots (16 R389, Table CL-9): the newer valid one, 3 or 4. -/
def profValid (r : List Byte) : Bool := fld r 28 4 == crc32 (r.take 28)
def profSlot (c : CardRun) : Option Nat :=
  let a := nth c.recs 3 []
  let b := nth c.recs 4 []
  if profValid a && profValid b then some (if seqNewer (fld b 0 1) (fld a 0 1) then 4 else 3)
  else if profValid a then some 3 else if profValid b then some 4 else none

/-- The staged write of the card is carried out (16 R389 D1, D2); then the transaction ends. -/
def doProfile (n : Nat) (s : State) : State :=
  let q := getNf s n
  let c := q.card
  match s.nf.staged.find? fun g => g.uid == c.uid with
  | none => finishCard n s
  | some g =>
    if c.ks.isEmpty then finishCard n s
    else if !(c.lms.length == 3 && c.lms.all fun a => decide (nfOpt q 10 2 ≤ a)) then finishCard n (cardEv n 6 0 s)
    else
      let d := draw s
      let (slot, seq, s1) := match profSlot c with
        | some k => (7 - k, (fld (nth c.recs k []) 0 1 + 1) % 256, s)
        | none => (3, d.1 % 256, d.2)
      let b := [byteOf seq, byteOf g.data.length] ++ padTo 26 g.data
      sendWrite n 16 slot (b ++ le 4 (crc32 b)) (updCard n (fun c => { c with prof := some g }) s1)

/-- A step of the absorption that reads a record with a pending write goes on once that write has committed (01 R33). -/
def waitRecord (n a step : Nat) (s : State) : State :=
  nfSend n 11 (getNf s n).tx (updCard n (fun c => { c with purse := step }) (afterWrite a (.purse n) s))

/-- Step 2 of the absorption: the amount is pending in the ledger (14 Table PP-9). -/
def absorb (n : Nat) (s : State) : State :=
  let c := (getNf s n).card
  match c.acct, c.use with
  | some a, some u =>
    if (pendRec s a).isSome then waitRecord n a 1 s else
    let iss := fld u 8 8
    let d := iss - fld u 16 8
    match ledView s a with
    | some r =>
      if d == 0 then doProfile n s
      else nfSend n 11 (getNf s n).tx (updCard n (fun c => { c with purse := 2 })
        (ledWrite 1 a (putF (putF r 64 (le 8 iss)) 72 (le 8 d)) [] [.purse n] s))
    | none => doProfile n s
  | _, _ => doProfile n s

/-- Step 1: a pending absorption is resolved (14 Table PP-9). -/
def resolvePurse (n : Nat) (s : State) : State :=
  let c := (getNf s n).card
  match c.acct, c.use with
  | some a, some u =>
    if (pendRec s a).isSome then waitRecord n a 6 s else
    match ledView s a with
    | some r =>
      if !(fld r 6 2).testBit 2 || !rdy s rLedger then doProfile n s
      else if fld r 64 8 == 0 then absorb n s
      else
        let clear := putF r 64 (zeros 16)
        let mine := fld u 16 8 == fld r 64 8 && bytesAt u 4 4 == hubTag s
        let r1 := if mine then putF clear 16 (leI 8 (recBal r + (fld r 72 8 : Int))) else clear
        let s1 := if mine then s else creditEvent 0xFF 5 0 0 a (fld r 72 8) s
        nfSend n 11 (getNf s n).tx (updCard n (fun c => { c with purse := 1 }) (ledWrite 1 a r1 [] [.purse n] s1))
    | none => doProfile n s
  | _, _ => doProfile n s

/-- The lowest port of the front-end's PORTS in state B1 or B2 without a permit (14 R345). -/
def autoPort (s : State) (n : Nat) : Option Nat :=
  let m := tf s 0x0A01 (4 + 4 * n) 4
  (List.range 24).find? fun p => m.testBit p && !(getPort s p).hs.permit && (getPort s p).se.stage == 0 &&
    ((getPort s p).hs.st == 3 || (getPort s p).hs.st == 4)

/-- AP receives the UID and the records (14 R345, R357): token block, session, purse. -/
def toAp (n : Nat) (s : State) : State :=
  let c := (getNf s n).card
  let a := (uidFind s c.uid).map (·.2)
  let s0 := updCard n (fun c => { c with acct := a }) s
  let tok := nth c.recs 5 []
  let s1 := if fld tok 0 1 == 1 && rdy s rLedger && rdy s rAP then (applyToken tok (fun _ => []) s0).2 else s0
  match a with
  | none => resolvePurse n s1
  | some k =>
    let ev := fun (s : State) => creditEvent 0xFF 1 0 0 k (rdLE (c.uid.take 8)) s
    let s2 := if !rdy s rAP || !rdy s rLedger then s1
      else match (if tf s 0x0A01 n 1 == 1 then autoPort s1 n else none) with
        | some p =>
          let r := openSession p k (1 + n) 0xFF s1
          if r.1.isNone then r.2
          else if (pendRec s1 k).isSome && (portChecks s1 p).isNone then
            afterWrite k (.credit 0xFF 1 0 0 k (rdLE (c.uid.take 8))) r.2
          else ev r.2
        | none => ev s1
    resolvePurse n s2

/-- The counters are judged once the records are read (16 R387). -/
def judgeCounters (n : Nat) (s0 : State) : State :=
  let c := (getNf s0 n).card
  if !(fld (nth c.recs 0 []) 1 1).testBit 0 then toAp n s0
  else
    let p := nth c.recs 1 []
    let k := nth c.recs 2 []
    let vp := ctrValid c p
    let vk := ctrValid c k
    let s := aesRun { client := 1, left := 40 } (aesRun { client := 1, left := 40 } s0)
    if (!vp && !vk) || (vp && vk && fld p 0 1 == fld k 0 1 && p != k) then toAp n (cardEv n 10 0 s)
    else
      let useP := !vk || (vp && seqNewer (fld p 0 1) (fld k 0 1))
      let u := if useP then p else k
      let s1 := updCard n (fun c => { c with use := some u }) s
      if vp && vk && p == k then toAp n s1
      else sendWrite n 10 (if useP then 2 else 1) u s1

/-- A card without the application, or one that refuses it (16 R385). -/
def noApp (n status : Nat) (s : State) : State :=
  if nfOpt (getNf s n) 13 1 == 1 then toAp n s else refuse n status s

/-- The card application is selected. -/
def selectApp (n : Nat) (s : State) : State := nfApp n 6 ([0xA0] ++ le 4 0x00012484) s

/-- A card is selected (16 R380, R383, R385). -/
def cardSelected (n sak : Nat) (s : State) : State :=
  let q := getNf s n
  let p4 := sak.testBit 5
  let recent := q.handled.any fun h => h.1 == q.card.uid && decide (now s < h.2 + 8 * nfOpt q 8 2)
  let s1 := cardEv n 1 0 (updNf n (fun q => { q with
    cards := sat32 q.cards, card := { q.card with part4 := p4 && !recent } }) s)
  if recent then nfSend n 19 [0x50, 0x00] s1
  else if p4 then nfSend n 4 [0xE0, 0x80] s1
  else noApp n 0 s1

/-- The answer to ANTICOLLISION: five bytes of the level, and the first collided bit, 40 or more for none (16 R383). -/
def onAnti (n : Nat) (ans : List Byte) (pos : Nat) (s : State) : State :=
  let c := (getNf s n).card
  let k := c.known.length
  let bits := bitsOfBytes (padTo 5 ans)
  if pos < 40 then
    sendAnti n (updCard n (fun c => { c with known := c.known ++ (bits.drop k).take (pos - k) ++ [true] }) s)
  else
    let all := c.known ++ bits.drop k
    let b := bytesOfBits all
    let x := fun i => nth b i 0
    if (x 0 ^^^ x 1 ^^^ x 2 ^^^ x 3) != x 4 then
      if 3 ≤ c.restarts then endPoll n (cardEv n 9 0 s)
      else sendAnti n (updCard n (fun c => { c with known := [], restarts := c.restarts + 1 }) s)
    else nfSend n 3 ([selByte c.level, 0x70] ++ b) (updCard n (fun c => { c with known := all }) s)

/-- The answer to SELECT (16 R383): a UID not complete goes on at the next level. -/
def onSelect (n sak : Nat) (s : State) : State :=
  let c := (getNf s n).card
  let b := bytesOfBits c.known
  if sak.testBit 2 then
    sendAnti n (updCard n (fun c => { c with
      uid := c.uid ++ bytesAt b 1 3, level := min 2 (c.level + 1), known := [], restarts := 0 }) s)
  else cardSelected n sak (updCard n (fun c => { c with uid := c.uid ++ b.take 4 }) s)

/-- The answer to RATS (16 Table CL-4): 212 kbit/s by PPS where both allow it. -/
def onRats (n : Nat) (ats : List Byte) (s : State) : State :=
  let ta := if (fld ats 1 1).testBit 4 then fld ats 2 1 else 0
  let s1 := updCard n (fun c => { c with bn := 0, fsc := if ats.length < 2 then 32 else frameSize (fld ats 1 1 % 16) }) s
  if nfOpt (getNf s n) 1 1 == 1 && ta.testBit 0 && ta.testBit 4 then nfSend n 5 [0xD0, 0x11, 0x05] s1 else selectApp n s1

/-- The answer to AUTH_1: the session key is derived and AUTH_2 sent (16 R386). -/
def onAuth1 (n : Nat) (ans : List Byte) (s : State) : State :=
  let rc := bytesAt ans 1 16
  match slotKey s 4 3 with
  | some km =>
    if s.vault.rngBad then refuse n 1 s
    else if fld ans 0 1 != 0 || ans.length != 17 then refuse n (fld ans 0 1) s
    else
      let r := randomBytes 16 s
      let kc := cmac km (padTo 16 (getNf s n).card.uid)
      let ks := cmac kc ([1] ++ r.1 ++ rc)
      nfApp n 8 ([0xA2] ++ r.1 ++ cmac ks ([0x52] ++ rc ++ r.1))
        (updCard n (fun c => { c with rc := rc, rr := r.1, kc := kc, ks := ks, ctr := 1 })
          (aesRun { client := 1, left := 66 } (aesRun { client := 1, slot := some (4, 3), left := 16 } r.2)))
  | none => refuse n 1 s

/-- The keys Kc and Ks under the previous card master key (16 R386, 19 R450). -/
def oldKeys (s : State) (c : CardRun) : Option (List Byte × List Byte) :=
  (slotKey s 14 3).map fun km =>
    let kc := cmac km (padTo 16 c.uid)
    (kc, cmac kc ([1] ++ c.rr ++ c.rc))

/-- The answer to AUTH_2 (16 R386); a MAC that does not verify is checked once more under the previous key (19 R450). -/
def onAuth2 (n : Nat) (ans : List Byte) (s : State) : State :=
  let c := (getNf s n).card
  let good := fun (ks : List Byte) => bytesAt ans 1 16 == cmac ks ([0x43] ++ c.rr ++ c.rc)
  if fld ans 0 1 != 0 || c.ks.isEmpty then refuse n (max 1 (fld ans 0 1)) s
  else if good c.ks then sendRead n 9 0 s
  else
    let s1 := aesRun { client := 1, slot := some (14, 3), left := 16 } s
    match oldKeys s c with
    | some (kc, ks) => if good ks then sendRead n 9 0 (updCard n (fun c => { c with kc := kc, ks := ks }) s1) else refuse n 1 s1
    | none => refuse n 1 s1

/-- The answer to READ of records 0 to 5 (16 R385). -/
def onRead (n : Nat) (ans : List Byte) (s : State) : State :=
  let c := (getNf s n).card
  if !rspOk c ans 32 then refuse n (badRsp ans) s
  else
    let s1 := updCard n (fun c => { c with recs := c.recs ++ [bytesAt ans 1 32] }) s
    if c.rcd < 5 then sendRead n 9 (c.rcd + 1) s1 else judgeCounters n s1

/-- A value write ends the transaction (16 R388). -/
def valueAbort (n result : Nat) (s : State) : State :=
  haltCard n (cardEv n 4 result (updNf n (fun q => { q with aborts := sat32 q.aborts }) s))

/-- The answer to a WRITE of counters: it is read back (16 R388). -/
def onValueWrite (n : Nat) (ans : List Byte) (s : State) : State :=
  let q := getNf s n
  if rspOk q.card ans 0 then sendRead n (q.ph + 1) q.card.slot s else valueAbort n (badRsp ans) s

/-- The read-back of counters: compared, written once more, or the next step (16 Table CL-10, 14 Table PP-9 step 4). -/
def onValueRead (n : Nat) (ans : List Byte) (s : State) : State :=
  let q := getNf s n
  let c := q.card
  if !rspOk c ans 32 then valueAbort n (badRsp ans) s
  else if bytesAt ans 1 32 != c.wr then
    if c.bad != 0 then valueAbort n 0 s
    else sendWrite n (q.ph - 1) c.slot c.wr (updCard n (fun c => { c with bad := 1 }) s)
  else if q.ph == 13 then sendWrite n 14 1 c.wr (updCard n (fun c => { c with bad := 0 }) s)
  else match c.acct with
    | some a =>
      nfSend n 11 q.tx (updCard n (fun c => { c with purse := 4 })
        (seAsk { cls := 3, data := [le 4 a], after := [.verified n a] } s))
    | none => doProfile n s

/-- Step 5: the amount is credited (14 Table PP-9). -/
def creditPurse (a : Nat) (after : List Follow) (s : State) : State :=
  match ledView s a with
  | some r =>
    if fld r 64 8 == 0 then s
    else ledWrite 1 a (putF (putF r 64 (zeros 16)) 16 (leI 8 (recBal r + (fld r 72 8 : Int)))) [] after s
  | none => s

/-- CARD_VERIFIED is in the journal (14 Table PP-9 step 5). -/
def onVerified (n a : Nat) (s : State) : State :=
  let s1 := { s with qr := { s.qr with verified := s.qr.verified ++ [a] } }
  let mine := (getNf s n).ph == 11 && (getNf s n).card.acct == some a && (getNf s n).card.purse == 4
  creditPurse a [.purse n] (if mine then updCard n (fun c => { c with purse := 5 }) s1 else s1)

/-- SE has done a step of the absorption; the reader goes on if the card is still there (14 Table PP-9). -/
def onPurse (n : Nat) (s : State) : State :=
  let q := getNf s n
  let c := q.card
  if q.ph != 11 then s
  else match c.purse, c.use with
    | 1, _ => absorb n (updCard n (fun c => { c with purse := 0 }) s)
    | 6, _ => resolvePurse n (updCard n (fun c => { c with purse := 0 }) s)
    | 2, some u =>
      let b := [byteOf (fld u 0 1 + 1), 1, 0, 0] ++ hubTag s ++ bytesAt u 8 8 ++ bytesAt u 8 8
      if c.ks.isEmpty then refuse n 1 s
      else sendWrite n 12 2 (ctrRecord c b) (aesRun { client := 1, left := 40 } (updCard n (fun c => { c with purse := 0, bad := 0 }) s))
    | 5, _ => doProfile n (updCard n (fun c => { c with purse := 0 }) s)
    | _, _ => s

/-- The answer to a profile WRITE and its read-back (16 R389 D2, D3). -/
def onProfWrite (n : Nat) (ans : List Byte) (s : State) : State :=
  let c := (getNf s n).card
  if rspOk c ans 0 then sendRead n 17 c.slot s else finishCard n (cardEv n 6 (badRsp ans) s)
def onProfRead (n : Nat) (ans : List Byte) (s : State) : State :=
  let c := (getNf s n).card
  if rspOk c ans 32 && bytesAt ans 1 32 == c.wr then
    finishCard n (cardEv n 5 0 { s with nf := { s.nf with staged := s.nf.staged.filter fun g => c.prof != some g } })
  else finishCard n (cardEv n 6 (if rspOk c ans 32 then 0 else badRsp ans) s)

/-- The answer to the repair write (16 R387). -/
def onRepair (n : Nat) (ans : List Byte) (s : State) : State :=
  if rspOk (getNf s n).card ans 0 then
    toAp n (cardEv n 3 0 (updNf n (fun q => { q with recovered := sat32 q.recovered }) s))
  else valueAbort n (badRsp ans) s

/-- The INF of an answer of the card application; the MAC of one under the session key is a job of the AES engine (16 R385,
R386). -/
def onInf (n : Nat) (ans : List Byte) (s0 : State) : State :=
  let q := getNf s0 n
  let s := if 8 ≤ q.ph && !q.card.ks.isEmpty then aesRun { client := 1, left := ans.length } s0 else s0
  match q.ph with
  | 6 => if fld ans 0 1 == 0 && fld ans 1 1 == 1 then nfApp n 7 [0xA1, 0] s else noApp n (fld ans 0 1) s
  | 7 => onAuth1 n ans s
  | 8 => onAuth2 n ans s
  | 9 => onRead n ans s
  | 10 => onRepair n ans s
  | 12 => onValueWrite n ans s
  | 13 => onValueRead n ans s
  | 14 => onValueWrite n ans s
  | 15 => onValueRead n ans s
  | 16 => onProfWrite n ans s
  | 17 => onProfRead n ans s
  | _ => s

/-- A block from the card (16 Table CL-4): S(WTX) is granted, a chained I-block is acknowledged, R(ACK) brings the next block
of a chain or the last one again, and a block that fits none of these is asked for again, at most twice (log 154). -/
def cardBlock (n : Nat) (blk : List Byte) (s : State) : State :=
  let q := getNf s n
  let c := q.card
  let pcb := fld blk 0 1
  if pcb == 0xF2 && blk.length == 2 then nfSend n q.ph [0xF2, byteOf (fld blk 1 1 % 64)] s
  else if pcb == 2 + c.bn then
    onInf n (c.acc ++ blk.drop 1) (updCard n (fun c => { c with bn := 1 - c.bn, acc := [], naks := 0 }) s)
  else if pcb == 0x12 + c.bn then
    nfSend n q.ph [byteOf (0xA2 + (1 - c.bn))] (updCard n (fun c => { c with
      bn := 1 - c.bn, acc := c.acc ++ blk.drop 1, naks := 0 }) s)
  else if pcb == 0xA2 + c.bn && !c.out.isEmpty then
    sendPart n q.ph (updCard n (fun c => { c with bn := 1 - c.bn, naks := 0 }) s)
  else if pcb == 0xA2 + (1 - c.bn) then nfSend n q.ph c.last s
  else if c.naks < 2 then nfSend n q.ph [byteOf (0xB2 + c.bn)] (updCard n (fun c => { c with naks := c.naks + 1 }) s)
  else onInf n [] s

/-- CARD_RESPONSE (16 R380 to R389): the answer's bytes without CRC, for ANTICOLLISION the first collided bit (40 for none),
and the load-modulation amplitude. -/
def cardResponse (n : Nat) (ans : List Byte) (pos lm : Nat) (s : State) : State :=
  if !nfUp s n || !(getNf s n).carrier || (getNf s n).ph == 0 || (getNf s n).ph == 11 then s
  else
    let s1 := updCard n (fun c => { c with lms := (lm :: c.lms).take 3 }) s
    match (getNf s n).ph with
    | 1 => sendAnti n s1
    | 2 => onAnti n ans pos s1
    | 3 => onSelect n (fld ans 0 1) s1
    | 4 => onRats n ans s1
    | 5 => selectApp n s1
    | 18 => sendReqa n 1 s1
    | 19 => sendReqa n 1 s1
    | _ => cardBlock n ans s1

def execCardResponse (n : Nat) (ans : List Byte) (pos lm : Nat) (s : State) : Out := .next (gated (s.clk.nfRun && s.clk.plln) (cardResponse n ans pos lm) s)

/-- CARD_FRAME_WAIT_EXPIRY (16 R380): after 3 unanswered REQAs the poll ends; any other exchange ends. -/
def cardExpiry (n : Nat) (s : State) : State :=
  let q := getNf s n
  if !nfUp s n || !q.carrier || q.ph == 0 || q.ph == 11 then s
  else if q.ph == 1 then (if q.reqa < 3 then sendReqa n (q.reqa + 1) s else endPoll n s)
  else if q.ph == 10 || (12 ≤ q.ph && q.ph ≤ 15) then
    sendReqa n 1 (cardEv n 4 0 (updNf n (fun q => { q with aborts := sat32 q.aborts }) s))
  else if q.ph == 16 || q.ph == 17 then sendReqa n 1 (cardEv n 6 0 s)
  else sendReqa n 1 s

def execCardFrameWaitExpiry (n : Nat) (s : State) : Out := .next (gated (s.clk.nfRun && s.clk.plln) (cardExpiry n) s)

/-- FD_WAKE (16 R392). -/
def fdWake (s : State) : Bool := s.nf.fe.any fun q => q.wake

/-- The mode of a front-end: the one in force, before any is applied that of the table (16 R377). -/
def modeOf (s : State) (n : Nat) : Nat :=
  let q := getNf s n
  if q.cfg.isEmpty then fld (nfTab s n) 0 1 else nfMode q

/-- FIELD_DETECT (16 R392): a field that held for 1 ms; a new field draws a new UID (R391). The detector works in every power
state, OFF-HOLD included (R381, 24 R533). While the random source is failed there is no UID, and CARD_EVENT 9 says so (19
R452). -/
def fieldDetect (n : Nat) (s : State) : State :=
  let q := getNf s n
  let m := modeOf s n
  let live := s.boot.phase != .reset || s.pw.mode == 3
  if n < 2 && (m == 2 || m == 3) && !q.carrier && !q.field && !fencedB s 4 n && live then
    let s0 := wakeFire (1 + n) n s
    let r := if s.vault.rngBad then ([], cardEvent n 9 1 [] s0) else
      let d := randomBytes 3 s0
      (0x08 :: d.1, d.2)
    updNf n (fun q => { q with
      field := true, ended := none, wake := true, wakes := sat32 q.wakes, emuUid := r.1, emu := 0, emuHalt := false
      eout := [], elast := [] })
      { r.2 with clk := { r.2.clk with nfSrc := true, nfRun := true } }
  else s

def execFieldDetect (n : Nat) (s : State) : Out := .next (fieldDetect n s)

/-- A maintenance session closes (16 R394). -/
def closeMaint (n : Nat) (s : State) : State :=
  if (getNf s n).mks.isSome then
    cardEvent n 8 0 [] (updNf n (fun q => { q with mks := none, mctr := 0, mBusy := false, eout := [] }) s)
  else s

/-- FIELD_END (16 R392, R394). -/
def fieldEnd (n : Nat) (s : State) : State :=
  if (getNf s n).field then
    let s1 := closeMaint n (updNf n (fun q => { q with field := false, ended := some (now s), emu := 0, rh := [] }) s)
    if s1.nf.fe.any fun q => q.field then s1
    else { s1 with clk := { s1.clk with nfSrc := false, nfRun := s1.clk.plln } }
  else s

def execFieldEnd (n : Nat) (s : State) : Out := .next (fieldEnd n s)

/-- The next block of LE's answer in emulation: as much as the reader's frame takes, chained while more follows (16 R393). -/
def emuPart (q : Nf) : Nf :=
  let rest := q.eout.drop (q.efsd - 3)
  let b := iBlock q.ebn (!rest.isEmpty) (q.eout.take (q.efsd - 3))
  { q with eout := rest, tx := b, elast := b }

/-- The framer's answer to a block (16 R391, Table CL-4): an I-block gets S(WTX), a chained one R(ACK); the reader's S(WTX)
brings LE's answer once there is one, R(ACK) the next block of its chain or the last block again. -/
def emuBlock (q : Nf) (f : List Byte) : Nf :=
  let pcb := fld f 0 1
  let put := fun (b : List Byte) (q : Nf) => ({ q with tx := b, elast := b } : Nf)
  if pcb == 0xC2 then { q with emu := 3, tx := [0xC2], eout := [] }
  else if pcb == 0xD0 && q.elast.isEmpty then { q with tx := [0xD0] }
  else if pcb == 2 || pcb == 3 then put [0xF2, 0x01] { q with ebn := 1 - q.ebn, eout := [] }
  else if pcb == 0x12 || pcb == 0x13 then put [byteOf (0xA2 + (1 - q.ebn))] { q with ebn := 1 - q.ebn, eout := [] }
  else if pcb == 0xF2 then (if q.eout.isEmpty then put [0xF2, 0x01] q else emuPart q)
  else if pcb == 0xA2 + q.ebn || pcb == 0xB2 + q.ebn then { q with tx := q.elast }
  else if pcb == 0xB2 + (1 - q.ebn) then { q with tx := [byteOf (0xA2 + q.ebn)] }
  else if pcb == 0xA2 + (1 - q.ebn) && !q.eout.isEmpty then emuPart { q with ebn := 1 - q.ebn }
  else { q with tx := [] }

/-- The framer in emulation (16 R391, Table CL-4): its state after a frame, and its answer. -/
def emuAnswer (q : Nf) (f : List Byte) : Nf :=
  let c := fld f 0 1
  let u := q.emuUid
  let bcc := u.foldl (· ^^^ ·) 0
  let all := bitsOfBytes (u ++ [bcc])
  let put := fun (st : Nat) (a : List Byte) => ({ q with emu := st, tx := a } : Nf)
  let back := if q.emu == 3 || q.emuHalt then 3 else 0
  if q.emu == 4 then emuBlock q f
  else if f.length == 1 && (c == 0x52 || (c == 0x26 && q.emu != 3)) then
    if q.emu == 2 || q.emu == 1 then { q with emu := back, tx := [] }
    else { q with emu := 1, emuHalt := q.emu == 3, tx := [0x04, 0x00] }
  else if q.emu == 1 && c == 0x93 then
    let nvb := fld f 1 1
    let k := 8 * (nvb / 16 - 2) + nvb % 16
    let got := (bitsOfBytes (f.drop 2)).take k
    if got != all.take k then { q with emu := back, tx := [] }
    else if nvb == 0x70 then put 2 [0x20]
    else put 1 (bytesOfBits (all.drop k))
  else if q.emu == 2 && c == 0xE0 then
    { put 4 [0x05, 0x78, 0x11, 0x80, 0x00] with ebn := 1, efsd := frameSize (fld f 1 1 / 16), eout := [], elast := [] }
  else if q.emu == 2 && c == 0x50 then { q with emu := 3, tx := [] }
  else { q with emu := back, tx := [] }

/-- EMULATION_FRAME (16 R391): the framer answers a reader's frame in every power state, in mode 2 between pings and in mode
3; S(DESELECT) ends a maintenance session (R394). -/
def emulationFrame (n : Nat) (f : List Byte) (s : State) : State :=
  let q := getNf s n
  if n < 2 && q.field && (modeOf s n == 2 || modeOf s n == 3) && !q.carrier && !q.emuUid.isEmpty && !fencedB s 4 n then
    let s1 := updNf n (fun q => emuAnswer q f) s
    if (getNf s n).emu == 4 && (getNf s1 n).emu == 3 then closeMaint n s1 else s1
  else s

def execEmulationFrame (n : Nat) (f : List Byte) (s : State) : Out := .next (gated s.clk.nfRun (emulationFrame n f) s)

/-- An envelope is ready; it goes out with the reader's next S(WTX) (16 Table CL-11, R393). -/
def maintTx (n ty ctr : Nat) (body mac : List Byte) (s : State) : State :=
  updNf n (fun q => { q with eout := [byteOf ty, 0] ++ le 4 ctr ++ body ++ mac }) s
def maintErr (n reason : Nat) (s : State) : State := maintTx n 0xFF 0 [byteOf reason] [] s

/-- Ks of a maintenance session under the maintenance key of a slot, where MAC_T verifies (16 R394). -/
def maintKs (s : State) (slot : Nat) (rh body : List Byte) : Option (List Byte) :=
  match slotKey s slot 3 with
  | some km =>
    let ks := cmac km ([1] ++ body.take 16 ++ rh)
    if bytesAt body 16 16 == cmac ks ([0x54] ++ rh ++ body.take 16) then some ks else none
  | none => none

/-- AUTH_2 of a maintenance tool (16 R394); a MAC that does not verify is checked once more under the previous key (19
R450). -/
def maintAuth2 (n : Nat) (body : List Byte) (s : State) : State :=
  let q := getNf s n
  let job := fun (k : Nat) => aesRun { client := 1, slot := some (k, 3), left := 48 }
  let s1 := job 5 s
  let a := maintKs s 5 q.rh body
  let s2 := if a.isSome then s1 else job 15 s1
  if (slotKey s 5 3).isNone then cardEvent n 9 1 [] (maintErr n 1 s1)
  else if q.rh.isEmpty || body.length != 32 then maintErr n 1 s1
  else match a.orElse fun _ => maintKs s 15 q.rh body with
    | some ks =>
      cardEvent n 7 0 [] (maintTx n 0x82 0 (cmac ks ([0x48] ++ body.take 16 ++ q.rh)) []
        (updNf n (fun q => { q with mks := some ks, mctr := 0, mAt := now s, wake := false, rh := [], mBusy := false }) s2))
    | none => maintErr n 1 s2

/-- MESSAGE of a maintenance tool (16 R394, 04 R116). -/
def maintMessage (n : Nat) (env : List Byte) (s : State) : State :=
  let q := getNf s n
  match q.mks with
  | none => maintErr n 1 s
  | some ks =>
    let m := env.take (env.length - 8)
    let msg := m.drop 6
    let ctr := fld env 2 4
    if env.length < 14 || ks.isEmpty || (cmac ks m).take 8 != env.drop (env.length - 8) then maintErr n 2 s
    else if ctr ≤ q.mctr then maintErr n 3 s
    else if (chan s (6 + n)).st != .idle || 2048 < msg.length then maintErr n 5 s
    else
      let put := fun (s : State) => { s with link := { s.link with mem := memWriteBytes s.link.mem (reqBase (6 + n)) msg } }
      let s0 := fwWrite .le .maintReq (reqBase (6 + n)) put s
      let s1 := { s0 with link := { s0.link with
        chans := s0.link.chans.modify (6 + n) fun k => { k with st := .pending, since := now s0 } } }
      updNf n (fun q => { q with mctr := ctr, mAt := now s, mBusy := true }) s1

/-- MAINT_ENVELOPE (16 R393, R394). -/
def maintEnvelope (n : Nat) (env : List Byte) (s : State) : State :=
  let q := getNf s n
  if !(nfUp s n && q.field && q.emu == 4) then s
  else if nfOpt q 12 1 != 1 then maintErr n 4 s
  else match fld env 0 1 with
    | 0x01 =>
      if s.vault.rngBad then cardEvent n 9 1 [] (maintErr n 1 s)
      else
        let r := randomBytes 16 s
        maintTx n 0x81 0 r.1 [] (updNf n (fun q => { q with rh := r.1 }) r.2)
    | 0x02 => maintAuth2 n (env.drop 6) s
    | 0x10 => maintMessage n env (aesRun { client := 1, left := env.length } s)
    | _ => maintErr n 1 s

def execMaintEnvelope (n : Nat) (env : List Byte) (s : State) : Out := .next (gated s.clk.nfRun (maintEnvelope n env) s)

/-- MAINT_SESSION_TIMEOUT (16 R394). -/
def maintTimeout (n : Nat) (s : State) : State :=
  if n < 2 && (getNf s n).mks.isSome && (getNf s n).mAt + 480000 ≤ now s then closeMaint n s else s

def execMaintSessionTimeout (n : Nat) (s : State) : Out := .next (maintTimeout n s)

/-- LE returns the response of a maintenance channel and releases its buffer; once its session has ended, or the path is
closed, it is discarded (16 R393, R394). During a supply loss LE sends no frame (R390). -/
def maintReturn (n : Nat) (s : State) : State :=
  if (chan s (6 + n)).st == .respReady && imgActive s 4 && busRun s && s.eg.pfailTick.isNone then
    let q := getNf s n
    let len := rdLE (memReadBytes s.link.mem (respBase (6 + n) + 8) 4)
    let msg := memReadBytes s.link.mem (respBase (6 + n)) (16 + len)
    let body := [0x90, 0] ++ le 4 q.mctr ++ msg
    let s1 := match q.mks with
      | some ks =>
        if q.mBusy && !ks.isEmpty && nfOpt q 12 1 == 1 then
          updNf n (fun q => { q with eout := body ++ (cmac ks body).take 8 }) (aesRun { client := 1, left := body.length } s)
        else s
      | none => s
    setChan (6 + n) .idle (updNf n (fun q => { q with mBusy := false }) s1)
  else s

/-- The front-ends in one tick: FD_WAKE falls 100 ms after the field, responses return, an idle front-end off or in
emulation takes its options (16 R377, R392, R394). -/
def nfTick (s : State) : State :=
  foldN 2 (fun n s =>
    let s1 := maintReturn n (updNf n (fun q => { q with
      wake := q.wake && !(q.ended.any fun t => decide (t + 800 ≤ now s)) }) s)
    let q := getNf s1 n
    if nfUp s n && q.ph == 0 && (q.cfg.isEmpty || ((nfMode q == 0 || nfMode q == 3) && q.nextPing ≤ now s)) then
      applyCfg n (updNf n (fun q => { q with nextPing := now s + 8 * (max 50 (fld (nfTab s n) 4 2)) }) s1)
    else s1) s

/-- Both carriers off: LE starts no further frame (16 R390). -/
def nfCut (s : State) : State :=
  foldN 2 (fun n s => updNf n (fun q => { q with
    carrier := false, ph := 0, card := {}, rebase := q.rebase || q.carrier
    nextPing := if q.carrier then now s + 80 else q.nextPing }) s) s

/-- NF_STATUS (16 Table CL-14). -/
def nfEntry (s : State) (n : Nat) : List Byte :=
  let q := getNf s n
  let st := if fencedB s 4 n then 5 else if nfMode q == 0 then 0 else if q.mks.isSome then 4
    else if q.ph == 0 then 1 else if q.ph < 4 then 2 else 3
  [byteOf (nfMode q), byteOf st, byteOf (b2n s.clk.nfSrc), 0] ++ le 2 (rnd 27 q.aBase).toNat ++ leI 2 (rnd 28 q.phiBase) ++
  le 2 q.delta ++ [0, 0] ++ le 4 q.pings ++ le 4 q.skipped ++ le 4 q.polls ++ le 4 q.cards ++ le 4 q.recovered ++
  le 4 q.aborts ++ le 4 q.wakes
def nfStatusBody (_ : List Byte) (s : State) : Served :=
  if !rdy s rLE then no 0x0CF0 s
  else ok 0x0C00 (nfEntry s 0 ++ nfEntry s 1 ++ le 4 s.nf.staged.length) s

def execNfStatus (ch : Nat) (s : State) : Out := .next (serve 0x0C01 (len 0) nfStatusBody ch s)

/-- CARD_DATA_STAGE (16 Table CL-15). -/
def cardStageBody (pl : List Byte) (s : State) : Served :=
  let u := fld pl 0 1
  let l := fld pl 12 1
  let uid := bytesAt pl 2 u
  let rest := s.nf.staged.filter fun g => g.uid != uid
  if !rdy s rLE then no 0x0CF0 s
  else if !([4, 7, 10].contains u && (l ≤ 26 || l == 0xFF)) then no 0x0CF1 s
  else if l != 0xFF && rest.length == 16 then no 0x0C11 s
  else
    let g := if l == 0xFF then rest else rest ++ [{ uid := uid, data := bytesAt pl 14 l, at_ := now s }]
    ok 0x0C00 (le 4 g.length) { s with nf := { s.nf with staged := g } }

def execCardDataStage (ch : Nat) (s : State) : Out := .next (serve 0x0C02 (len 40) cardStageBody ch s)

/-- PROFILE_WRITE_EXPIRY (16 R389): 30 days after staging. -/
def profileExpiry (s : State) : State :=
  { s with nf := { s.nf with staged := s.nf.staged.filter fun g => decide (now s < g.at_ + 20736000000) } }

def execProfileWriteExpiry (s : State) : Out := .next (profileExpiry s)

/-- Table 0x0C01 (16 R377). -/
def check0C01 (b : List Byte) : Option Nat :=
  if (List.range 2).all (fun n =>
       let o := 16 * n
       decide (fld b o 1 ≤ 3 ∧ fld b (o + 1) 1 ≤ 1) && within b (o + 2) 1 10 60 && within b (o + 3) 1 4 64 &&
       within b (o + 4) 2 50 2000 && within b (o + 6) 2 5 500 && decide (fld b (o + 8) 2 ≤ 10000) &&
       within b (o + 10) 2 50 4000 && decide (fld b (o + 12) 1 ≤ 1 ∧ fld b (o + 13) 1 ≤ 1) && allZero b (o + 14) 2)
  then none else some 0x0C12

end Sys2Proof.Machine
end

