-- ==== Sys2Proof/Machine/Scan.lean ====
section
/-!
DEFINITION. The scan of the display controller: pixels, the gate signals and the link word (23 R509 to R514).
-/

namespace Sys2Proof.Machine

def updDisp (f : Disp → Disp) (s : State) : State := { s with disp := f s.disp }

/-- The panel timing in force (23 Table DC-3). -/
def dispTim (s : State) : List Byte := if s.disp.tim.isEmpty then tab s 0x1301 else s.disp.tim
def hActive (s : State) : Nat := fld (dispTim s) 0 2
def vActive (s : State) : Nat := fld (dispTim s) 4 2
def dispFormat (s : State) : Nat := fld (dispTim s) 11 1
/-- Pixels of a line and lines of a frame, blanking included (23 R511). -/
def hTotal (s : State) : Nat := hActive s + fld (dispTim s) 2 2
def vTotal (s : State) : Nat := vActive s + fld (dispTim s) 6 2
/-- Pixel of a line at which CPV rises, and at which it falls (23 R511). -/
def cpvRise (s : State) : Nat := fld (dispTim s) 12 2
def cpvFall (s : State) : Nat := cpvRise s + fld (dispTim s) 14 2

/-- Base of the shown surface (23 Table DC-4). -/
def surfBase (s : State) : Nat := if s.disp.shown == 1 then 0x5DC00 else 0
/-- A colour of k bits in 8, its high bits repeated (23 R513). -/
def expand (k v : Nat) : Nat := v * 2 ^ (8 - k) + v / 2 ^ (2 * k - 8)
/-- Red, green, blue of an RGB value of 32 bits (23 R513). -/
def rgbOf (v : Nat) : List Nat := [bitsAt v 16 8, bitsAt v 8 8, bitsAt v 0 8]
def dispBytes (s : State) (a n : Nat) : Nat := rdLE (memReadBytes s.disp.mem a n)

/-- A pixel of the shown surface (23 R513). -/
def surfacePixel (s : State) (x y : Nat) : List Nat :=
  let i := y * hActive s + x
  if dispFormat s == 0 then
    let v := dispBytes s (surfBase s + 2 * i) 2
    [expand 5 (bitsAt v 11 5), expand 6 (bitsAt v 5 6), expand 5 (bitsAt v 0 5)]
  else rgbOf (dispBytes s (0xC7BC0 + 4 * dispBytes s (surfBase s + i) 1) 4)
/-- The attribute of the tile of a pixel (23 R514). -/
def tileAttr (s : State) (x y : Nat) : Nat :=
  let t := y / 8 * ((hActive s + 7) / 8) + x / 8
  bitsAt (dispBytes s (0xC73C0 + t / 4) 1) (2 * (t % 4)) 2
/-- A blinking tile shows BLINK_RGB in the second part of its period (23 R514). -/
def blinked (s : State) (x y : Nat) : Bool :=
  let hides := fun (n : Nat) => decide (n / 2 ≤ s.disp.frame % n)
  match tileAttr s x y with
  | 1 => hides (fld (dispTim s) 21 1)
  | 2 => hides (fld (dispTim s) 22 1)
  | _ => false
/-- A pixel of the safe frame (23 Table DC-5). -/
def safePixel (s : State) (x y : Nat) : List Nat :=
  let b := fld s.disp.safeMem (12 + y * ((hActive s + 7) / 8) + x / 8) 1
  rgbOf (fld s.disp.safeMem (if b.testBit (7 - x % 8) then 4 else 8) 4)
/-- The pixel that the scan shows (23 R513, R514, R516). -/
def pixel (s : State) (x y : Nat) : List Nat :=
  if s.disp.safe then safePixel s x y
  else if blinked s x y then rgbOf (fld (dispTim s) 24 4)
  else surfacePixel s x y

/-- What POL_MODE adds to the level of line 0 in line y (23 R511). -/
def polTurn (s : State) (y : Nat) : Bool :=
  match fld (dispTim s) 20 1 with
  | 1 => y % 2 == 1
  | 2 => y / 2 % 2 == 1
  | _ => false
/-- POL in pixel x of line y: it changes at the rise of CPV (23 R511). -/
def polAt (s : State) (x y : Nat) : Bool :=
  if cpvRise s ≤ x then s.disp.pol0 != polTurn s y
  else if y == 0 then s.disp.polWas else s.disp.pol0 != polTurn s (y - 1)
def cpvAt (s : State) (x : Nat) : Bool := decide (cpvRise s ≤ x ∧ x < cpvFall s)
def goeAt (s : State) (x : Nat) : Bool :=
  !decide (cpvRise s ≤ x + fld (dispTim s) 16 2 ∧ x < cpvFall s + fld (dispTim s) 18 2)
def stvAt (s : State) (x y : Nat) : Bool :=
  decide ((y + 1 = vTotal s ∧ cpvFall s ≤ x) ∨ (y = 0 ∧ x < cpvFall s))

/-- Ones in a number of 8 bits. -/
def ones8 (n : Nat) : Nat := ((List.range 8).filter fun i => n.testBit i).length
/-- A link word, its 32 bits with an odd number of ones (23 Table DC-2). -/
def linkBytes (rgb : List Nat) (de ls fs pol : Bool) (seq : Nat) : List Byte :=
  let c := 128 * b2n de + 64 * b2n ls + 32 * b2n fs + 16 * b2n pol + 2 * (seq % 8)
  let ones := (rgb.map ones8).foldl (· + ·) 0 + ones8 c
  (rgb ++ [c + (1 - ones % 2)]).map byteOf
/-- The link word of pixel x of line y (23 Table DC-2). -/
def linkWord (s : State) (x y : Nat) : List Byte :=
  let de := decide (x < hActive s ∧ y < vActive s)
  linkBytes (if de then pixel s x y else [0, 0, 0]) de (de && x == 0) (de && x == 0 && y == 0) (polAt s x y) x

/-- Pixel clocks since the frame start, by whole ticks: XREF / 64 * PLL_N / 24, 48 or 96 (23 R511, log 145). -/
def scanPos (s : State) : Nat :=
  min ((now s - s.disp.frameAt) * 64 * fld (dispTim s) 8 2 / (24 * 2 ^ fld (dispTim s) 10 1)) (hTotal s * vTotal s - 1)

/-- The balls at the place that the scan has reached; outside a scan the link carries blanking words before it, BLACK_RGB with
DE from the discharge on, and nothing without a pixel clock (23 R510, R518, R519, log 145). -/
def dispPins (s : State) : State :=
  if !s.clk.pixRun then updDisp (fun d => { d with link := [] }) s
  else if s.disp.mode == 2 then
    let x := scanPos s % hTotal s
    let y := scanPos s / hTotal s
    updDisp (fun d => { d with
      pol := polAt s x y, cpv := cpvAt s x, goe := goeAt s x, stv := stvAt s x y, link := linkWord s x y }) s
  else
    let on := s.disp.mode != 1
    updDisp (fun d => { d with
      link := linkBytes (if on then rgbOf (fld (dispTim s) 28 4) else [0, 0, 0]) on false false d.pol 0 }) s

end Sys2Proof.Machine
end

