-- ==== Sys2Proof/Machine/Display.lean ====
section
/-!
DEFINITION. The display controller: switching, discharge, the frame check and the safe frame (23).
-/

namespace Sys2Proof.Machine

def dispFenced (s : State) : Bool := fencedB s 7 0

/-- DISP_EVENT; events 1, 5 and 6 go to the event recorder too (23 R522). -/
def dispEvent (ev value : Nat) (data : List Byte) (s : State) : State :=
  let s1 := notify 0x1380 ([byteOf ev, 0, 0, 0] ++ le 8 (now s) ++ le 4 value) s
  if ev == 1 then evrec 0x1301 0 0xFF data s1
  else if ev == 5 then evrec 0x1302 0 0xFF data s1
  else if ev == 6 then evrec 0x1303 0 0xFF data s1 else s1

/-- The safe frame is copied into its region with its CRC; one of another size, or none, is a black field (23 R517). -/
def copySafe (s : State) : State :=
  let t := tab s 0x1302
  let fits := !t.isEmpty && fld t 0 2 == hActive s && fld t 2 2 == vActive s
  let m := if fits then t else le 2 (hActive s) ++ le 2 (vActive s)
  updDisp (fun d => { d with
    safeMem := m, safeLoad := false, safeSize := !fits, safeMis := 0, safeCrc := crc32 (padTo 48012 m) }) s

/-- Base and size of a region of DISP_WRITE (23 Tables DC-4, DC-11). -/
def dispRegion (s : State) (r : Nat) : Option (Nat × Nat) :=
  match r with
  | 0 => some (0, if dispFormat s == 0 then 768000 else 384000)
  | 1 => if dispFormat s == 0 then none else some (0x5DC00, 384000)
  | 2 => some (0xC73C0, 2048)
  | _ => some (0xC7BC0, 1024)

/-- Length of the shown surface, and of the attributes scanned (23 R513 to R515). -/
def surfLen (s : State) : Nat := hActive s * vActive s * (if dispFormat s == 0 then 2 else 1)
def attrLen (s : State) : Nat := (((hActive s + 7) / 8) * ((vActive s + 7) / 8) + 3) / 4

/-- The regions that a scanned frame reads, in the order of R515. -/
def scanned (s : State) : List (Nat × Nat) :=
  [(surfBase s, surfLen s)] ++ (if dispFormat s == 1 then [(0xC7BC0, 1024)] else []) ++ [(0xC73C0, attrLen s)]
def frameCrc (s : State) : Nat := crc32 ((scanned s).flatMap fun r => memReadBytes s.disp.mem r.1 r.2)

/-- Switch-on from step 3 of R518: VCOM_EN rises, GOE and STV low, the reference cleared. -/
def dispOn (s : State) : State :=
  let s1 := { s with clk := { s.clk with pllp := true, pixRun := true } }
  let s2 := updDisp (fun d => { d with
    mode := 1, again := false, act := none, vcom := true, vcomAt := now s, goe := false, stv := false, cpv := false, timNew := false
    tim := tab s 0x1301, shown := 0, ref := none, mis := 0, hits := 0, frame := 0 }) s1
  dispPins (copySafe s2)

/-- The discharge of Table DC-6 starts, POL held as the scan left it, CPV low after its pulses; again: switch-on follows. -/
def dispDischarge (again : Bool) (s : State) : State :=
  if s.disp.mode == 3 then updDisp (fun d => { d with again := d.again || again }) s
  else
    let s1 := if s.disp.mode == 2 then dispPins s else s
    dispEvent 3 0 [] (dispPins (updDisp (fun d => { d with
      mode := 3, again := again, act := none, vcom := false, pdisch := true, pdAt := now s, goe := true, stv := true, cpv := false
      discharges := sat32 d.discharges }) s1))

/-- Every output low and the link off (23 R521). -/
def dispDark (s : State) : State :=
  updDisp (fun d => { d with
      mode := 0, again := false, act := none, vcom := false, goe := false, stv := false, cpv := false, pol := false, pdisch := false
      link := [] })
    { s with clk := { s.clk with pllp := false, pixRun := false } }

/-- PFAIL_N is confirmed (23 R519, R520). -/
def dispPfail (s : State) : State :=
  if !s.clk.pixRun then (if s.disp.mode == 3 then s else dispEvent 6 0 [] s)
  else if s.disp.mode == 0 then s else dispDischarge (s.disp.mode != 3) s

/-- PDISCH_RELEASE (23 R519, R520): 20 ms after PDISCH rose. -/
def pdischRelease (s : State) : State :=
  if s.disp.pdisch && s.disp.pdAt + 160 ≤ now s then
    let s1 := dispEvent 4 0 [] (updDisp (fun d => { d with pdisch := false, mode := 0 }) s)
    if dispFenced s1 then dispDark s1
    else if s1.disp.again then (if s1.eg.pfailTick.isNone then dispOn s1 else s1)
    else { s1 with clk := { s1.clk with pllp := false, pixRun := false } }
  else s

def execPdischRelease (s : State) : Out := .next (pdischRelease s)

/-- DISPLAY_SWITCH_ON (23 R518): firmware 2.4 switches the display on when AP_RDY sets. -/
def displaySwitchOn (s : State) : State :=
  if rdy s rAP && rdy s rDisp && s.disp.mode == 0 && !s.disp.again && !s.disp.hostOff && !dispFenced s &&
      s.eg.pfailTick.isNone && s.pw.entry.isNone then dispOn s else s

def execDisplaySwitchOn (s : State) : Out := .next (displaySwitchOn s)

/-- A change of shown surface counts as a write (23 R515). -/
def showSurface (n : Nat) (s : State) : State :=
  updDisp (fun d => { d with
    shown := n, act := none, written := true, safe := d.safe && d.lost != 0, lost := if d.lost == 1 then 2 else d.lost }) s

/-- The frame that has ended is checked (23 R515, R516). -/
def checkFrame (s : State) : State :=
  let c := frameCrc s
  let s1 := updDisp (fun d => { d with lastCrc := c }) s
  let d := s1.disp
  if d.written then
    updDisp (fun d => { d with
      unchecked := sat32 d.unchecked, ref := none, mis := 0, hits := 0, lost := if d.lost == 1 then 2 else d.lost
      safe := d.safe && d.lost != 0 }) s1
  else match d.ref with
    | none => updDisp (fun d => { d with ref := some c, refCrc := c, hits := 0, mis := 0 }) s1
    | some r =>
      if r == c then
        let s2 := updDisp (fun d => { d with mis := 0, hits := d.hits + 1 }) s1
        if d.lost == 2 && 2 ≤ d.hits + 1 then dispEvent 2 0 [] (updDisp (fun d => { d with safe := false, lost := 0 }) s2) else s2
      else
        let s2 := updDisp (fun d => { d with mis := d.mis + 1, hits := 0, mismatches := sat32 d.mismatches }) s1
        if 2 ≤ d.mis + 1 && d.lost == 0 then
          dispEvent 1 c (le 4 c ++ le 4 r) (updDisp (fun d => { d with safe := true, lost := 1, safeShows := sat32 d.safeShows }) s2)
        else s2

/-- The safe frame shown is checked against SAFE_CRC; 2 mismatches in a row fence the display (23 R517). -/
def checkSafe (s : State) : State :=
  if !s.disp.safe then updDisp (fun d => { d with safeMis := 0 }) s
  else if crc32 (padTo 48012 s.disp.safeMem) == s.disp.safeCrc then updDisp (fun d => { d with safeMis := 0 }) s
  else
    let s1 := updDisp (fun d => { d with safeMis := d.safeMis + 1 }) s
    if 2 ≤ s1.disp.safeMis then dispDischarge false (fenceNow 7 0 false 9 0 s1) else s1

/-- Bytes of the frame memory and the safe frame that changed with no write (23 R516). -/
def dispUpset (upset : List (Nat × Byte)) (s : State) : State :=
  updDisp (fun d => { d with
    mem := upset.foldl (fun m e => memWriteBytes m e.1 [e.2]) d.mem
    safeMem := upset.foldl (fun m e =>
      if 0xBB800 ≤ e.1 && e.1 < 0xBB800 + 48012 then (padTo 48012 m).set (e.1 - 0xBB800) e.2 else m) d.safeMem }) s

/-- A frame starts: POL turns in line 0 against the frame before (23 R511, log 145). -/
def frameBegins (first : Bool) (s : State) : State :=
  updDisp (fun d => { d with
    frameAt := now s, polWas := if first then d.pol else d.pol0 != polTurn s (vTotal s - 1)
    pol0 := if first then !d.pol else !d.pol0 }) s

/-- What waits for the frame start applies (23 R512, R517, Table DC-10). -/
def frameWaits (s : State) : State :=
  let s1 := if s.disp.safeLoad then copySafe s else s
  if s1.disp.timNew then dispDischarge true s1
  else match s1.disp.act with
    | some 0 => dispDischarge false (updDisp (fun d => { d with hostOff := true }) s1)
    | some 2 => showSurface 0 s1
    | some 3 => showSurface 1 s1
    | _ => s1

/-- FRAME_START (23 R515 to R518): the frame that ended is checked, and what waits for a frame start applies; the scan engine
stands still with the bus domain (02 Table TK-2). upset: bytes of the frame memory that changed with no write. -/
def frameStart (upset : List (Nat × Byte)) (s : State) : State :=
  let s0 := dispUpset upset s
  if !s.clk.busRun then s
  else if s.disp.mode == 1 && s.clk.pixRun && s.disp.vcomAt + 8 * fld (dispTim s) 32 2 ≤ now s then
    dispPins (frameBegins true (updDisp (fun d => { d with mode := 2, written := false, frame := 0 }) s0))
  else if s.disp.mode == 2 && s.clk.pixRun then
    let s1 := checkFrame (checkSafe s0)
    if s1.disp.mode != 2 then s1
    else
      let s2 := frameBegins false (updDisp (fun d => { d with written := false, frame := (d.frame + 1) % 2 ^ 32 }) s1)
      dispPins (frameWaits s2)
  else s

def execFrameStart (upset : List (Nat × Byte)) (s : State) : Out := .next (frameStart upset s)

/-- STATE of DISP_STATUS (23 Table DC-9). -/
def dispState (s : State) : Nat :=
  if dispFenced s then 5 else match s.disp.mode with
    | 0 => 0
    | 1 => 1
    | 2 => if s.disp.safe then 3 else 2
    | _ => 4

/-- DISP_STATUS (23 Table DC-9). -/
def dispStatusBody (_ : List Byte) (s : State) : Served :=
  let d := s.disp
  if !rdy s rDisp && !dispFenced s then no 0x13F0 s
  else ok 0x1300 ([byteOf (dispState s), byteOf d.shown, byteOf (dispFormat s),
      byteOf (bitsOf [d.ref.isSome, d.safeSize, s.clk.pixRun])] ++ le 4 d.frame ++ le 4 d.refCrc ++ le 4 d.lastCrc ++
    le 4 d.safeCrc ++ le 4 d.mismatches ++ le 4 d.unchecked ++ le 4 d.safeShows ++ le 4 d.discharges) s

def execDispStatus (ch : Nat) (s : State) : Out := .next (serve 0x1301 (len 0) dispStatusBody ch s)

/-- DISP_CONTROL (23 Table DC-10): the tick of the frame start at which it applies is a free value (log 2). -/
def dispControlBody (pl : List Byte) (s : State) : Served :=
  let a := fld pl 0 1
  if dispFenced s then no 0x13F4 s
  else if !rdy s rDisp then no 0x13F0 s
  else if 3 < a then no 0x13F1 s
  else if s.disp.mode == 3 then no 0x1311 s
  else if a == 3 && dispFormat s == 0 then no 0x1310 s
  else
    let s1 := match a with
      | 0 => if s.disp.mode == 2 then updDisp (fun d => { d with act := some 0 }) s
             else if s.disp.mode == 1 then dispDischarge false (updDisp (fun d => { d with hostOff := true }) s)
             else updDisp (fun d => { d with hostOff := true }) s
      | 1 => if s.disp.mode == 0 then updDisp (fun d => { d with hostOff := false }) (dispOn s) else s
      | _ => if s.disp.mode == 2 then updDisp (fun d => { d with act := some a }) s else showSurface (a - 2) s
    let r := draw s1
    ok 0x1300 ([byteOf (dispState s1), byteOf s1.disp.shown, 0, 0] ++ le 8 r.1) r.2

def execDispControl (ch : Nat) (s : State) : Out := .next (serve 0x1302 (len 4) dispControlBody ch s)

/-- A write falls into bytes that a scanned frame reads (23 R515). -/
def inScan (s : State) (a n : Nat) : Bool := (scanned s).any fun r => decide (a < r.1 + r.2 ∧ r.1 < a + n)

/-- DISP_WRITE (23 Table DC-11); its length follows LENGTH (04 Table HL-16 check 7). -/
def dispWriteBody (pl : List Byte) (s : State) : Served :=
  let r := fld pl 0 1
  let n := fld pl 2 2
  let off := fld pl 4 4
  if pl.length != 8 + n then no 0x0104 s
  else if dispFenced s then no 0x13F4 s
  else if !rdy s rDisp then no 0x13F0 s
  else if !(r ≤ 3 && decide (1 ≤ n ∧ n ≤ 2000)) then no 0x13F1 s
  else match dispRegion s r with
    | some (base, size) =>
      if size < off + n then no 0x1310 s
      else
        let hit := inScan s (base + off) n
        ok 0x1300 ([byteOf r, 0, 0, 0] ++ le 4 (off + n)) (updDisp (fun d => { d with
          mem := memWriteBytes d.mem (base + off) (pl.drop 8), written := d.written || hit
          lost := if hit && d.lost == 1 then 2 else d.lost }) s)
    | none => no 0x1310 s

def execDispWrite (ch : Nat) (s : State) : Out :=
  .next (serve 0x1303 (fun k => decide (9 ≤ k ∧ k ≤ 2008)) dispWriteBody ch s)

/-- A fence placed elsewhere takes effect, and after a discharge switch-on follows PFAIL_N (23 R520, R521). -/
def dispFollow (s : State) : State :=
  if dispFenced s then
    let s1 := if s.disp.told then s else dispEvent 5 0 [] (updDisp (fun d => { d with told := true }) s)
    if s.disp.mode == 1 || s.disp.mode == 2 then (if s.clk.pixRun then dispDischarge false s1 else dispDark s1) else s1
  else if s.disp.told then updDisp (fun d => { d with told := false }) s
  else if s.disp.mode == 0 && s.disp.again && !s.disp.pdisch && s.eg.pfailTick.isNone then dispOn s
  else if s.disp.safeLoad && s.disp.mode != 2 then copySafe s
  else s

/-- The display in one tick, with its balls (23 R510, R520, R521). -/
def dispTick (s : State) : State := dispPins (dispFollow s)

/-- Tables 0x1301 and 0x1302 (23 R512, R517). -/
def check1301 (b : List Byte) : Option Nat :=
  let f := fun o n => fld b o n
  let h := f 0 2
  let div := 24 * 2 ^ f 10 1
  if within b 0 2 64 800 && within b 2 2 16 512 && within b 4 2 32 480 && within b 6 2 2 64 && within b 8 2 782 1562 &&
     f 10 1 ≤ 2 && f 11 1 ≤ 1 && within b 14 2 8 256 && f 16 2 ≤ 256 && f 18 2 ≤ 256 &&
     decide (h ≤ f 12 2 ∧ f 12 2 + f 14 2 + f 18 2 + 1 ≤ h + f 2 2 ∧ f 16 2 ≤ f 12 2 - h) && f 20 1 ≤ 2 && within b 21 1 4 250 &&
     decide (2 ≤ f 22 1 ∧ f 22 1 < f 21 1) && allZero b 23 1 && allZero b 27 1 && allZero b 31 1 && f 32 2 ≤ 500 &&
     allZero b 34 2 && decide ((f 4 2 + 2) * 2 * 64 * div * 1000000 ≤ 190 * 32768000 * f 8 2) then none
  else some 0x1312
def check1302 (b : List Byte) : Option Nat :=
  if b.length == 12 + (fld b 0 2 + 7) / 8 * fld b 2 2 && 12 ≤ b.length then none else some 0x1312

end Sys2Proof.Machine
end

