-- ==== Sys2Proof/Machine/PlPhy.lean ====
section
/-!
DEFINITION. The physical layer of the Chashao link: header, coding, placement and the phases sent, impulse blanking, the
transform of a symbol, combining and the decoder (17 R401 to R409).
-/

namespace Sys2Proof.Machine

/-- One bit of the CRC-8 of R404. -/
def crc8Bit (c : Nat) (b : Bool) : Nat :=
  let t := c * 2
  if (decide (256 ≤ t)) != b then (t % 256) ^^^ 7 else t % 256
/-- HCRC over bits 0 to 21 in the order sent (17 R404). -/
def hcrc (h : Nat) : Nat := (List.range 22).foldl (fun c i => crc8Bit c (h.testBit i)) 0
/-- A header of 30 bits (17 R404). -/
def plHeader (len info : Nat) (ack : Bool) : Nat :=
  let h := len % 512 + 512 * b2n ack + 1024 * (info % 4096)
  h + 4194304 * hcrc h

/-- The parity of the taps of a generator over the last 7 bits, the newest first. -/
def convTap (g : Nat) (w : List Bool) : Bool :=
  (w.zipIdx.filter fun e => e.1 && g.testBit (6 - e.2)).length % 2 == 1
/-- The convolutional encoder of R405: generators 0o133 then 0o171, from state 0. -/
def convGo : List Bool → List Bool → List Bool
  | _, [] => []
  | w, b :: bs =>
    let w1 := (b :: w).take 7
    convTap 0x5B w1 :: convTap 0x79 w1 :: convGo w1 bs
def convEncode (bits : List Bool) : List Bool := convGo (List.replicate 6 false) (bits ++ List.replicate 6 false)
/-- Placement (17 R405): the bits of S symbols on the 36 carriers. -/
def plPlace (coded : List Bool) (rep sN : Nat) : List (List Bool) :=
  let c := coded ++ List.replicate (36 * sN / rep - coded.length) false
  (List.range sN).map fun sym => (List.range 36).map fun car =>
    match (List.range 36).find? fun pos => (7 * pos + 5 * sym) % 36 == car with
    | some pos => nth c ((pos * sN + sym) / rep) false
    | none => false
/-- Symbols of a payload of n coded bits (17 R405). -/
def plSymbols (robust : Bool) (n : Nat) : Nat := if robust then (4 * n + 35) / 36 else (n + 35) / 36
/-- Repetition and symbols of the header, repetition of the payload (17 R404, R405). -/
def hdrRep (robust : Bool) : Nat := if robust then 4 else 2
def hdrSyms (robust : Bool) : Nat := if robust then 8 else 4
def payRep (robust : Bool) : Nat := if robust then 4 else 1

/-- The bits of header and payload, symbol by symbol (17 R404, R405). -/
def plBits (robust : Bool) (h : Nat) (mpdu : List Byte) : List (List Bool) :=
  let head := plPlace (convEncode ((List.range 30).map fun i => h.testBit i)) (hdrRep robust) (hdrSyms robust)
  if mpdu.isEmpty then head
  else
    let c := convEncode (mpdu.flatMap fun b => (List.range 8).map fun i => b.getLsbD i)
    head ++ plPlace c (payRep robust) (plSymbols robust c.length)

/-- The preamble's turns beyond θ, in units of π/36: SYNCP 0, SYNCM π, SYNCQ π/2 (17 R402). -/
def preamble (robust : Bool) : List Nat := if robust then [0, 0, 0, 0, 0, 0, 0, 18] else [0, 0, 0, 36]
/-- The phases of a preamble symbol on carriers 33 to 68, θ = π (k - 33)^2 / 36 (17 R402). -/
def preSymbol (turn : Nat) : List Nat := (List.range 36).map fun k => (k * k + turn) % 72
/-- DBPSK: a bit 1 shifts the phase of its carrier by π from the symbol before (17 R403). -/
def keyed : List Nat → List (List Bool) → List (List Nat)
  | _, [] => []
  | ref, b :: bs =>
    let p := (ref.zip b).map fun e => (e.1 + 36 * b2n e.2) % 72
    p :: keyed p bs
/-- The phases of a frame, symbol by symbol (17 R402, R403). -/
def plAir (robust : Bool) (h : Nat) (mpdu : List Byte) : List (List Nat) :=
  (preamble robust).map preSymbol ++ keyed (preSymbol ((preamble robust).getLastD 0)) (plBits robust h mpdu)

/-- Cosines of n / 256 turn. -/
def cosTab : Array Int := ((List.range 256).map fun n => cosT (n * (turn / 256))).toArray
/-- Sample n of the body of a symbol sent: the used carriers with equal amplitude, each at its phase (17 Table PL-4). -/
def bodySample (phases : List Nat) (n : Nat) : Int :=
  phases.zipIdx.foldl (fun a e => a + cosT ((33 + e.2) * n % 256 * (turn / 256) + e.1 * turn / 72)) 0
/-- The 288 samples of a symbol sent: its body of 256 behind the last 32 of it (17 Table PL-4). -/
def symbolSamples (phases : List Nat) : List Int :=
  let body := (List.range 256).map (bodySample phases)
  body.drop 224 ++ body
/-- The transmit samples of the frame last sent, the same on each coupling that works (17 R399, R401). -/
def txSamples (s : State) : List Int := s.pl.air.flatMap symbolSamples

/-- A transmission stops at the next symbol boundary; PAEN is released behind its last sample (17 R425, Table PL-1). -/
def plCut (s : State) : Pl :=
  { s.pl with
    air := if s.pl.paen && !s.pl.lead then s.pl.air.take (4000 * (now s - s.pl.airAt) / 28125 + 1) else s.pl.air
    paen := s.pl.paen && !s.pl.lead, lead := false }

/-- Blanking of R407: K_BLANK k, ms = n / d. A sample blanked is none; any other moves ms by (x x - ms) / 1024. -/
def blank (k : Nat) : Nat → Nat → List Int → List (Option Int)
  | _, _, [] => []
  | n, d, x :: xs =>
    let p := x.natAbs * x.natAbs
    if k * k * n < 100 * p * d then none :: blank k n d xs
    else some x :: blank k (1023 * n + p * d) (1024 * d) xs

/-- Samples in symbols of 288, by the number of symbols (17 Table PL-4). -/
def inSymbols {α : Type} : Nat → List α → List (List α)
  | 0, _ => []
  | n + 1, l => l.take 288 :: inSymbols n (l.drop 288)

/-- The receive samples of a coupling after blanking, symbol by symbol; ms starts at the calibrated noise floor, of which
noise is the rms (17 R407, log 144). -/
def rxSymbols (k noise : Nat) (x : List Int) : List (List (Option Int)) :=
  inSymbols ((x.length + 287) / 288) (blank k (noise * noise) 1 x)
/-- Samples of a symbol that are blanked; 35 erase it (17 R407, R408). -/
def blankedIn (sym : List (Option Int)) : Nat := (sym.filter Option.isNone).length
def erased (sym : List (Option Int)) : Bool := decide (35 ≤ blankedIn sym)

/-- One bin of the 256-point transform of a body (17 Table PL-4), in units of 2^-40. -/
def tone (body : List Int) (k : Nat) : Int × Int :=
  body.zipIdx.foldl (fun a e =>
    (a.1 + e.1 * cosTab.getD (k * e.2 % 256) 0, a.2 - e.1 * cosTab.getD ((k * e.2 + 192) % 256) 0)) (0, 0)
/-- The 36 carriers of a symbol: its body follows 32 samples of prefix; a blanked sample is 0 (17 Table PL-4, R407). -/
def carriers (sym : List (Option Int)) : List (Int × Int) :=
  let body := (sym.drop 32).map fun x => x.getD 0
  (List.range 36).map fun i => tone body (33 + i)

/-- What a coupling receives of a frame: the carriers of each symbol, and which symbols are erased. -/
structure Heard where
  /-- Carriers 33 to 68, symbol by symbol -/
  syms : List (List (Int × Int)) := []
  /-- Symbols erased (17 R408) -/
  gone : List Bool := []
deriving DecidableEq, Repr, Inhabited

def hear (k noise : Nat) (x : List Int) : Heard :=
  let sy := rxSymbols k noise x
  { syms := sy.map carriers, gone := sy.map erased }

def carrierAt (h : Heard) (m i : Nat) : Int × Int := nth (nth h.syms m []) i (0, 0)
/-- The real part of the differential product of symbol m with the conjugate of symbol m - 1 (17 R409). -/
def product (h : Heard) (m i : Nat) : Int :=
  let a := carrierAt h m i
  let b := carrierAt h (m - 1) i
  a.1 * b.1 + a.2 * b.2

/-- The mode that the preamble tells: its fourth symbol turns by π against the third in a Fast frame only (17 R402,
log 144). -/
def robustOf (hs : List Heard) : Bool :=
  decide (0 ≤ (hs.flatMap fun h => (List.range 36).map fun i => product h 3 i).foldl (· + ·) 0)

/-- A point turned back by a preamble turn of 0, π or π/2. -/
def turnBack (t : Nat) (z : Int × Int) : Int × Int :=
  if t == 36 then (-z.1, -z.2) else if t == 18 then (z.2, -z.1) else z
/-- The noise variance of carrier i over the preamble: the mean square distance of its symbols, turned back, from their
mean (17 R409, log 144). -/
def noiseVar (robust : Bool) (h : Heard) (i : Nat) : Rat :=
  let zs := (preamble robust).zipIdx.map fun e => turnBack e.1 (carrierAt h e.2 i)
  let x := zs.foldl (fun a z => a + z.1) 0
  let y := zs.foldl (fun a z => a + z.2) 0
  let q := zs.foldl (fun a z => a + z.1 * z.1 + z.2 * z.2) 0
  let n : Int := zs.length
  ((n * q - x * x - y * y : Int) : Rat) / ((n * n : Int) : Rat)
/-- The weight of a carrier's products: the inverse of its noise variance; of none estimated, a free value (log 144). -/
def weight (robust : Bool) (h : Heard) (i : Nat) : Rat :=
  let v := noiseVar robust h i
  if v = 0 then ((1 + Config.zeroDiv 4 : Nat) : Rat) else 1 / v
/-- The weights of the 36 carriers of each coupling. -/
def weightsOf (robust : Bool) (hs : List Heard) : List (Heard × List Rat) :=
  hs.map fun h => (h, (List.range 36).map (weight robust h))

/-- The metric of carrier i in symbol m, over the couplings; an erased symbol gives nothing for itself and the next (17
R408, R409). -/
def metric (hs : List (Heard × List Rat)) (m i : Nat) : Rat :=
  (hs.map fun h => if nth h.1.gone m false || nth h.1.gone (m - 1) false then 0
    else nth h.2 i 0 * (product h.1 m i : Rat)).foldl (· + ·) 0
/-- The metrics of n coded bits placed from symbol base on: copies are summed (17 R405, R409). -/
def softBits (hs : List (Heard × List Rat)) (base rep sN n : Nat) : List Rat :=
  (List.range n).map fun j => ((List.range rep).map fun r =>
    let i := j * rep + r
    metric hs (base + i % sN) ((7 * (i / sN) + 5 * (i % sN)) % 36)).foldl (· + ·) 0

/-- What the coded bits of a branch gain: the 7 bits of w, the newest highest; a bit 1 shifts by π (17 R403). -/
def branchGain (w : Nat) (m0 m1 : Rat) : Rat :=
  let bits := (List.range 7).map fun i => w.testBit (6 - i)
  (if convTap 0x5B bits then -m0 else m0) + (if convTap 0x79 bits then -m1 else m1)
/-- The better of two paths; of equal ones the first (log 144). -/
def betterPath (a b : Option (Rat × List Bool)) : Option (Rat × List Bool) :=
  match a, b with
  | some x, some y => if x.1 < y.1 then some y else some x
  | none, y => y
  | x, none => x
/-- One step of the decoder over the 64 states of the last 6 bits (17 R409). -/
def viterbiStep (m0 m1 : Rat) (col : List (Option (Rat × List Bool))) : List (Option (Rat × List Bool)) :=
  (List.range 64).map fun ns =>
    let path := fun (w : Nat) => (nth col (w % 64) none).map fun e => (e.1 + branchGain w m0 m1, decide (32 ≤ ns) :: e.2)
    betterPath (path (2 * ns)) (path (2 * ns + 1))
def viterbiGo : List Rat → List (Option (Rat × List Bool)) → List (Option (Rat × List Bool))
  | m0 :: m1 :: ms, col => viterbiGo ms (viterbiStep m0 m1 col)
  | _, col => col
/-- The soft-decision Viterbi decoder: from state 0 to state 0 over the metrics, less the 6 tail bits (17 R405, R409). -/
def viterbi (ms : List Rat) : List Bool :=
  match nth (viterbiGo ms (some (0, []) :: List.replicate 63 none)) 0 none with
  | some (_, p) => (p.drop 6).reverse
  | none => []

/-- Bits in bytes, bit 0 first (17 R405), by the number of bytes. -/
def bytesOf : Nat → List Bool → List Byte
  | 0, _ => []
  | n + 1, l => byteOf (bitsOf (l.take 8)) :: bytesOf n (l.drop 8)

/-- The mode, the header and the MPDU that the receiver decodes from what its couplings hear; an MPDU only behind a header
whose HCRC matches (17 R402 to R409). -/
def decodeFrame (hs : List Heard) : Bool × Nat × List Byte :=
  let robust := robustOf hs
  let ws := weightsOf robust hs
  let p := (preamble robust).length
  let hdr := bitsOf (viterbi (softBits ws p (hdrRep robust) (hdrSyms robust) 72))
  if hcrc hdr != hdr / 4194304 % 256 || hdr % 512 == 0 then (robust, hdr, [])
  else
    let n := 2 * (8 * (hdr % 512) + 6)
    (robust, hdr, bytesOf (hdr % 512) (viterbi (softBits ws (p + hdrSyms robust) (payRep robust) (plSymbols robust n) n)))

end Sys2Proof.Machine
end

