-- ==== Sys2Proof/Machine/Powerline.lean ====
section
/-!
DEFINITION. The Chashao powerline link: mains-time base, superframes, frames and acknowledgement (17).
-/

namespace Sys2Proof.Machine

def getZc (s : State) (k : Nat) : Zc := nth s.pl.zc k {}
def updZc (k : Nat) (f : Zc → Zc) (s : State) : State := { s with pl := { s.pl with zc := s.pl.zc.modify k f } }

/-- The options in force (17 Table PL-3). -/
def plTab (s : State) : List Byte := if s.pl.opts.isEmpty then tab s 0x0D01 else s.pl.opts
def plOpt (s : State) (off : Nat) : Nat := fld (plTab s) off 1
def zcDelay (s : State) (k : Nat) : Int := fldI (plTab s) (4 + 2 * k) 2

/-- Couplings of the set (17 R399), and those that work. -/
def plSet (s : State) : List Nat := if plOpt s 0 == 0 then [0] else [0, 1, 2]
def plWorks (s : State) : List Nat := (plSet s).filter fun k => rdy s (rPL + k)
/-- The link is up (17 Table PL-13 LINK_DOWN). -/
def plUp (s : State) : Bool := plOpt s 3 == 1 && !(plWorks s).isEmpty
/-- LE runs the MAC, and the powerline sample domain is clocked (02 R67). -/
def plRuns (s : State) : Bool := imgActive s 4 && s.clk.busRun && s.clk.plRun && s.eg.pfailTick.isNone

/-- PL_EVENT (17 R428). -/
def plEvent (ev src : Nat) (data : List Byte) (fcnt : Nat) (s : State) : State :=
  notify 0x0D80 ([byteOf ev, byteOf src, byteOf data.length, 0] ++ le 4 fcnt ++ le 8 (now s) ++ padTo 40 data) s

/-- A period lies within 45 to 65 Hz (17 R411): XREF cycles of 32.768 MHz. -/
def zcPeriodOk (p : Nat) : Bool := decide (32768000 ≤ 65 * p ∧ 45 * p ≤ 32768000)
/-- 8 consecutive periods within 45 to 65 Hz and within 2 % of their mean (17 R411). -/
def zcLocks (l : List Nat) : Bool :=
  let sum := l.foldl (· + ·) 0
  l.length == 8 && l.all fun p => zcPeriodOk p && decide (400 * p ≤ 51 * sum ∧ 49 * sum ≤ 400 * p)

/-- The mean of the last 8 periods of an input; without 8 of them, of those there are. -/
def zcMean (z : Zc) : Nat := if z.periods.isEmpty then 0 else z.periods.foldl (· + ·) 0 / z.periods.length

/-- The input whose edges give the reference crossings (17 R411). -/
def zcUsed (s : State) : Option Nat := [0, 1, 2].find? fun k => (getZc s k).locked

/-- Place in the superframe: crossings since its start, 0 to 63 (17 R412). -/
def sfPos (s : State) : Option Nat := s.pl.start.map fun b => (s.pl.cross + 64 - b % 64) % 64

/-- The phase source of highest rank heard in the last 4 superframes (17 R413). -/
def phaseOf (s : State) : Nat × Option Nat :=
  match s.pl.conc, s.pl.master with
  | some (b, a), m => if a < 4 then (2, some b) else match m with
    | some (c, d) => if d < 4 then (1, some c) else (0, s.pl.own)
    | none => (0, s.pl.own)
  | none, some (c, d) => if d < 4 then (1, some c) else (0, s.pl.own)
  | none, none => (0, s.pl.own)

/-- The phase in force follows its source at a reference crossing (17 R413); a queued frame then goes in the first eligible
pair (Table PL-11). -/
def takePhase (s : State) : State :=
  let own := match s.pl.own with
    | some b => some b
    | none => some s.pl.cross
  let s1 := { s with pl := { s.pl with own := own } }
  let (src, b) := phaseOf s1
  let moved := b.map (· % 64) != s1.pl.start.map (· % 64) || src != s1.pl.src
  let s2 := { s1 with pl := { s1.pl with
    start := b, src := src, queue := if moved then s1.pl.queue.map (fun f => { f with skip := 0 }) else s1.pl.queue } }
  if src == s.pl.src then s2 else plEvent 4 src [] 0 s2

/-- A superframe starts (17 R412, 13 R318): ages go on, the options loaded take effect. -/
def superframe (s : State) : State :=
  let older := fun (x : Option (Nat × Nat)) => x.map fun e => (e.1, e.2 + 1)
  { s with
    lintel := { s.lintel with due := true, sfTick := some (now s) }
    pl := { s.pl with
      opts := tab s 0x0D01, master := older s.pl.master, conc := older s.pl.conc, beaconSrc := older s.pl.beaconSrc
      beaconAge := satAdd 0xFFFF s.pl.beaconAge 1 } }

/-- A hub pair begins at this place of the superframe (17 Table PL-6). -/
def hubPair (pos : Nat) : Bool := [28, 36, 44, 52, 60].contains pos
def concPair (pos : Nat) : Bool := [32, 40, 48, 56].contains pos

/-- The frame at the head of the queue lets a hub pair pass that began in tick at_ (17 R417). -/
def countPair (at_ : Nat) (s : State) : State :=
  match s.pl.queue with
  | f :: rest =>
    if f.sentAt.isNone && f.ready + 8 ≤ at_ && f.skip != 0 then
      { s with pl := { s.pl with queue := { f with skip := f.skip - 1 } :: rest } }
    else s
  | [] => s

/-- In STANDBY the wake detector ungates the couplings at the start of every slot whose number is a multiple of 4 (17
R424, 02 Table TK-2). -/
def openWindow (s : State) : State :=
  if s.pw.mode == 2 && s.clk.xref && (sfPos s).any (fun p => p % 8 == 0) then
    { s with clk := { s.clk with plRun := true }, pl := { s.pl with window := some (now s) } }
  else s

/-- A reference crossing with its stamp (17 R411 to R413). -/
def refCrossing (stamp : Nat) (s : State) : State :=
  let passed := match sfPos s with
    | some p => hubPair p
    | none => false
  let s0 := if passed then countPair (s.pl.ticks.headD (now s)) s else s
  let s1 := takePhase { s0 with pl := { s0.pl with
    cross := s.pl.cross + 1, ticks := (now s :: s.pl.ticks).take 8, stamps := (stamp :: s.pl.stamps).take 8 } }
  openWindow (if sfPos s1 == some 0 then superframe s1 else s1)

/-- The stamp of an edge less the delay of its input, in XREF cycles (17 R411). -/
def zcAt (s : State) (k stamp : Nat) : Nat := ((stamp : Int) - rnd 29 ((zcDelay s k : Rat) * 32768 / 1000)).toNat

/-- With no input locked every PLx_RDY clears, and the next crossing begins the base anew (17 Table PL-11). -/
def zcBaseLost (s : State) : State :=
  if (zcUsed s).isSome then s
  else foldN 3 (fun j s => setReady (rPL + j) false s) { s with pl := { s.pl with stamps := [] } }

/-- The stamp of the reference crossing that an edge of input k stands for: ZCB less T/3, ZCC less 2T/3 (17 R411). -/
def refStamp (k at_ : Nat) (z : Zc) : Nat := at_ - k * zcMean z / 3

/-- The reference crossings that have passed by a stamp: those since the last one, in whole periods of the input used, and
the first of a base (17 R411, Table PL-11, log 89). -/
def crossingsTo (stamp t : Nat) (s : State) : Nat :=
  match s.pl.stamps.head? with
  | none => 1
  | some r => if t == 0 then 1 else min 64 ((2 * (stamp - r) + t) / (2 * t))

/-- The base goes on to the crossing that the last edge of an input stands for (17 R411). -/
def refUpTo (k : Nat) (s : State) : State :=
  let z := getZc s k
  match z.last with
  | some at_ =>
    let c := refStamp k at_ z
    let n := crossingsTo c (zcMean z) s
    foldN n (fun i s => refCrossing (c - (n - 1 - i) * zcMean z) s) s
  | none => s

/-- ZC_EDGE (17 R411): the stamp in XREF cycles; noise is the floor that the coupling's receiver last measured. -/
def zcEdge (k stamp noise : Nat) (s : State) : State :=
  let z := getZc s k
  let at_ := zcAt s k stamp
  let gap := match z.last with
    | some t => some (at_ - t)
    | none => none
  let old := match z.periods.head? with
    | some p => p
    | none => 0
  if !(decide (k < 3) && s.boot.phase != .reset) then s
  else if gap.any fun g => decide (5 * g < 3 * old) then s
  else
    let ps := match gap with
      | some g => if zcPeriodOk g then (g :: z.periods).take 8 else []
      | none => []
    let locked := zcLocks ps
    let cal := z.cal || (imgActive s 4 && s.clk.plRun && decide (z.calFrom + 800 ≤ now s))
    let s1 := updZc k (fun z => { z with last := some at_, periods := ps, locked := locked, cal := cal, noise := noise }) s
    let s2 := if locked && cal && imgActive s 4 then
        let s2 := bootLift 5 k s1
        if fencedB s2 5 k then s2 else setReady (rPL + k) true s2
      else if z.locked then zcBaseLost s1
      else s1
    if zcUsed s2 == some k then refUpTo k s2 else s2

def execZcEdge (k stamp noise : Nat) (s : State) : Out := .next (gated (tickRun s) (zcEdge k stamp noise) s)

/-- ZC_LOCK_LOST (17 R411, Table PL-11): the crossings go on from another input, with those that its edges have already
stood for. -/
def zcLost (k : Nat) (s : State) : State :=
  if k < 3 && (getZc s k).locked then
    let s1 := zcBaseLost (updZc k (fun z => { z with locked := false, periods := [], last := none }) s)
    match zcUsed s1 with
    | some j => if zcUsed s == some k then refUpTo j s1 else s1
    | none => s1
  else s

def execZcLockLost (k : Nat) (s : State) : Out := .next (gated (tickRun s) (zcLost k) s)

/-- The TAG of an MPDU: site key between hubs, concentrator key with SRC or DST 0 (17 R414). -/
def plSlot (m : List Byte) : Nat := if fld m 1 1 == 0 || fld m 2 1 == 0 then 7 else 6
def plTag (s : State) (m : List Byte) : Option (List Byte) := (slotMac s (plSlot m) m).map fun t => t.take 8

/-- LE has the TAG of an MPDU formed, or that of a frame checked (01 Table AR-6). -/
def plAes (m : List Byte) (s : State) : State :=
  aesRun { client := 2, slot := some (plSlot m, 0), left := m.length, res := (slotMac s (plSlot m) m).getD [] } s
def plVerify (m : List Byte) (s : State) : State :=
  macJobs 2 (plSlot m) (m.take (m.length - 8)) (m.drop (m.length - 8)) s

/-- The next own FCNT, with its block (17 R415). -/
def takeFcnt (s : State) : Nat × State :=
  let f := s.pl.fcnt
  let put := fun (v : Nat) (s : State) => { s with pl := { s.pl with reserved := v } }
  let s1 := if s.pl.reserved ≤ f then sysWrite .le .fcnt s.pl.reserved (f + 1024) put s else s
  (f, { s1 with pl := { s1.pl with fcnt := f + 1 } })

/-- The highest FCNT accepted from a hub goes to MRAM (17 R415, 01 R21). -/
def putHigh (src f : Nat) (s : State) : State :=
  sysWrite .le .fcntHigh (nth s.pl.high src 0) f (fun v s => { s with pl := { s.pl with high := s.pl.high.set src v } }) s

/-- An MPDU without its TAG (17 Table PL-7). -/
def mpduOf (s : State) (ty dst fcnt : Nat) (ackReq : Bool) (body : List Byte) : List Byte :=
  [byteOf (ty + 16 * b2n ackReq), byteOf (hubId s), byteOf dst] ++ le 4 fcnt ++ body

/-- A frame joins the queue, with one of the next 4 hub pairs drawn at random (17 R417, log 2). -/
def plEnqueue (ty dst : Nat) (ackReq robust : Bool) (body : List Byte) (s : State) : Nat × State :=
  let (f, s1) := takeFcnt s
  let (r, s2) := draw s1
  let t : TxFrame := { ty := ty, mpdu := mpduOf s ty dst f ackReq body, fcnt := f, ackReq := ackReq, robust := robust
                       ready := now s, skip := r % 4 }
  (f, { s2 with pl := { s2.pl with queue := s2.pl.queue ++ [t] } })

/-- CREDIT_RESULT to the concentrator (17 R423). -/
def creditResult (account serial status : Nat) (balance : Int) (s : State) : State :=
  if 8 ≤ s.pl.queue.length then s
  else (plEnqueue 5 0 true false (le 4 account ++ le 4 serial ++ le 2 status ++ leI 8 balance) s).2

/-- PL_SEND (17 Table PL-15); its length follows LEN (04 Table HL-16 check 7). -/
def plSendBody (pl : List Byte) (s : State) : Served :=
  let d := fld pl 0 1
  let robust := (fld pl 1 1).testBit 0
  let n := fld pl 2 1
  if pl.length != 4 + n then no 0x0104 s
  else if !rdy s rLE then no 0x0DF0 s
  else if !((d ≤ 32 || d == 0xFF) && fld pl 1 1 ≤ 1 && n != 0) then no 0x0DF1 s
  else if !plUp s then no 0x0D10 s
  else if 8 ≤ s.pl.queue.length then no 0x0D11 s
  else if (if robust then 13 else 40) < n then no 0x0D12 s
  else
    let r := plEnqueue 7 d (!robust && d != 0xFF) robust (bytesAt pl 4 n) s
    ok 0x0D00 (le 4 r.1 ++ [byteOf r.2.pl.queue.length, 0, 0, 0]) r.2

def execPlSend (ch : Nat) (s : State) : Out :=
  .next (serve 0x0D02 (fun k => decide (4 ≤ k ∧ k ≤ 259)) plSendBody ch s)

/-- BEACON body (17 Table PL-9): the grants computed at the start of this superframe. -/
def beaconBody (s : State) : List Byte :=
  let ms := ((List.range 12).filter fun h => h + 1 != hubId s && nth s.pl.members h false).take 11
  le 2 (budgetEpoch s) ++ [byteOf (b2n (s.lintel.mixed && budgetEpoch s == s.lintel.epoch)), byteOf ms.length] ++
    ms.flatMap fun h => byteOf (h + 1) :: (List.range 3).flatMap fun l => le 2 (nth ((nth s.lintel.grants h none).getD []) l 0)
where
  /-- The hub answers in the lowest epoch heard in the last 4 superframes (10 R265). -/
  budgetEpoch (s : State) : Nat := match s.lintel.lowHeard with
    | some (e, _) => min e s.lintel.epoch
    | none => s.lintel.epoch

/-- DEMAND body (17 Table PL-9). -/
def demandBody (s : State) : List Byte :=
  let e := beaconBody.budgetEpoch s
  let d := fun l => if s.pl.leaving then 0 else hubDemand s l
  le 2 e ++ (List.range 3).flatMap (fun l => le 2 (d l)) ++
    [if e == s.lintel.epoch then byteOf (shareSource s) else 0, byteOf (b2n s.pl.leaving), 0, 0]

/-- The carriers of a frame go out with PAEN high; each coupling receives its own preamble (17 R397, R405, R426, log 143).
off: per coupling, the level received was more than 6 dB off. -/
def transmit (robust : Bool) (info len : Nat) (ack : Bool) (mpdu : List Byte) (off : List Bool) (s : State) : State :=
  let h := plHeader len info ack
  let s1 := { s with pl := { s.pl with
    airHdr := h, air := plAir robust h mpdu, airAt := now s, paen := true, lead := false, txAt := some s.pl.cross } }
  (plWorks s).foldl (fun s k =>
    let n := if nth off k false then (getZc s k).offLevel + 1 else 0
    let s2 := updZc k (fun z => { z with offLevel := n }) s
    if 8 ≤ n then fenceNow 5 k false 7 0 s2 else s2) s1

/-- A frame with its TAG, INFO its slot (17 R404, R414). -/
def sendMpdu (robust : Bool) (pos : Nat) (m : List Byte) (off : List Bool) (s : State) : State :=
  match plTag s m with
  | some t => transmit robust (pos / 2) (m.length + 8) false (m ++ t) off (plAes m s)
  | none => s

/-- The head of the queue is sent (17 R417). -/
def sendHead (pos : Nat) (off : List Bool) (s : State) : State :=
  match s.pl.queue with
  | [] => s
  | f :: rest =>
    if f.sentAt.isSome || f.skip != 0 || now s < f.ready + 8 then s
    else
      let s1 := sendMpdu f.robust pos f.mpdu off s
      let s2 := if f.sent == 0 then { s1 with pl := { s1.pl with sent := sat32 s1.pl.sent } } else s1
      if f.ackReq then
        { s2 with pl := { s2.pl with queue := { f with sent := f.sent + 1, sentAt := some s.pl.cross } :: rest } }
      else
        let s3 := { s2 with pl := { s2.pl with queue := rest } }
        if f.ty == 7 then plEvent 2 (fld f.mpdu 2 1) [] f.fcnt s3 else s3

/-- A frame may be sent at a place of the superframe: an ACK, a budget frame, or the head of the queue (17 R417, R419). -/
def ackDue (s : State) (cross : Nat) : Option (Nat × Nat) := s.pl.ack.filter fun e => decide (cross ≤ e.2)
def beaconDue (s : State) (pos : Nat) : Bool := budgetRole s == 2 && pos == 0 && hubId s ≤ 12 && s.lintel.conflict == 0
def demandSlot (s : State) (pos : Nat) : Bool :=
  budgetRole s == 1 && hubId s ≤ 12 && pos == 2 + 2 * hubId s && s.pl.src != 0

/-- A budget frame: Fast, to all, with the next own FCNT (17 Table PL-8). -/
def sendBudget (ty pos : Nat) (body : List Byte) (off : List Bool) (s : State) : State :=
  let r := takeFcnt s
  sendMpdu false pos (mpduOf r.2 ty 0xFF r.1 false body) off
    { r.2 with pl := { r.2.pl with txAt := some s.pl.cross, sent := sat32 s.pl.sent } }

/-- PL_FRAME_TX (17 R417, R419, 02 Table TK-4: the slot strobe crosses MC05): what the slot that begins at the reference crossing carries, one frame at most. A BEACON
carries the grants of its superframe, so the master computes them first where it has not yet. -/
def plFrameTx (off : List Bool) (s : State) : State :=
  match sfPos s with
  | none => s
  | some pos =>
    if !(plRuns s && plUp s && mc05 s) || s.pl.txAt == some s.pl.cross then s
    else match ackDue s s.pl.cross with
      | some (info, at_) =>
        if at_ == s.pl.cross then transmit false info 0 true [] off { s with pl := { s.pl with ack := none } } else s
      | none =>
        if beaconDue s pos then
          (let s1 := superframeStart s
           sendBudget 1 pos (beaconBody s1) off s1)
        else if demandSlot s pos then
          (let s1 := sendBudget 2 pos (demandBody s) off s
           { s1 with pl := { s1.pl with leaving := false } })
        else if hubPair pos then sendHead pos off s else s

def execPlFrameTx (off : List Bool) (s : State) : Out := .next (plFrameTx off s)

/-- PL_ACK_TIMEOUT (17 R417): the second slot of the pair has ended without an ACK. -/
def plAckTimeout (s : State) : State :=
  match s.pl.queue with
  | f :: rest =>
    if f.sentAt.any (fun c => decide (c + 4 ≤ s.pl.cross)) then
      if 4 ≤ f.sent then
        let s1 := { s with pl := { s.pl with queue := rest, failed := sat32 s.pl.failed } }
        if f.ty == 7 then plEvent 3 (fld f.mpdu 2 1) [] f.fcnt s1 else s1
      else
        let r := draw s
        { r.2 with pl := { r.2.pl with
          retries := sat32 s.pl.retries
          queue := { f with sentAt := none, skip := r.1 % 4, ready := now s } :: rest } }
    else s
  | [] => s

def execPlAckTimeout (s : State) : Out := .next (plAckTimeout s)

/-- Mode and length in slots that Table PL-8 gives a type, and the largest LEN (17 Table PL-5). -/
def plMode (ty : Nat) (robust : Bool) : Option (Bool × Nat) :=
  match ty with
  | 1 => some (false, 134)
  | 2 | 4 | 5 => some (false, 55)
  | 3 | 6 => some (true, 28)
  | 7 => some (robust, if robust then 28 else 55)
  | _ => none

/-- The INFO slot is one that the sender of the type may use (17 Tables PL-6, PL-8). -/
def plSlotOk (ty src slot : Nat) : Bool :=
  let pair := if src == 0 then concPair (2 * slot) else hubPair (2 * slot)
  match ty with
  | 1 => slot == 0 && decide (1 ≤ src ∧ src ≤ 32)
  | 2 => decide (1 ≤ src ∧ src ≤ 12) && slot == 1 + src
  | 3 | 4 | 6 => src == 0 && pair
  | 5 => decide (1 ≤ src ∧ src ≤ 32) && pair
  | 7 => src ≤ 32 && pair
  | _ => false

/-- Checks 1 to 6 of Table PL-10: 0 for a frame accepted, 7 for a repeat that is acknowledged again. -/
def plCheck (s : State) (robust : Bool) (hdr : Nat) (m : List Byte) : Nat :=
  let ty := fld m 0 1 % 16
  let ackReq := (fld m 0 1).testBit 4
  let src := fld m 1 1
  let dst := fld m 2 1
  let f := fld m 3 4
  let high := nth s.pl.high src 0
  let e := fld m 7 2
  if !(hcrc hdr == hdr / 4194304 % 256 && hdr % 512 == m.length && 15 ≤ m.length &&
      ((plMode ty robust).getD (robust, 134)).1 == robust && m.length ≤ ((plMode ty robust).getD (robust, 134)).2) then 1
  else if !(plSlotOk ty src (hdr / 1024 % 4096)) then 2
  else if !((dst == hubId s || (dst == 0xFF && ty != 4)) && src != hubId s) then 3
  else if !macOk s (plSlot m) (m.take (m.length - 8)) (m.drop (m.length - 8)) then 4
  else if f == high && ackReq then 7
  else if f ≤ high then 5
  else if (ty == 1 || ty == 2) && !(budgetRole s != 0 && (e == s.lintel.epoch || e + 1 == s.lintel.epoch)) then 6
  else 0

/-- A budget frame of an epoch is heard (10 R265). -/
def hearEpoch (e : Nat) (s : State) : State :=
  if e < s.lintel.epoch then
    let s1 := { s with lintel := { s.lintel with
      lowHeard := some (e, 0), mixed := true, source := if s.lintel.source == 1 then 2 else s.lintel.source } }
    if s.lintel.mixed then s1 else lintelEvent 0xFF 0 6 0xFF 0 s1
  else s

/-- An accepted BEACON (17 R413, R419, R420). -/
def onBeacon (src start : Nat) (body : List Byte) (s : State) : State :=
  let other := match s.pl.beaconSrc with
    | some (h, a) => if h != src && a < 4 then some h else none
    | none => none
  let clash := budgetRole s == 2 || other.isSome
  let loses := budgetRole s == 2 && decide (src < hubId s)
  let s0 := hearEpoch (fld body 0 2) s
  let s1 := if clash then plEvent 6 src [] 0 s0 else s0
  let s2 := if loses then { s1 with lintel := { s1.lintel with conflict := 4 } } else s1
  let used := match other with
    | some h => decide (src < h)
    | none => budgetRole s == 1 || loses
  let s3 := if used then { s2 with pl := { s2.pl with
    master := some (start, 0), beaconAge := 0, beaconSrc := some (src, 0) } } else s2
  let mine := (List.range (fld body 3 1)).find? fun j => fld body (4 + 7 * j) 1 == hubId s
  match mine with
  | some j => if used && budgetRole s == 1 then
      { s3 with lintel := { s3.lintel with grant := some ((List.range 3).map fun l => fld body (5 + 7 * j + 2 * l) 2) } }
    else s3
  | none => s3

/-- An accepted DEMAND (17 R419): a hub that leaves is counted with zero demand. -/
def onDemand (src : Nat) (body : List Byte) (s : State) : State :=
  let d := if (fld body 9 1).testBit 0 then [0, 0, 0] else (List.range 3).map fun l => fld body (2 + 2 * l) 2
  let s1 := hearEpoch (fld body 0 2) s
  if budgetRole s == 2 then { s1 with
    lintel := { s1.lintel with demands := s1.lintel.demands.set (src - 1) (true, d) }
    pl := { s1.pl with members := s1.pl.members.set (src - 1) true } }
  else s1

/-- An accepted TIME (17 R422): its instant is the stamp of the crossing that began its slot, since XREF cycles before this
tick; a unit of SUBSEC is 1,000 of them. -/
def onTime (body : List Byte) (since : Int) (s : State) : State :=
  if (fld body 8 1).testBit 0 && imgActive s 1 then
    let t := (((fld body 0 6 * 32768 + fld body 6 2 % 32768 : Nat) : Int) + since / 1000).toNat
    (clockChange (t / 32768) (t % 32768) 1 s).2
  else s

/-- An accepted CREDIT (17 R423, 14 R356, R357). -/
def onCredit (body : List Byte) (s : State) : State :=
  let t := padTo 32 body
  let acct := fld t 4 4
  let ser := fld t 8 4
  if !rdy s rLedger || !rdy s rAP then creditResult acct ser 0x0AF0 0 s
  else
    let r := applyToken t (fun q => [.creditResult acct ser 0x0A00 (recBal q)]) s
    if r.1 == 0x0A00 then r.2
    else if readsPending t s then afterWrite acct (.creditResult acct ser r.1 0) r.2
    else creditResult acct ser r.1 0 r.2

/-- The frame is delivered by its type. -/
def plDeliver (m : List Byte) (start : Nat) (since : Int) (s : State) : State :=
  let ty := fld m 0 1 % 16
  let src := fld m 1 1
  let body := (m.drop 7).take (m.length - 15)
  let s1 := if src == 0 then { s with pl := { s.pl with conc := some (start, 0) } } else s
  match ty with
  | 1 => onBeacon src start body s1
  | 2 => onDemand src body s1
  | 3 => onTime body since s1
  | 4 => onCredit body s1
  | 7 => if plOpt s 10 == 1 then plEvent 1 src body (fld m 3 4) s1 else s1
  | _ => s1

/-- An ACK ends the wait of the frame that it names (17 R417). -/
def onAck (info : Nat) (s : State) : State :=
  match s.pl.queue with
  | f :: rest =>
    if f.sentAt.isSome && f.fcnt % 4096 == info then
      let s1 := { s with pl := { s.pl with queue := rest } }
      if f.ty == 7 then plEvent 2 (fld f.mpdu 2 1) [] f.fcnt s1 else s1
    else s
  | [] => s

/-- A failed check is counted (17 R416). -/
def plFail (k : Nat) (s : State) : State := { s with pl := { s.pl with fails := s.pl.fails.modify (k - 1) sat32 } }

/-- The superframe start that an accepted frame tells: 2 INFO crossings before its own (17 R413). -/
def startOf (cross hdr : Nat) : Nat := (cross + 64 - 2 * (hdr / 1024 % 32) % 64) % 64

/-- A received frame after its demodulation: its checks, its ACK, its delivery (17 R404, R416, R417). ago: reference
crossings since the one that began it. -/
def plReceive (robust : Bool) (hdr : Nat) (m : List Byte) (ago : Nat) (s : State) : State :=
  if hdr.testBit 9 then
    if hcrc hdr != hdr / 4194304 % 256 || hdr % 512 != 0 || robust then plFail 1 s else onAck (hdr / 1024 % 4096) s
  else
    let r := plCheck s robust hdr m
    let src := fld m 1 1
    let f := fld m 3 4
    let acks := fun (s : State) =>
      if (fld m 0 1).testBit 4 then { s with pl := { s.pl with ack := some (f % 4096, s.pl.cross - ago + 2) } } else s
    if r == 7 then acks (plVerify m s)
    else if r != 0 then plFail r (if r < 4 then s else plVerify m s)
    else
      let since : Int := (4096 * now s : Nat) - (nth s.pl.stamps ago (4096 * now s) : Nat)
      plDeliver m (startOf (s.pl.cross - ago) hdr) since (acks (putHigh src f (plVerify m s)))

/-- What a coupling hears of the samples received on it (17 R407). -/
def plHear (s : State) (rx : List (List Int)) (k : Nat) : Heard := hear (plOpt s 2) (getZc s k).noise (nth rx k [])

/-- A receiver still to measure its floor starts again behind a preamble (17 R411). -/
def plUnsettled (s : State) : State :=
  foldN 3 (fun k s => updZc k (fun z => { z with calFrom := if z.cal then z.calFrom else now s }) s) s

/-- A frame counts on the couplings that heard it, with the symbols erased (17 Table PL-14). -/
def plCounted (rx : List (List Int)) (s : State) : State :=
  plUnsettled ((plWorks s).foldl (fun q k => updZc k (fun z => { z with
    frames := sat32 z.frames, erased := satAdd 0xFFFFFFFF z.erased ((plHear s rx k).gone.filter id).length }) q) s)

/-- PL_FRAME_RX (17 R402, R407 to R410, R416): per coupling the samples from the preamble on, blanked, transformed, combined
over the couplings that work and decoded. -/
def plFrameRx (ago : Nat) (rx : List (List Int)) (s : State) : State :=
  if !plRuns s then s
  else if (plWorks s).isEmpty then plUnsettled s
  else
    let r := decodeFrame ((plWorks s).map (plHear s rx))
    plReceive r.1 r.2.1 r.2.2 ago (plCounted rx s)

/-- Receive samples with the mid-level removed (17 R407). -/
def lessMid (mid : Nat) (rx : List (List Nat)) : List (List Int) := rx.map fun x => x.map fun (v : Nat) => (v : Int) - (mid : Int)

def execPlFrameRx (rxA rxB rxC : List Nat) (mid ago : Nat) (s : State) : Out :=
  .next (plFrameRx ago (lessMid mid [rxA, rxB, rxC]) s)

/-- The frame in the samples of the couplings in use, as the wake detector and LE decode it (17 R399, R424). -/
def wakeDecode (s : State) (rx : List (List Int)) : Bool × Nat × List Byte := decodeFrame ((plWorks s).map (plHear s rx))
/-- The wake detector's window stands open: the couplings in use are ungated (17 R424). -/
def wakeOpen (s : State) : Bool := s.clk.plRun && s.pl.window.isSome

/-- What the wake detector does with a frame that it has decoded (17 R424): in STANDBY a Robust frame whose header matches
with LEN 15 raises the wake; 40 ms of samples are kept per coupling. -/
def wakeHeard (r : Bool × Nat × List Byte) (rx : List (List Int)) (s : State) : State :=
  if s.pw.mode == 2 && s.pl.kept.isNone && wakeOpen s && !(plWorks s).isEmpty && s.pw.last.mask.testBit 3 && r.1 &&
      hcrc r.2.1 == r.2.1 / 4194304 % 256 && r.2.1 % 512 == 15 then
    wakeFire 3 0 { s with pl := { s.pl with kept := some (rx.map fun x => x.take 13107, s.pl.cross) } }
  else s

/-- WAKE_PREAMBLE (17 R424). -/
def wakePreamble (rx : List (List Int)) (s : State) : State := wakeHeard (wakeDecode s rx) rx s

def execWakePreamble (rx : List (List Nat)) (mid : Nat) (s : State) : Out := .next (wakePreamble (lessMid mid rx) s)

/-- A frame will be sent at the next reference crossing, as far as the state tells (17 R417, R419). -/
def plNext (s : State) : Bool :=
  plRuns s && plUp s && (sfPos s).any fun p =>
    let pos := (p + 1) % 64
    (ackDue s (s.pl.cross + 1)).any (fun e => e.2 == s.pl.cross + 1) || beaconDue s pos || demandSlot s pos ||
    (hubPair pos && s.pl.queue.head?.any fun f => f.sentAt.isNone && f.skip == 0 && decide (f.ready + 6 ≤ now s))

/-- The 200 us before the next reference crossing have begun in this tick, by the period of the input used (17 Table
PL-1, log 143). -/
def leadNow (s : State) : Bool :=
  match zcUsed s, s.pl.stamps.head? with
  | some k, some r =>
    let next := 10 * (r + zcMean (getZc s k))
    decide (next < 40960 * (now s + 1) + 65536) && decide (40960 * now s < next + 40960)
  | _, _ => false

/-- PAEN rises 200 us before the first transmit sample and falls 100 us after the last; one that led a frame that was not
sent falls too (17 Table PL-1, log 143). -/
def paenTick (s : State) : State :=
  if s.pl.lead then (if leadNow s then s else { s with pl := { s.pl with paen := false, lead := false } })
  else if !s.pl.paen then (if leadNow s && plNext s then { s with pl := { s.pl with paen := true, lead := true } } else s)
  else if 28125 * s.pl.air.length + 3200 ≤ 4000 * (now s - s.pl.airAt) then { s with pl := { s.pl with paen := false } }
  else s

/-- The wake detector's window ends after 10 symbols, 70.3 ticks: the couplings are gated again (17 R424). -/
def shutWindow (s : State) : State :=
  if s.pl.window.any fun t => decide (t + 71 ≤ now s) then
    { s with clk := { s.clk with plRun := s.clk.plRun && s.pw.mode != 2 }, pl := { s.pl with window := none } }
  else s

/-- The link in one tick: PAEN; the wake detector's window; the couplings' fences and the state of the link are reported
(17 R397, R424, R426, R428). -/
def plTick (s0 : State) : State :=
  let s := shutWindow (paenTick s0)
  let s1 := foldN 3 (fun k s =>
    let f := fencedB s 5 k
    let s2 := updZc k (fun z => { z with told := f, offLevel := if f then 0 else z.offLevel }) s
    if f && !(getZc s k).told then plEvent 5 k [] 0 s2 else s2) s
  let up := plUp s1
  if up == s.pl.up || !imgActive s 4 then s1 else plEvent (if up then 8 else 7) 0 [] 0 { s1 with pl := { s1.pl with up := up } }

/-- LE starts: the options loaded apply, the receivers measure anew (17 R400, R411). -/
def plStart (s : State) : State :=
  { s with pl := { s.pl with
    opts := tab s 0x0D01, zc := s.pl.zc.map fun z => { z with calFrom := now s } } }

/-- PL_STATUS (17 Table PL-14). -/
def plStatusBody (_ : List Byte) (s : State) : Served :=
  if !rdy s rLE then no 0x0DF0 s
  else
    let c := fun k =>
      let z := getZc s k
      let st := if fencedB s 5 k then 3 else if !(plSet s).contains k then 0 else if z.locked then 1 else 2
      [byteOf st, 0] ++ le 2 z.noise ++ le 4 (zcMean z) ++ le 4 z.frames ++ le 4 z.erased
    let low := match s.lintel.lowHeard with
      | some (e, _) => e
      | none => s.lintel.epoch
    ok 0x0D00 (c 0 ++ c 1 ++ c 2 ++ [byteOf s.pl.src, byteOf ((sfPos s).getD 0 / 2), byteOf (b2n (s.pw.mode == 2)), 0] ++
      le 4 s.pl.fcnt ++ le 4 s.pl.sent ++ le 4 s.pl.retries ++ le 4 s.pl.failed ++ le 2 s.lintel.epoch ++ le 2 low ++
      le 2 s.pl.beaconAge ++ [0, 0]) s

def execPlStatus (ch : Nat) (s : State) : Out := .next (serve 0x0D01 (len 0) plStatusBody ch s)

/-- Table 0x0D01 (17 R400). -/
def check0D01 (b : List Byte) : Option Nat :=
  if decide (fld b 0 1 ≤ 1 ∧ fld b 1 1 ≤ 15 ∧ fld b 3 1 ≤ 1 ∧ fld b 10 1 ≤ 1) && within b 2 1 20 80 &&
     ([4, 6, 8].all fun o => decide (-2000 ≤ fldI b o 2 ∧ fldI b o 2 ≤ 2000)) && allZero b 11 5 then none
  else some 0x0D13

end Sys2Proof.Machine
end

