-- ==== Sys2Proof/Machine/Store.lean ====
section
/-!
DEFINITION. The store engine's operations as they complete, the store after a full reset, and the rebuild of a ledger
copy (18 R439 to R446, 14 R340).
-/

namespace Sys2Proof.Machine

/-- A record that leads to a credit no longer is pending once PEND_SPENT is 0 (14 Table PP-9). -/
def dropVerified (a : Nat) (s : State) : State := match ledView s a with
  | some r => if fld r 64 8 == 0 then { s with qr := { s.qr with verified := s.qr.verified.filter (· != a) } } else s
  | none => s

/-- A ring of 65,536 entries (15 R369). -/
def mirrorAdd (l : List CairnEntry) (e : CairnEntry) : List CairnEntry :=
  let q := l ++ [e]
  if 65536 < q.length then q.drop 1 else q

/-- A blob reaches its zone; above 1000 it is dropped, and 0xFF drops all (19 R457, R463). -/
def storeBlob (slot : Nat) (data : List (List Byte)) (s : State) : State :=
  if slot == 1000 + 0xFF then { s with qr := { s.qr with blobs := [] } }
  else if 1000 ≤ slot then { s with qr := { s.qr with blobs := spSet [] s.qr.blobs (slot - 1000) [] } }
  else { s with qr := { s.qr with blobs := spSet [] s.qr.blobs slot (nth data 0 []) } }

/-- An open table reaches its zone: id, version and content in the operation's data (18 Table QS-6). -/
def storeTable (id : Nat) (data : List (List Byte)) (s : State) : State :=
  let b := nth data 1 []
  let r : TableRec := { id := id, version := fld (nth data 0 []) 0 2, bytes := b, crc := crc32 b }
  { s with qr := { s.qr with opens := (s.qr.opens.filter fun q => q.id != id) ++ [r] } }

/-- The units of an item that a newer version replaces are dead: all but those at the addresses of its operation. -/
def killOld (kind idx : Nat) (o : SeOp) (s : State) : State :=
  (zoneChips s kind).foldl (fun s i => updChip i (fun k => { k with blks := k.blks.map fun e =>
    if e.2.kind != kind then e
    else (e.1, { e.2 with units := e.2.units.zipIdx.map fun u =>
      if u.1.idx == idx && !(o.dests.any fun d => d.2 == addrOf k i e.1 u.2) then { u.1 with live := false } else u.1 }) }) s) s

/-- What follows the commit of an operation. -/
def follow (o : SeOp) (f : Follow) (s : State) : State :=
  match f with
  | .answer ch st pl => answerLate ch st pl s
  | .reserve p =>
    if (getPort s p).se.stage == 1 then updSess p (fun k => { k with stage := 5, at_ := now s }) s else s
  | .settled p => updPort p (fun q => { q with se := {} }) s
  | .credit p ev old new a v => creditEvent p ev old new a v s
  | .update a => dropVerified a (if o.code == 4 then reservationUpdate a (uidUpdate a s) else uidUpdate a s)
  | .block a => blockSession a s
  | .purse n => onPurse n s
  | .verified n a => onVerified n a s
  | .mirror n =>
    match s.cairn.ring.find? fun e => e.seq == n with
    | some e => { s with
        cairn := { s.cairn with mirror := mirrorAdd s.cairn.mirror e, mirrorSeq := n }
        qr := { s.qr with mirrorN := s.qr.mirrorN + 1 } }
    | none => s
  | .spill n => { s with ev := { s.ev with zone := s.ev.zone ++ o.data.map evOfBytes, spilled := n } }
  | .profile => { s with qr := { s.qr with profs := s.qr.profs ++ o.data, profN := s.qr.profN + 1 } }
  | .bill n => { s with qr := { s.qr with bills := spSet [] s.qr.bills n (nth o.data 0 []) } }
  | .sweep => { s with qr := { s.qr with
      sess := s.qr.sess ++ o.data.filter (fun r => !s.qr.sess.contains r)
      sessPend := s.qr.sessPend.filter fun e => !o.data.contains e.2 } }
  | .table id => storeTable id o.data (killOld 0x25 id o s)
  | .blob slot => storeBlob slot o.data (killOld 0x26 slot o s)
  | .through i b => if chipReads s i then updBlk i b (fun q => { q with scrubbed := s.rtc.sec }) s else s
  | .creditResult a n st b => creditResult a n st b s
  | .rebuilt c =>
    if (s.qr.ops ++ s.qr.asks).any fun p => p.after.contains (.rebuilt c) then s
    else { s with qr := { s.qr with rebuild := s.qr.rebuild.set c false } }

/-- The AES job of a request has failed: who waits for it gets an error (01 R37, log 120). -/
def unfollow (f : Follow) (s : State) : State :=
  match f with
  | .answer ch _ _ => answerLate ch 0x0AF0 [] s
  | .reserve p => answerLate (getPort s p).se.ch 0x0AF0 [] (updPort p (fun q => { q with se := {} }) s)
  | .settled p => updSess p (fun k => { k with stage := 3 }) s
  | .purse n => if (getNf s n).ph == 11 then refuse n 1 s else s
  | .creditResult a n _ _ => creditResult a n 0x0AF0 0 s
  | _ => s

/-- The requests whose AES job has failed are dropped (01 R37). -/
def dropFailed (s : State) : State :=
  let bad := fun (o : SeOp) => o.job != 0 && s.vault.aes.fails.contains o.job
  let s1 := { s with
    qr := { s.qr with asks := s.qr.asks.filter fun o => !bad o }
    vault := { s.vault with aes := { s.vault.aes with fails := [] } } }
  ((s.qr.asks.filter bad).flatMap fun o => o.after).foldl (fun s f => unfollow f s) s1

/-- DATA records have reached their zone (18 R440). -/
def packDone (o : SeOp) (s : State) : State :=
  if isPack 0x22 o then { s with qr := { s.qr with mirrorN := s.qr.mirrorN - o.data.length } }
  else if isPack 0x21 o then { s with qr := { s.qr with profN := s.qr.profN - o.data.length } }
  else s

/-- The blocks of a kind on a chip that take no further unit and whose units all satisfy a test. -/
def oldBlks (s : State) (i kind : Nat) (p : NUnit → Bool) : List Nat :=
  ((blksOf (chipOf s i) kind).filter fun e => !openBlk s i e && !isVictim s i e.1 && e.2.units.all p).map (·.1)

/-- A checkpoint is in force; the journal blocks that it frees and the blocks of checkpoints in neither slot are to be
erased (18 R439, R441). -/
def ckptDone (s : State) : State :=
  let cks := s.qr.cks.map fun c => c.map fun c => { c with done := true }
  let top := (cks.filterMap id).foldl (fun n c => max n c.jseq) 0
  let s1 := { s with qr := { s.qr with cks := cks, ckpt := top } }
  (jChans s).foldl (fun s c =>
    let i := 2 * c.1 + c.2
    (oldBlks s i 3 (fun u => cks.all fun c => c.all fun c => u.jseq != c.jseq) ++ oldBlks s i 2 (fun u => u.jseq ≤ top)).foldl
      (fun s b => askErase i b s) s) s1

/-- The victim of a committed operation joins the free pool (18 R444). -/
def freeVictim (o : SeOp) (s : State) : State :=
  let i := 2 * o.victim.1 + o.victim.2.1
  let b := o.victim.2.2
  if (o.code == 7 || (o.copied && (o.code == 5 || o.code == 6))) && (getBlk (chipOf s i) b).units.isEmpty then freeBlk i b s else s

/-- An operation has no NAND operation left: it is committed (18 R441). -/
def commitOp (o : SeOp) (s : State) : State :=
  let s1 := freeVictim o { s with qr := { s.qr with ops := s.qr.ops.filter fun p => p.id != o.id } }
  let s2 := packDone o (if o.code == 11 then ckptDone s1 else s1)
  o.after.foldl (fun s f => follow o f s) s2

/-- NAND_OP_COMPLETE (18 R441): outcome 0 passed or clean, 1 weak or failed, 2 uncorrectable or failed, 3 erased. -/
def nandDone (chan id out : Nat) (s : State) : State :=
  match nandTurn s chan id with
  | some o =>
    match o.steps with
    | t :: rest =>
      let r := nandStep o t rest out s
      let s1 := useTime chan (stepCls o t) (setOp r.1 r.2)
      startNands (if r.1.steps.isEmpty then commitOp r.1 s1 else s1)
    | [] => s
  | none => s

def execNandOpComplete (chan op outcome : Nat) (s : State) : Out := .next (nandDone chan op outcome s)

/-- The buckets that a copy holds, each with one of its records, for the rebuild of the other copy. -/
def bucketsOf (s : State) (c : Nat) : List (Nat × List Byte) :=
  (s.qr.bmap.filter fun e => e.1 % 2 == c && e.2 != 0).filterMap fun e =>
    ((List.range 16).map fun k => 8 * e.1 - 8 * c + k).findSome? fun a => if (rawRec s c a).isEmpty then none else (copyRec s c a).map fun r => (a, r)

/-- A copy that missed writes is rebuilt from the other in MAINT, bucket by bucket, before it serves reads (18 Table
QS-11). -/
def rebuildCopy (c : Nat) (s : State) : State :=
  let i := copyChip s c
  if !chipReads s i then
    (if copyServes s (1 - c) then { s with qr := { s.qr with rebuild := s.qr.rebuild.set c true } } else s)
  else if nth s.qr.rebuild c false && chipUp s i && copyServes s (1 - c) &&
      !((s.qr.ops ++ s.qr.asks).any fun o => o.after.contains (.rebuilt c)) then
    match bucketsOf s (1 - c) with
    | [] => { s with qr := { s.qr with rebuild := s.qr.rebuild.set c false } }
    | l => l.foldl (fun s e => seAsk { code := 1, cls := 5, recs := [e], copies := [c], after := [.rebuilt c] } s) s
  else s

/-- What becomes of a step whose chip has gone: a read is left out; a journal or checkpoint unit is left out where another
channel takes it, and else goes to a channel that serves; a ledger unit is left out while the other copy takes writes; any
other waits for its chip (18 R441, Table QS-11). -/
def dropStep (s : State) (o : SeOp) (t : NStep) : Option NStep :=
  let up := fun c => chipUp s (2 * c) || chipUp s (2 * c + 1)
  if !stepDead s t then some t
  else if t.act == 0 then (if moves o then some t else none)
  else if isJournal t || (t.act == 1 && t.kind == 3 && !moves o) then
    (if o.jnow.isSome || o.chans.any fun c => c != t.chan && up c then none
     else match jChans s with
      | c :: _ => some { t with chan := c.1, chip := c.2 }
      | [] => some t)
  else if t.act == 1 && ledKind t.kind && !moves o && chipUp s (copyChip s (1 - (t.kind - 0x10))) then none
  else some t

/-- An operation whose medium has changed under it. A move not yet COPIED whose chip has gone is rolled back: its copies
stay dead and only its COMMIT follows (18 R441, Table QS-6). A journal unit that no other channel takes any longer is
closed. -/
def replan (o : SeOp) (s : State) : SeOp × State :=
  let dead := o.steps.filter (stepDead s)
  if dead.isEmpty then (o, s)
  else if (o.code == 5 || o.code == 6) && !o.copied && dead.any (fun t => !isJournal t) then
    ({ o with dests := [], jnow := none, steps := if o.begun then jSteps s 3 else [], after := [] }, s)
  else
    let left := o.steps.filterMap (dropStep s o)
    let o1 := { o with steps := left }
    let skipped := fun c => o.steps.any (fun t => t.act == 1 && t.kind == 0x10 + c && (dropStep s o t).isNone)
    let s1 := { s with qr := { s.qr with rebuild := s.qr.rebuild.zipIdx.map fun e => e.1 || skipped e.2 } }
    match o.jnow, o.jnow.bind fun u => u.recs.head? with
    | some u, some r =>
      if left.head?.any fun t => isJournal t && t.idx == r.ty then (o1, s1) else journalClose { o1 with jnow := none } u r.ty s1
    | _, _ => (o1, s1)

/-- The widest run of passing steps of the delay line, its first step and its length (18 R431, log 147). -/
def widestEye (m : Nat) : Nat × Nat :=
  let step := fun (r : (Nat × Nat) × (Nat × Nat)) k =>
    let cur := if m.testBit k then (if r.2.2 == 0 then (k, 1) else (r.2.1, r.2.2 + 1)) else (0, 0)
    (if r.1.2 < cur.2 then cur else r.1, cur)
  ((List.range 17).foldl step ((0, 0), (0, 0))).1

/-- The clock and the delay that the search of a mount finds: the middle of the widest window, at 100 or 50 MHz only where
it is 2 ns wide, none without a window at 25 MHz (18 R431). -/
def eyeSearch (eyes : List Nat) : Option (Nat × Nat) :=
  let w := fun k => widestEye (nth eyes k 0)
  let mid := fun k => (k, (w k).1 + ((w k).2 - 1) / 2)
  if 5 ≤ (w 0).2 then some (mid 0) else if 5 ≤ (w 1).2 then some (mid 1) else if 1 ≤ (w 2).2 then some (mid 2) else none

/-- What binds a mount record to this device (18 R439). -/
def bindOf (s : State) : List Byte := (sha256 s.otp.devId).take 8

/-- The bad-block table of a chip at its mount: at the first the maker's marks are read and recorded, later the newer copy of
the table is loaded (18 R434). -/
def loadBad (i : Nat) (s : State) : State :=
  let k := chipOf s i
  let mark := fun (l : List Nat) (s : State) => l.foldl (fun s b => updBlk i b (fun q => { q with bad := true }) s) s
  if k.bbtN == 0 then writeBbt i (updChip i (fun k => { k with badF := k.marks.length }) (mark k.marks s))
  else mark (nth k.bbt ((k.bbtN + 1) % 2) []) s

/-- A chip is mounted (18 R430, R431, R434, R439). -/
def mountChip (i : Nat) (s0 : State) : State :=
  let k := chipOf s0 i
  let e := eyeSearch k.eyes
  if !k.fit || e.isNone || !s0.qr.devices.contains k.id then updChip i (fun k => { k with st := 0 }) s0
  else
    let s := loadBad i (updChip i (fun k => { k with clock := (e.map Prod.fst).getD 0, delay := (e.map Prod.snd).getD 0 }) s0)
    let low := decide (chipReserve s i * 100 < 4 * k.blocks)
    let s0 := if low then s else bootLift 9 i s
    let s1 := updChip i (fun k => { k with st := if fencedB s0 9 i then 3 else 1 }) s0
    if low then fenceNow 9 i false 0x0A 2 (updChip i (fun k => { k with st := 2 }) s1) else s1

/-- A mounted chip holds a mount record of this device (18 R439). -/
def bound (s : State) (i : Nat) : Bool := (chipOf s i).st != 0 && (chipOf s i).mount == bindOf s

/-- A mounted chip without a mount record of this device is formatted; the generation rises with a ledger chip while no
mounted chip is bound (18 R439). -/
def formatChip (i : Nat) (s : State) : State :=
  if (chipOf s i).st == 0 || bound s i then s
  else
    let none_ := (List.range 4).all fun j => !bound s j
    let s1 := updChip i (fun k => { k with mount := bindOf s, shrunk := 0, blks := k.blks.filterMap fun e =>
      (if e.2.bad || e.2.erases != 0 then some (e.1, ({ erases := e.2.erases, bad := e.2.bad } : Blk)) else none) }) s
    if none_ && (copyChip s 0 == i || copyChip s 1 == i) then
      let g := (s1.qr.gen + 1) % 4294967296
      evrec 0x0E01 4 0xFF ([byteOf (i / 2), byteOf (i % 2), 0, 0] ++ le 4 g)
        (sysWrite .se .generation s1.qr.gen g (fun v s => { s with qr := { s.qr with gen := v } }) s1)
    else s1

/-- The units of a zone that the mounted chips hold. -/
def unitsHeld (s : State) (kind : Nat) : List NUnit := (List.range 4).flatMap fun i =>
  if (chipOf s i).st == 0 then []
  else ((chipOf s i).blks.filter fun e => e.2.kind == kind).flatMap fun e => e.2.units.filter fun u => u.live && !u.lost

/-- What the zones and the journal hold once a chip has been formatted: what lay on it alone is gone (18 R439, 15 R370). -/
def zonesHeld (s : State) : State :=
  let us := journalUnits s
  let jr := us.flatMap fun u => u.recs.flatMap fun r => r.data
  let zone := fun kind => (unitsHeld s kind).flatMap fun u => u.data
  let zs := zone 0x20
  let zp := zone 0x21
  let zm := zone 0x22
  let mir := s.cairn.mirror.filter fun e => zm.contains (cairnBytes e) || jr.contains (cairnBytes e)
  let pro := s.qr.profs.filter fun b => zp.contains b || jr.contains b
  { s with
    cairn := { s.cairn with mirror := mir }
    ev := { s.ev with zone := s.ev.zone.filter fun e => (zone 0x24).contains (evBytes e) }
    qr := { s.qr with
      cks := if us.isEmpty then [none, none] else s.qr.cks
      sess := s.qr.sess.filter fun b => zs.contains b || jr.contains b
      sessPend := s.qr.sessPend.filter fun e => jr.contains e.2
      profs := pro, profN := (pro.filter fun b => !zp.contains b).length
      mirrorN := (mir.filter fun e => !zm.contains (cairnBytes e)).length
      bills := s.qr.bills.filter fun e => (zone 0x23).contains e.2
      opens := s.qr.opens.filter fun r => (unitsHeld s 0x25).any fun u => u.idx == r.id
      blobs := s.qr.blobs.filter fun e => (unitsHeld s 0x26).any fun u => u.idx == e.1
      verified := s.qr.verified.filter fun a => jr.contains (le 4 a) } }

/-- The newest complete checkpoint slot (18 R442). -/
def newestCkpt (s : State) : Ckpt := (s.qr.cks.filterMap id).foldl (fun r c => if c.done && r.jseq < c.jseq then c else r) {}

/-- The OP_IDs that have a record of a type in the journal, and the INTENT of one. -/
def idsOf (us : List NUnit) (ty : Nat) : List Nat := us.flatMap fun u => (u.recs.filter fun r => r.ty == ty).map (·.id)
def intentOf (us : List NUnit) (id : Nat) : Option JRec :=
  (us.flatMap fun u => u.recs).find? fun r => r.ty == 1 && r.id == id

/-- A DATA record that SE had not yet counted when the reset came (18 R440, R441). -/
def addData (b : List Byte) (s : State) : State :=
  if b.length == 64 then
    (match s.cairn.ring.find? fun e => e.seq == fld b 0 8 && cairnBytes e == b with
      | some e => if (s.cairn.mirror.getLast?).any (fun m => e.seq ≤ m.seq) then s
        else { s with cairn := { s.cairn with mirror := mirrorAdd s.cairn.mirror e }, qr := { s.qr with mirrorN := s.qr.mirrorN + 1 } }
      | none => s)
  else if b.length == 512 then
    (if s.qr.profs.contains b then s else { s with qr := { s.qr with profs := s.qr.profs ++ [b], profN := s.qr.profN + 1 } })
  else if b.length == 4 then
    (let a := fld b 0 4
     if s.qr.verified.contains a || !((ledRead s a).any fun r => fld r.2.2 64 8 != 0) then s
     else { s with qr := { s.qr with verified := s.qr.verified ++ [a] } })
  else s

/-- The records of a journal unit beyond the checkpoint (18 R442): MAP records of committed or COPIED operations, the index
after a committed write, DATA records. -/
def applyUnit (us : List NUnit) (u : NUnit) (s : State) : State :=
  let done := idsOf us 3 ++ idsOf us 2
  u.recs.foldl (fun s r =>
    if r.ty == 5 then (if done.contains r.id then mapBucket r.map.1 r.map.2 s else s)
    else if r.ty == 1 then (if r.op ≤ 4 then addSess r.data s else s)
    else if r.ty == 4 then r.data.foldl (fun s b => addData b s) s
    else s) s
def indexUnit (us : List NUnit) (u : NUnit) (s : State) : State :=
  (u.recs.filter fun r => r.ty == 3).foldl (fun s r => match intentOf us r.id with
    | some q => q.recs.foldl (fun s e => uidUpdate e.1 s) s
    | none => s) s

/-- The erase counts: those of the checkpoint and the erases committed since (18 R435, R442). -/
def loadErases (c : Ckpt) (us : List NUnit) (s : State) : State :=
  let since := (us.filter fun u => c.jseq < u.jseq).flatMap fun u => (u.recs.filter fun r => r.ty == 3).filterMap fun r =>
    (intentOf us r.id).bind fun q =>
      if q.op == 7 || ((q.op == 5 || q.op == 6) && (idsOf us 2).contains q.id) then some (2 * q.victim.1 + q.victim.2.1, q.victim.2.2) else none
  let base := c.erases.zipIdx.foldl (fun s e => e.1.foldl (fun s p => updBlk e.2 p.1 (fun q => { q with erases := p.2 }) s) s) s
  since.foldl (fun s p => updBlk p.1 p.2 (fun q => { q with erases := q.erases + 1 }) s) base

/-- The newest complete checkpoint is loaded and the journal applied to it (18 R442). -/
def loadStore (s : State) : State :=
  let c := newestCkpt s
  let us := journalUnits s
  let new := us.filter fun u => c.jseq < u.jseq
  let s1 := { s with qr := { s.qr with
    bmap := c.bmap, uids := c.uids, ckpt := c.jseq, loaded := true
    cks := s.qr.cks.map fun k => k.bind fun k => if k.done then some k else none
    jseq := us.foldl (fun n u => max n u.jseq) s.qr.jseq } }
  let s2 := new.foldl (fun s u => applyUnit us u s) s1
  new.foldl (fun s u => indexUnit us u s) s2

/-- The copies of a move in a zone other than the ledger take the place of the victim's units: same KIND, INDEX and content
(18 R444). -/
def promote (i b : Nat) (s : State) : State :=
  let us := (getBlk (chipOf s i) b).units.filter (·.live)
  let same := fun (u v : NUnit) => u.kind == v.kind && u.idx == v.idx && u.part == v.part && u.data == v.data && u.jseq == v.jseq
  let at_ := fun (n : Nat) (v : NUnit) => if n == b then { v with live := false } else if us.any (same v) then { v with live := true } else v
  if us.isEmpty || us.any (fun u => ledKind u.kind) then s
  else updChip i (fun k => { k with blks := k.blks.map fun e => (e.1, { e.2 with units := e.2.units.map (at_ e.1) }) }) s

/-- A bucket is written again where a copy's stored SEQ is below that of a record (18 R442): the bucket key and address. -/
def replayBucket (recs : List (Nat × List Byte)) (c b : Nat) (s : State) : List (Nat × Nat) × State :=
  let i := copyChip s c
  let new := recs.filter fun e => e.1 / 16 == b &&
    (copyLost s c b || (rawRec s c e.1).isEmpty || fld (rawRec s c e.1) 8 8 < fld e.2 8 8)
  if new.isEmpty then ([], s)
  else if !chipUp s i then ([], { s with qr := { s.qr with rebuild := s.qr.rebuild.set c true } })
  else match placeUnit i { kind := 0x10 + c, idx := b, data := bucketData s new c b } s with
    | some p => ([(2 * b + c, p.1)], mapBucket (2 * b + c) p.1 p.2)
    | none => ([], s)

/-- What is left of the content of a retired block moves (18 R434, R442). -/
def replayMove (i b : Nat) (s : State) : List (Nat × Nat) × State :=
  (liveUnits s (i / 2, i % 2, b)).foldl (fun r k =>
    let u := (getBlk (chipOf r.2 i) b).units.getD k.1 {}
    match placeUnit i u r.2 with
    | some p =>
      if ledKind u.kind then (r.1 ++ [(k.2, p.1)], mapBucket k.2 p.1 p.2)
      else (r.1, updBlk i b (fun q => { q with units := q.units.modify k.1 fun u => { u with live := false } }) p.2)
    | none => r) ([], s)

/-- The COMMIT of an operation is appended to the journal, with its MAP records (18 R442). -/
def appendCommit (r : JRec) (maps : List (Nat × Nat)) (s : State) : State :=
  let mk := fun (ty : Nat) (m : Nat × Nat) => ({ ty := ty, op := r.op, id := r.id, map := m } : JRec)
  let u : NUnit := { kind := 2, jseq := s.qr.jseq + 1, ckpt := s.qr.ckpt, recs := mk 3 (0, 0) :: maps.map (mk 5) }
  let s1 := (jChans s).foldl (fun s c => match placeUnit (2 * c.1 + c.2) u s with
    | some p => p.2
    | none => s) s
  { s1 with qr := { s1.qr with jseq := s.qr.jseq + 1 } }

/-- One operation with an INTENT and no COMMIT is replayed or rolled back, and committed (18 R442, Table QS-6). -/
def replayOp (copied : Bool) (r : JRec) (s : State) : State :=
  let i := 2 * r.victim.1 + r.victim.2.1
  let b := r.victim.2.2
  if r.op == 8 || r.op == 11 then appendCommit r [] s
  else if r.op == 7 || r.op == 5 || r.op == 6 then
    if !chipUp s i then s
    else if r.op == 7 then freeBlk i b (appendCommit r [] (eraseDone 7 i b s))
    else if copied then freeBlk i b (appendCommit r [] (eraseDone r.op i b (promote i b s)))
    else appendCommit r [] s
  else if r.op == 10 then
    (if !chipUp s i then s
     else
      let m := replayMove i b s
      appendCommit r m.1 m.2)
  else if r.op == 9 then
    let k := zoneChip s 0x26
    (match placeUnit k { kind := 0x26, idx := r.item, data := r.data } s with
      | some p => appendCommit r [] (storeBlob r.item r.data (killOld 0x26 r.item { dests := [(0, p.1)] } p.2))
      | none => s)
  else if !([0, 1].any fun c => chipUp s (copyChip s c)) then
    seAsk { code := r.op, cls := 3, recs := r.recs, after := r.recs.map fun e => .update e.1 } s
  else
    let m := (r.recs.map fun e => e.1 / 16).eraseDups.foldl (fun m b =>
      let p := replayBucket r.recs 0 b m.2
      let q := replayBucket r.recs 1 b p.2
      (m.1 ++ p.1 ++ q.1, q.2)) ([], s)
    r.recs.foldl (fun s e => dropVerified e.1 (uidUpdate e.1 s)) (appendCommit r m.1 m.2)

/-- The operations with an INTENT and no COMMIT, in JSEQ order (18 R442). -/
def unfinished (us : List NUnit) : List JRec :=
  (us.flatMap fun u => u.recs).filter fun r => r.ty == 1 && !(idsOf us 3).contains r.id

/-- A chip of the channel is mounted (03 Table PU-16). -/
def chanUp (s : State) (c : Nat) : Bool := [2 * c, 2 * c + 1].any fun i => (chipOf s i).st == 1 || (chipOf s i).st == 2

/-- The store in a tick: chips and channels that came back, maps lost in STANDBY, copies to be rebuilt, operations whose chips
are gone (18 R438, R441, R446). -/
def storeTick (s : State) : State :=
  if !rdy s rSE then s
  else
    let s1 := foldN 4 (fun i s =>
      if (chipOf s i).st == 3 && !fencedB s 9 i then updChip i (fun k => { k with st := 1, late := [] }) s else s) s
    let s2 := foldN 2 (fun c s => setReady (rQ0 + c) (!fencedB s 8 c && chanUp s c) s) s1
    let s3 := foldN 2 rebuildCopy (if s2.qr.loaded then s2 else loadStore s2)
    let s4 := s3.qr.ops.foldl (fun s o =>
      let r := replan o s
      if r.1.steps.isEmpty then commitOp r.1 (setOp r.1 r.2) else setOp r.1 r.2) s3
    startNands s4

/-- Open tables come back from the store, unless the host has loaded a version meanwhile (04 R123). -/
def restoreOpens (s : State) : State :=
  let new := s.qr.opens.filter fun r => (tabRec s r.id).isNone && s.tabs.waiting.all fun w => w.tab.id != r.id
  { s with tabs := { s.tabs with
    restored := true, waiting := s.tabs.waiting ++ new.map fun r => { tab := r, since := now s } } }

/-- SE recovers the store when it becomes ACTIVE (18 R442); absorptions that CARD_VERIFIED stands for are completed (14
Table PP-9). -/
def seRecover (s : State) : State :=
  let s0 := foldN 4 mountChip s
  let fresh := (List.range 4).any fun i => (chipOf s0 i).st != 0 && !bound s0 i
  let s1 := foldN 4 formatChip s0
  let s2 := foldN 2 (fun c s =>
    if chanUp s c then
      let s1 := bootLift 8 c s
      if fencedB s1 8 c then s1 else setReady (rQ0 + c) true s1
    else if ([2 * c, 2 * c + 1].any fun i => (chipOf s i).fit) || fencedB s 8 c then s
    else fenceNow 8 c false 0x0A 1 s) (if fresh then zonesHeld s1 else s1)
  let us := journalUnits s2
  let s3 := loadErases (newestCkpt s2) us (loadStore s2)
  let s4 := (unfinished us).foldl (fun s r => replayOp ((idsOf us 2).contains r.id) r s) s3
  let s5 := setReady rSE true s4
  askBills (restoreOpens (s5.qr.verified.foldl (fun s a => creditPurse a [] s) s5))

end Sys2Proof.Machine
end

