-- ==== Sys2Proof/Machine/Update.lean ====
section
/-!
DEFINITION. Firmware update: staging, activation, floors (20).
-/

namespace Sys2Proof.Machine

/-- UPDATE_EVENT (20 R485). -/
def updEvent (ev code value : Nat) (s : State) : State :=
  notify 0x1080 ([byteOf s.upd.image, byteOf ev] ++ le 2 code ++ le 8 (now s) ++ le 4 value) s

/-- The staging area, bytes (20 R470). -/
def stagingBytes : Nat := 1310720

/-- The update closes (20 Table FU-1): its counters and LAST_CODE stay. -/
def updClose (code : Nat) (s : State) : State :=
  { s with upd := { s.upd with
    st := 0, image := 0, img := {}, lastCode := code, quiesce := false, ch := none, orTok := none, orTick := none } }

/-- The four other images as they run. -/
def otherImgs (s : State) (code : Nat) : List Image :=
  ((List.range 5).filter fun i => i + 1 != code).map fun i => nth s.boot.imgs i {}

/-- UPDATE_STAGE (20 R469, R471, Table FU-6). -/
def updateStageBody (pl : List Byte) (s : State) : Served :=
  let c := fld pl 0 1
  let m := pl.drop 4
  if !rdy s rAP then no 0x10F0 s
  else if !(decide (1 ≤ c ∧ c ≤ 5)) then no 0x10F1 s
  else if s.upd.st != 0 && !(s.upd.st == 4 && s.upd.image == c) then no 0x1010 s
  else
    let r := manCheck s c m (otherImgs s c)
    let s1 := { s with upd := { s.upd with lastCode := r } }
    if r != 0x0200 then ok 0x1013 ([byteOf c, byteOf s.upd.st] ++ le 2 r ++ le 4 stagingBytes) s1
    else
      ok 0x1000 ([byteOf c, 1] ++ le 2 r ++ le 4 stagingBytes)
        { s1 with upd := { s1.upd with st := 1, image := c, img := { st := .loading, man := m, seq := 1 } } }

def execUpdateStage (ch : Nat) (s : State) : Out := .next (serve 0x1001 (len 324) updateStageBody ch s)

/-- One chunk of an update (20 R472): the Plinth code, and the staged image after it. -/
def updChunk (s : State) (kind seq : Nat) (d : List Byte) : Nat × Image :=
  let g := s.upd.img
  let c := s.upd.image
  let run := (getImg s c).out
  let sized := fun (r : Nat × Image) => if r.1 == 0x0200 && manLen g.man < r.2.out.length then (0x0207, g) else r
  if seq != g.seq then (0x020C, g)
  else match kind with
    | 1 => sized (dataChunk c 1 d g)
    | 2 =>
      if c == 2 || c == 3 || !g.hdr.isEmpty || !g.out.isEmpty then (0x020C, g)
      else deltaHeader c d { g with out := run }
    | 3 => sized (dataChunk c 3 d g)
    | _ =>
      if deltaOpen g || g.ins != 0 || !g.part.isEmpty then (0x020E, g)
      else if g.out.length != manLen g.man then (0x0207, g) else (0x0200, g)

/-- UPDATE_DATA (20 R472, Table FU-7); its length follows LENGTH (04 Table HL-16 check 7). -/
def updateDataBody (pl : List Byte) (s : State) : Served :=
  let c := fld pl 0 1
  let k := fld pl 1 1
  let n := fld pl 2 2
  if pl.length != 8 + n then no 0x0104 s
  else if !(decide (1 ≤ c ∧ c ≤ 5 ∧ 1 ≤ k ∧ k ≤ 4) && (if k == 4 then n == 0 else decide (1 ≤ n ∧ n ≤ 2000))) then no 0x10F1 s
  else if s.upd.st != 1 || s.upd.image != c then no 0x1011 s
  else
    let r := updChunk s k (fld pl 4 4) (pl.drop 8)
    let rsp := fun (g : Image) => [byteOf c, byteOf k] ++ le 2 r.1 ++ le 4 g.out.length
    if r.1 != 0x0200 then ok 0x1014 (rsp s.upd.img) (updClose r.1 (updEvent 6 r.1 0 s))
    else
      let s1 := { s with upd := { s.upd with
        img := { r.2 with seq := s.upd.img.seq + 1 }, lastCode := r.1, st := if k == 4 then 2 else 1 } }
      ok 0x1000 (rsp r.2) (if k == 4 then updEvent 1 0 0 s1 else s1)

def execUpdateData (ch : Nat) (s : State) : Out :=
  .next (serve 0x1002 (fun k => decide (8 ≤ k ∧ k ≤ 2008)) updateDataBody ch s)

/-- The checks of step 4 of R473 on the staged image: 0x0200 or the status of the first that fails. -/
def updCheck (s : State) : Nat :=
  let g := s.upd.img
  if g.out.length != manLen g.man || sha256 g.out != manDigest g.man then 0x020F
  else if manEpoch g.man < nth s.otp.floors (s.upd.image - 1) 0 then 0x0206
  else if !((otherImgs s s.upd.image).all fun i => epochsFit g.man i.man) then 0x0208
  else 0x0200

/-- The READY_MAP bits that an activation clears (20 Table FU-2). -/
def clearPause (code : Nat) (s : State) : State :=
  match code with
  | 1 => setReady rAP false s
  | 2 => eachPort (fun p s => setReady p false s) (setReady rSafety false (setReady rKS false s))
  | 4 => setReady rLE false s
  | 5 => setReady rSE false s
  | _ => s

/-- The READY_MAP bit of an image. -/
def imgRdy (code : Nat) : Nat := nth [0, rAP, rKS, rOR, rLE, rSE] code 0

/-- The staged image takes the place of the running one (20 R473 step 5, R474). -/
def updSwitch (s : State) : State :=
  let g := s.upd.img
  let s1 := updImg s.upd.image (fun _ => { g with st := .active, loadTick := now s, src := [], hdr := [] }) s
  { s1 with upd := { s1.upd with
    st := 4, outcome := 0, swTick := now s, lastCode := 0x0200, activations := sat32 s1.upd.activations, img := { man := g.man, out := g.out } } }

/-- The target has quiesced (20 Table FU-2). -/
def quiesced (s : State) : Bool :=
  match s.upd.image with
  | 1 => (List.range 8).all fun c => some c == s.upd.ch || (chan s c).st != .inService
  | 5 => s.qr.ops.isEmpty
  | _ => true

/-- Steps 3 to 5 of R473: the target is held, the staged image is checked, and it or the running image starts. -/
def updGo (s : State) : State :=
  if s.upd.st == 3 && s.upd.quiesce && quiesced s then
    let c := s.upd.image
    let r := updCheck s
    let s1 := clearPause c { s with
      boot := { s.boot with held := c }
      clk := if c == 2 then { s.clk with wdArmed := false, wdMissed := 0 } else s.clk
      safety := if c == 2 then { s.safety with sameN := 0, sokTest := 0 } else s.safety
      upd := { s.upd with quiesce := false } }
    let s2 := if c == 4 then (let q := nfCut s1
                              { q with pl := plCut q }) else s1
    if r == 0x0200 then updSwitch s2
    else updEvent 4 r 0 { s2 with upd := { s2.upd with
      outcome := 1, swTick := now s, lastCode := r, fallbacks := sat32 s2.upd.fallbacks } }
  else s

/-- Keystone may be stopped (20 Table FU-2). -/
def ksIdle (s : State) : Bool :=
  s.ports.all fun q => !anyOn q && !decide (1 ≤ q.ct.stage ∧ q.ct.stage ≤ 3) && !(q.ss.stage == 1 || q.ss.stage == 2)

/-- The OR_ACTIVATED entry is queued, or a fallback ends the activation at once (20 R477). -/
def updGoOr (ch : Nat) (s : State) : Served :=
  let r := updCheck s
  let rsp := fun (o c : Nat) => [3, byteOf o] ++ le 2 c ++ zeros 12
  if r == 0x0200 then
    (none, cairnO 4 0xFF (orImageData s s.upd.img.man) { s with upd := { s.upd with ch := some ch, orTok := some (cairnToken s) } })
  else
    let s1 := updEvent 4 r 0 { s with upd := { s.upd with fallbacks := sat32 s.upd.fallbacks } }
    ok 0x1015 (rsp 1 r) (updClose r s1)

/-- UPDATE_ACTIVATE (20 R473, R476, R477, Table FU-8). -/
def updateActivateBody (ch : Nat) (pl : List Byte) (s : State) : Served :=
  let c := fld pl 0 1
  if !(decide (1 ≤ c ∧ c ≤ 5)) then no 0x10F1 s
  else if s.upd.st != 2 || s.upd.image != c then no 0x1011 s
  else if c == 2 && !ksIdle s then no 0x1012 s
  else if s.eg.pfailTick.isSome then no 0x1016 s
  else if c == 3 && !sealPort s then no 0x10F2 s
  else
    let s1 := updEvent 2 0 0 { s with upd := { s.upd with st := 3 } }
    if c == 3 then updGoOr ch s1
    else (none, updGo { s1 with upd := { s1.upd with quiesce := true, ch := some ch } })

def execUpdateActivate (ch : Nat) (s : State) : Out := .next (serve 0x1003 (len 4) (updateActivateBody ch) ch s)

/-- The response of an activation (20 Table FU-8). -/
def updAnswer (status outcome code pause : Nat) (s : State) : State :=
  match s.upd.ch with
  | some ch => answerLate ch status ([byteOf s.upd.image, byteOf outcome] ++ le 2 code ++ le 4 pause ++ le 8 s.upd.swTick)
      { s with upd := { s.upd with ch := none } }
  | none => s

/-- ACTIVATION_PAUSE_END (20 R473 step 6, R475, 03 R94, R96): the target runs again and sets its READY_MAP bit, Keystone
where the condition of KS_RDY holds; SAFETY_RDY follows the start-up tests. pause in us: one of Keystone counts against
the availability of every port (25 R546). -/
def pauseEnd (pause : Nat) (s : State) : State :=
  let c := s.boot.held
  let s0 := { s with boot := { s.boot with held := 0 } }
  if c == 0 || (c == 2 && !ksReady s0) then s
  else
    let s1 := setReady (imgRdy c) true s0
    let s2 := if c == 2 then availPause pause { s1 with clk := { s1.clk with wdArmed := true, wdMissed := 0, lintelMissed := 0 } }
      else s1
    if s2.upd.outcome == 0 then updAnswer 0x1000 0 0x0200 pause (updEvent 3 0 pause s2)
    else
      let code := s2.upd.lastCode
      updClose code (updAnswer 0x1015 1 code pause s2)

def execActivationPauseEnd (pause : Nat) (s : State) : Out := .next (pauseEnd pause s)

/-- An OR activation is abandoned (20 R477): the seal closed (0x10F2) or PFAIL_N was confirmed (0x1016) before tick n
ended. -/
def updAbandon (status : Nat) (s : State) : State :=
  if s.upd.st == 3 && s.upd.image == 3 && s.upd.orTick.all (now s ≤ ·) then
    let s1 := updEvent 7 0 0 { s with upd := { s.upd with st := 2, orTok := none, orTick := none, swTick := 0 } }
    updAnswer status 2 0 0 s1
  else s

/-- The activations in one tick (20 R473, R477): a target that has quiesced is held; Orchard's
entry comes first, and one that is counted in LOST ends the activation as a closed seal does (15 R369); tick n begins after it, and tick n + 1 runs the new microcode. -/
def updTick (s : State) : State :=
  if s.upd.st != 3 then s
  else match s.upd.orTok, s.upd.orTick with
    | some t, _ =>
      if cairnLost t s then updAbandon 0x10F2 s
      else if cairnDone t s then
        { sealOr s.upd.img.man s with upd := { s.upd with orTok := none, orTick := some (now s + 1) } }
      else s
    | none, some n =>
      if n < now s then updAnswer 0x1000 0 0x0200 0 (updEvent 3 0 0 (updSwitch { s with upd := { s.upd with orTick := none } }))
      else s
    | none, none => updGo s

/-- UPDATE_COMMIT (20 R478, Table FU-9); blown is how many of the fuses burned read blown. -/
def updateCommitBody (blown : Nat) (pl : List Byte) (s : State) : Served :=
  let c := fld pl 0 1
  if !(decide (1 ≤ c ∧ c ≤ 5)) then no 0x10F1 s
  else if s.upd.st != 0 && !(s.upd.st == 4 && s.upd.image == c) then no 0x1010 s
  else if s.eg.pfailTick.isSome then no 0x1016 s
  else if !rdy s (imgRdy c) then no 0x10F0 s
  else
    let before := nth s.otp.floors (c - 1) 0
    let goal := max before (min 64 (manEpoch (getImg s c).man))
    let after := min goal (before + blown)
    let s1 := { s with otp := { s.otp with floors := s.otp.floors.set (c - 1) after } }
    let rsp := [byteOf c, byteOf before, byteOf after, 0]
    if after < goal then ok 0x1018 rsp s1
    else
      let s2 := if s1.upd.st == 0 then { s1 with upd := { s1.upd with image := c } } else s1
      ok 0x1000 rsp (updClose s2.upd.lastCode (updEvent 5 0 after s2))

def execUpdateCommit (ch : Nat) (blown : Nat) (s : State) : Out :=
  .next (serve 0x1004 (len 4) (updateCommitBody blown) ch s)

/-- UPDATE_ABORT (20 Table FU-10). -/
def updateAbortBody (pl : List Byte) (s : State) : Served :=
  if s.upd.st == 0 || s.upd.image != fld pl 0 1 then no 0x1011 s
  else if 3 ≤ s.upd.st then no 0x1017 s
  else ok 0x1000 [byteOf s.upd.image, 0, 0, 0] (updClose s.upd.lastCode (updEvent 6 0x0200 0 s))

def execUpdateAbort (ch : Nat) (s : State) : Out := .next (serve 0x1005 (len 4) updateAbortBody ch s)

/-- UPDATE_STATUS (20 Table FU-11). -/
def updateStatusBody (_ : List Byte) (s : State) : Served :=
  if !rdy s rAP then no 0x10F0 s
  else
    let m := padTo 320 s.upd.img.man
    ok 0x1000 ([byteOf s.upd.image, byteOf s.upd.st] ++ le 2 s.upd.lastCode ++ le 4 s.upd.img.out.length ++ le 4 (manLen m) ++
      manVer m ++ le 2 (manEpoch m) ++ [0, 0] ++
      ((List.range 5).flatMap fun i =>
        let g := padTo 320 (nth s.boot.imgs i {}).man
        manVer g ++ le 2 (manEpoch g) ++ [byteOf (nth s.otp.floors i 0), 0]) ++
      le 4 s.upd.activations ++ le 4 s.upd.fallbacks) s

def execUpdateStatus (ch : Nat) (s : State) : Out := .next (serve 0x1006 (len 0) updateStatusBody ch s)

end Sys2Proof.Machine
end

