-- ==== Sys2Proof/Machine/PowerStates.lean ====
section
/-!
DEFINITION. Power states: STANDBY, IDLE, wakes, operating points (24).
-/

namespace Sys2Proof.Machine

/-- POWER_EVENT (24 R538). -/
def powerEvent (ev det value : Nat) (s : State) : State :=
  notify 0x1480 ([byteOf ev, byteOf det, 0, 0] ++ le 8 (now s) ++ le 4 value) s

/-- A refused or aborted entry is counted and recorded (24 R525, R537). -/
def psRefuse (code : Nat) (s : State) : State :=
  evrec 0x1401 0 0xFF [byteOf code, 1] { s with pw := { s.pw with refusals := s.pw.refusals.modify (code - 1) sat32 } }

/-- A channel other than one is PENDING or IN_SERVICE (24 Table PS-2). -/
def otherBusy (s : State) (ch : Nat) : Bool :=
  (List.range 8).any fun c => c != ch && ((chan s c).st == .pending || (chan s c).st == .inService)

/-- PORT_ACTIVE (24 Table PS-2 code 1). -/
def portActive (s : State) : Bool :=
  (List.range 24).any fun p =>
    let q := getPort s p
    fitted s p && (q.hs.permit || anyOn q || decide (1 ≤ q.ct.stage ∧ q.ct.stage ≤ 3) || stopping q ||
      !(q.hs.lock == 0 || q.hs.lock == 4))

/-- QUARRY_BUSY (code 2), KEYSTONE_VETO (code 4), CLOCK_SWITCH (code 7). -/
def quarryBusy (s : State) : Bool :=
  (s.qr.ops.any fun o => o.code != 0 || o.cls ≤ 3) || (s.qr.asks.any fun o => o.cls ≤ 3) || s.qr.rebuild.any id
def ksVeto (s : State) : Bool :=
  sinDemand s || ssrDemand s || s.safety.sin.dis || s.safety.ssr.dis || !s.safety.sok
def clockSwitch (s : State) : Bool :=
  s.clk.oppBusy || !s.clk.plla || (!s.clk.plln && s.clk.pllnFails < 3) ||
    ((s.disp.mode == 1 || s.disp.mode == 2) && !s.clk.pllp && s.clk.pllpFails < 3)

/-- A wake source enabled by a mask has fired: bit and value (24 Table PS-3). -/
def wakeSource (e : PsEntry) (s : State) : Option (Nat × Nat) :=
  let on := fun b => 6 ≤ b || e.mask.testBit b
  let cand :=
    (if e.alarm != 0 && e.alarm ≤ s.rtc.sec then [(0, 0)] else []) ++
    (if (List.range 6).any (fun c => (chan s c).st == .pending)
      then [(6, 0)] else []) ++
    (if 512 ≤ cairnAwait s || 3584 ≤ s.ev.head - s.ev.spilled then [(7, 0)] else []) ++ s.pw.fired
  (cand.filter fun f => on f.1).foldl (fun r f => match r with
    | some b => if f.1 < b.1 then some f else some b
    | none => some f) none

/-- The lowest refuser of Table PS-2 that applies, 0 none; at acceptance with no entry in progress. -/
def psRefuser (ch : Nat) (s : State) : Nat :=
  let busy := match s.pw.entry with
    | some e => (wakeSource e s).isSome
    | none => false
  if portActive s then 1
  else if quarryBusy s then 2
  else if otherBusy s ch then 3
  else if ksVeto s then 4
  else if s.pw.entry.isNone && s.disp.mode == 3 then 5
  else if 1 ≤ s.upd.st && s.upd.st ≤ 3 then 6
  else if clockSwitch s then 7
  else if busy then 8
  else if s.eg.pfailTick.isSome then 9 else 0

/-- PS_ENTER (24 R525, Table PS-9). -/
def psEnterBody (ch : Nat) (pl : List Byte) (s : State) : Served :=
  let retain := fld pl 4 2 ||| 0x7800
  if !rdy s rAP then no 0x14F0 s
  else if !(fld pl 0 1 == 1 && fld pl 6 2 < 64) then no 0x14F1 s
  else
    let r := psRefuser ch s
    if r != 0 then ok 0x1410 ([1, byteOf r] ++ le 2 retain ++ zeros 4) (psRefuse r s)
    else ok 0x1400 ([1, 0] ++ le 2 retain ++ zeros 4) { s with pw := { s.pw with
      fired := [], entry := some { ch := ch, since := now s, retain := retain, mask := fld pl 6 2, alarm := fld pl 12 8 } } }

def execPsEnter (ch : Nat) (s : State) : Out := .next (serve 0x1401 (len 20) (psEnterBody ch) ch s)

/-- The entry is aborted: RUN continues (24 R525). -/
def psAbort (code : Nat) (s : State) : State :=
  powerEvent 2 code 0 (psRefuse code { s with pw := { s.pw with entry := none, fired := [] }, pl := { s.pl with leaving := false } })

/-- MBX_PENDING_TIMEOUT (24 R525). -/
def mbxTimeout (s : State) : State :=
  match s.pw.entry with
  | some e => if e.step == 0 && (chan s e.ch).st == .respReady && e.since + 800 ≤ now s then psAbort 3 s else s
  | none => s

def execMbxPendingTimeout (s : State) : Out := .next (mbxTimeout s)

/-- A DEMAND with LEAVING can be sent (24 R526, 17 R419). -/
def canLeave (s : State) : Bool := budgetRole s == 1 && hubId s ≤ 12 && plRuns s && plUp s && s.pl.src != 0 && s.pl.start.isSome

/-- Load channels whose duty is below 100 % are switched off (24 R526). -/
def parkLs (s : State) : State :=
  { s with ls := { s.ls with chans := s.ls.chans.map fun q =>
    if q.duty < 1000 && (q.out || q.cmd) then { q with parked := true, out := false, win := none, fold := none } else q } }

/-- The READY_MAP bits that clear at the entry (24 R528). -/
def standbyBits : List Nat := [rAP, rLE, rSE, rQ0, rQ0 + 1, rLedger, rCairn, rNF, rNF + 1, rLS, rDisp, rDrupe]

/-- Step 6 of R526. -/
def enterStandby (e : PsEntry) (s : State) : State :=
  let s1 := standbyBits.foldl (fun s b => setReady b false s) (parkLs s)
  let s2 := setBusRun false { s1 with
    clk := { s1.clk with apRun := false, plla := false, plln := false, pllp := false, nfRun := s1.clk.nfSrc && s1.clk.nfRun
                         pixRun := false, plRun := false, opp := 3, oppBusy := false }
    pw := { s1.pw with mode := 2, entry := none, last := e, retain := e.retain, mask := e.mask, entryTick := now s
                       entries := sat32 s1.pw.entries, vsel := 3, target := 3 } }
  clkEvent s2

/-- STANDBY_ENTRY (24 R526): the entry goes on as far as it can. -/
def standbyEntry (s : State) : State :=
  match s.pw.entry with
  | none => s
  | some e =>
    let r := psRefuser e.ch s
    if r != 0 then psAbort r s
    else if e.step == 0 then
      if (chan s e.ch).st == .respReady || (chan s e.ch).st == .inService then s
      else
        let s1 := if s.disp.mode == 0 then s else dispDischarge false s
        { s1 with pw := { s1.pw with entry := some { e with step := 1 } } }
    else if e.step == 1 then
      if s.disp.mode != 0 then s
      else
        let s1 := nfCut s
        { s1 with pw := { s1.pw with entry := some { e with step := 2 } }, pl := { s1.pl with leaving := canLeave s } }
    else if (s.pl.leaving && canLeave s) || (running s 0).isSome || (running s 1).isSome then s
    else enterStandby e { s with pl := { s.pl with leaving := false } }

def execStandbyEntry (s : State) : Out := .next (standbyEntry s)

/-- A bank was retained. -/
def kept (e : PsEntry) (b : Nat) : Bool := e.retain.testBit b

/-- A front-end whose firmware state is lost: field detector and framer keep theirs (16 R391, R392). -/
def framerOnly (q : Nf) : Nf :=
  { field := q.field, ended := q.ended, wake := q.wake, emuUid := q.emuUid, emu := q.emu, emuHalt := q.emuHalt, ebn := q.ebn
    efsd := q.efsd, elast := q.elast, tx := q.tx }

/-- What the banks that were not retained mean at the wake (24 R527). -/
def lostBanks (e : PsEntry) (s : State) : State :=
  let gone := fun code (s : State) => updImg code (fun _ => {}) s
  let s1 := if (List.range 6).all (kept e) then s
    else gone 1 { s with upd := {}, tabs := { s.tabs with owner := none, bytes := [] } }
  let s2 := if kept e 9 then s1 else gone 4 { s1 with
    nf := { fe := s1.nf.fe.map framerOnly }, pl := { s1.pl with queue := [], ack := none, opts := [], fcnt := s1.pl.reserved } }
  let s3 := if kept e 10 then s2 else gone 5 { s2 with qr := { s2.qr with asks := [], ops := [], bmap := [], loaded := false } }
  let s3a := if kept e 15 then s3 else { s3 with qr := { s3.qr with uids := [], loaded := false } }
  let s4 := if [6, 7, 8].all (kept e) then s3a else { s3a with disp := { s3.disp with mem := [], safeMem := [], safeLoad := true } }
  if [1, 4, 5].all (fun c => imgActive s4 c) then s4 else { s4 with boot := { s4.boot with phase := .windowOpen, reopened := true } }

/-- The device is back in RUN (24 R530): the READY bits whose conditions hold set again, the others as they come to hold
(03 R94). -/
def wakeUp (bit value : Nat) (s : State) : State :=
  let e := s.pw.last
  let slept := now s - s.pw.entryTick
  let s1 := lostBanks e (setBusRun true { s with
    clk := { s.clk with plla := true, plln := true, nfRun := true, opp := 3 }
    pw := { s.pw with mode := 0, lastWake := bit, wakeTick := now s, standby := s.pw.standby + slept, fired := [] }
    pl := { s.pl with kept := none, window := none }
    ls := { s.ls with chans := s.ls.chans.map fun q => { q with parked := false } }
    nf := { s.nf with fe := s.nf.fe.map fun q => { q with cfg := [], nextPing := now s } }
    vault := { s.vault with last := none, turn := min 1439 (s.vault.turn + slept / 480000) }
    tar := { s.tar with profRun := s.tar.profRun ||| 1 }
    disp := { s.disp with hostOff := false } })
  let up := fun code b (s : State) => if imgActive s code then setReady b true s else s
  let s2 := up 5 rSE (up 4 rLE (up 1 rAP s1))
  let s3 := foldN 2 (fun c s => if imgActive s 5 && !fencedB s 8 c && chanUp s c then setReady (rQ0 + c) true s else s)
    { s2 with clk := { s2.clk with apRun := imgActive s2 1, plRun := imgActive s2 4 && s2.clk.xref } }
  powerEvent 1 bit value (if lsReady s3 then setReady rLS true s3 else s3)

/-- LE decodes the frame that the wake detector kept (17 R416, R424): whether it is a WAKE for this hub, and the state after
its checks, with the phase that an accepted frame of the concentrator tells (R413). -/
def keptFrame (s : State) : Bool × State :=
  match s.pl.kept with
  | some (rx, cross) =>
    let r := wakeDecode s rx
    let m := r.2.2
    let k := plCheck s r.1 r.2.1 m
    if k == 0 then
      let s1 := putHigh (fld m 1 1) (fld m 3 4) s
      (fld m 0 1 % 16 == 6, if fld m 1 1 == 0 then { s1 with pl := { s1.pl with conc := some (startOf cross r.2.1, 0) } } else s1)
    else (false, if k ≤ 6 then plFail k s else s)
  | none => (false, s)

/-- STANDBY_WAKE (24 R530): a false wake of the Chashao link re-enters STANDBY at once. -/
def standbyWake (s : State) : State :=
  if s.pw.mode != 2 then s
  else match wakeSource s.pw.last s with
    | none => s
    | some (3, v) =>
      match keptFrame s with
      | (true, s1) => wakeUp 3 v s1
      | (false, s1) => powerEvent 4 0 0 { s1 with
        pl := { s1.pl with kept := none }
        pw := { s1.pw with fired := s.pw.fired.filter (fun f => f.1 != 3), falseWakes := sat32 s.pw.falseWakes } }
    | some (b, v) => wakeUp b v s

def execStandbyWake (s : State) : Out := .next (standbyWake s)

/-- IDLE_ENTRY (24 R523, R524): AP has no work. -/
def idleEntry (s : State) : State :=
  if s.pw.mode == 0 && apServing s && s.pw.entry.isNone && !otherBusy s 0xFF then
    { s with pw := { s.pw with mode := 1 }, clk := { s.clk with apRun := false } }
  else s

def execIdleEntry (s : State) : Out := .next (idleEntry s)

/-- IDLE_EXIT (24 R523). -/
def idleExit (s : State) : State :=
  if s.pw.mode == 1 then { s with pw := { s.pw with mode := 0 }, clk := { s.clk with apRun := s.clk.plla } } else s

def execIdleExit (s : State) : Out := .next (idleExit s)

/-- The operating point that firmware 2.4 or a supply loss asks for (24 R536). -/
def oppGoal (s : State) : Nat :=
  if s.eg.pfailTick.isSome then 3
  else max (tf s 0x1401 1 1) (if otherBusy s 0xFF then 0 else 1)

/-- OPP_CHANGE (24 R535, R536): raising drives VSEL first and the divider after it, lowering the divider first. -/
def oppChange (s : State) : State :=
  let c := s.clk
  let t := s.pw.target
  if s.pw.mode == 2 || s.boot.phase == .reset || !c.busRun then s
  else if c.oppBusy then
    powerEvent 3 t 0 { s with clk := { c with oppBusy := false, opp := t }, pw := { s.pw with vsel := t, oppAt := some (now s) } }
  else
    let g := oppGoal s
    let late := match s.pw.oppAt with
      | some a => decide (a + 80 ≤ now s)
      | none => true
    if g == c.opp || !(late || g == 3) then s
    else if g < c.opp then { s with clk := { c with oppBusy := true }, pw := { s.pw with vsel := g, target := g } }
    else { s with clk := { c with oppBusy := true, opp := g }, pw := { s.pw with target := g } }

def execOppChange (s : State) : Out := .next (oppChange s)

/-- PS_STATUS (24 Table PS-10). -/
def psStatusBody (_ : List Byte) (s : State) : Served :=
  if !rdy s rAP then no 0x14F0 s
  else ok 0x1400 ([byteOf s.clk.opp, byteOf (tf s 0x1401 1 1), 0, 0] ++ le 2 s.pw.retain ++ le 2 s.pw.mask ++
    [byteOf s.pw.lastWake, 0, 0, 0] ++ le 8 s.pw.entryTick ++ le 8 s.pw.wakeTick ++ le 8 s.pw.standby ++
    s.pw.refusals.flatMap (le 4) ++ le 4 s.pw.entries ++ le 4 s.pw.falseWakes ++ le 4 s.pw.offHolds) s

def execPsStatus (ch : Nat) (s : State) : Out := .next (serve 0x1402 (len 0) psStatusBody ch s)

/-- Table 0x1401 (24 R537). -/
def check1401 (b : List Byte) : Option Nat :=
  if fld b 0 1 ≤ 1 && fld b 1 1 ≤ 3 && within b 2 2 20 60000 && allZero b 4 4 then none else some 0x1411

end Sys2Proof.Machine
end

