-- ==== Sys2Proof/Machine/SafetyFn.lean ====
section
/-!
DEFINITION. Safety functions: safety inputs, SOK, safe stop, sealed switches and Keystone's tick (12).
-/

namespace Sys2Proof.Machine

/-- Fields of the safe-stop table (12 Table SF-4). -/
def sinDeb (s : State) : Nat := tf s 0x4801 66 1
def ssrDeb (s : State) : Nat := tf s 0x4801 67 1
def discTicks (s : State) : Nat := 8 * tf s 0x4801 68 2
def restartTicks (s : State) : Nat := 8000 * tf s 0x4801 70 1

/-- DEADLINE_MS (12 Table SF-8). -/
def deadlineMs (s : State) : Nat := 3000 + 1000 * (s.safety.word % 4)

/-- One sample of a channel: debounced demand and health (12 R293). -/
def chanTick (deb : Nat) (demand : Bool) (q : SafeCh) : SafeCh :=
  let d := if demand then q.dem + 1 else 0
  let k := if demand then 0 else q.ok + 1
  { q with dem := d, ok := k, on := if deb ≤ d then true else if deb ≤ k then false else q.on }

/-- One sample of an input (12 R293, R294). -/
def inputTick (n deb : Nat) (hi : Bool × Bool) (q : SafeIn) : SafeIn :=
  let a := chanTick deb (!hi.1) q.a
  let b := chanTick deb hi.2 q.b
  let both := a.on && b.on
  let none_ := !a.on && !b.on
  let disBoth := q.dis && (q.disBoth || both)
  let dis := q.dis && !(disBoth && none_)
  let healthy := none_ && !dis
  let was := !q.a.on && !q.b.on && !q.dis
  { q with
    a := a, b := b, dis := dis, disBoth := disBoth && dis
    disN := if a.on != b.on then q.disN + 1 else 0
    since := if healthy then (if was then q.since else some n) else none
    okDue := (q.okDue || (healthy && !was)) && healthy
    taken := q.taken && !healthy }

/-- Input bits of a device event (12 R315). -/
def deviceEvent (ev det : Nat) (s : State) : State := safetyEvent 0xFF ev det 0 s

/-- Every fitted port is safe (12 R297). -/
def allSafe (s : State) : Bool := (List.range 24).all fun p => !fitted s p || portSafe s p

/-- The start-up test of SOK: both levels driven and read back (12 R299); a SOK_FAULT ends it (12 R298). -/
def sokTestTick (sok : Bool × Bool) (q : Safety) : Safety :=
  if q.sokFault then { q with sokTest := 0, sok := false }
  else match q.sokTest with
  | 0 => if sok == (false, true) then { q with sokTest := 1, sok := true } else q
  | 1 => if sok == (true, false) then { q with sokTest := 2, sok := false } else { q with sokTest := 0, sok := false }
  | _ => q

/-- The drive of SOK in this tick (12 R297, R298); a change is reported. -/
def sokTick (sok : Bool × Bool) (s : State) : State :=
  let q := s.safety
  let q1 := { q with
    sokA := if sok.1 == q.sok then 0 else q.sokA + 1
    sokB := if sok.2 == !q.sok then 0 else q.sokB + 1 }
  let s1 := { s with safety := q1 }
  if !rdy s rSafety then { s with safety := sokTestTick sok q1 }
  else
    let on := allSafe s1 && !q1.sokFault
    if on == q1.sok then s1 else deviceEvent 9 0 { s1 with safety := { q1 with sok := on } }

/-- A stop by a cause that also ends the session: with no switch closed the permit is withdrawn at once (14 R352, R357, Table
PP-4). -/
def stopOrEnd (p cause : Nat) (s : State) : State :=
  let s1 := startStop p cause none s
  let running := (getPort s1 p).ss.stage == 1 || (getPort s1 p).ss.stage == 2
  if (cause == 2 || cause == 3) && !running && !anyOn (getPort s1 p) then withdrawPermit p cause s1 else s1

/-- The causes that wait for the next tick start, in the rank of R24: Orchard's, Lintel's, the host's (01 R24, 10 R258,
12 Table SF-14, 14 R359). -/
def pendTick (p : Nat) (s : State) : State :=
  let q := (getPort s p).ss.pend
  let l := q.filter (· == 3) ++ q.filter (· == 4) ++ q.filter fun c => c != 3 && c != 4
  if l.isEmpty then s
  else l.foldl (fun s c => stopOrEnd p c s) (updPort p (fun q => { q with ss := { q.ss with pend := [] } }) s)

/-- The residual sample of a port in this tick with its mark of substitution; none for a marker without a substitute: no
sample one cycle earlier, or a failed stream without a good cycle or with both switches open (05 R149, R150, 11 R269). -/
def irdSample (s : State) (p : Nat) : Option (Int × Bool) :=
  let k := getStream s (4 * p + 3)
  let back := (getGrp s (groupOf s p)).cycTicks
  k.hist.head?.filter fun e => !(e.2 && (dead s (4 * p + 3) || (!k.failed && decide (k.hist.length ≤ back))))

/-- Keystone captures the word that MC03 carries in this tick (02 R59, R61). -/
def captureKs (s : State) : State :=
  { s with clk := { s.clk with ksWord := {
      res := (List.range 24).map (irdSample s), req := s.ports.map fun q => q.hs.req
      cur := (List.range 72).map fun k => fastI2 s (k / 3) (k % 3) } } }

/-- The entry of an uncontrolled stop is in MRAM, or was counted in LOST: the record takes the map without its ports (12
R312, 15 R369). -/
def ksOwedTick (s : State) : State :=
  if s.safety.waitEntry.any fun t => cairnDone t s then
    writeKsRecord (closedMap s) { s with safety := { s.safety with waitEntry := none } }
  else s

/-- Keystone's work of one tick, on the word of MC03 that it has captured (02 Tables TK-3, TK-4, 11, 12). -/
def keystoneTick (i : TickIn) (s : State) : State :=
  let s1 := { s with safety := { s.safety with
    sin := inputTick (now s) (sinDeb s) i.sin s.safety.sin
    ssr := inputTick (now s) (ssrDeb s) i.ssr s.safety.ssr
    injected := s.safety.injected || i.injectOk
    sameN := if i.coresAgree then min 16 (s.safety.sameN + 1) else 0 } }
  let s2 := eachPort (fun p s => pendTick p s) s1
  let s3 := eachPort (fun p s => updPort p (fun q =>
    let q1 := residualTick s p (nth s.clk.ksWord.res p none) q
    let q2 := { q1 with ct := cfbTick s p (nth i.cfb p []) q1.ct }
    stopTick s p (sequenceTick s p q2)) s) s2
  sokTick i.sok (ksOwedTick s3)

/-- ENERGY_REMOVAL (12 R301, R302). -/
def energyRemoval (p : Nat) (s : State) : State :=
  let q := getPort s p
  if q.ss.stage == 1 && q.ss.start < now s then
    if fld q.ss.tbl 65 1 ≤ q.ss.low then removeEnergy p q.ss.cause 1 s
    else if fld q.ss.tbl 64 1 ≤ q.ss.overN then removeEnergy p q.ss.cause 2 s
    else if 8 * deadlineMs s ≤ q.ss.ticks then removeEnergy p q.ss.cause 3 s
    else s
  else s

def execEnergyRemoval (p : Nat) (s : State) : Out := .next (gated (ksRun s) (energyRemoval p) s)

/-- SAFE_STOP_END (12 R302): the port is safe, or a weld, mirror or CFB fault holds after DROP_MS (log 37). -/
def safeStopEnd (p : Nat) (s : State) : State :=
  let q := getPort s p
  if q.ss.stage == 2 then
    if portSafe s p then endStop p true s
    else if (q.ct.welded || q.ct.mirror || q.ct.cfbFault) && !anyOn q &&
        decide (q.ct.cmdTick + 8 * rcTab s p 58 2 ≤ now s) then endStop p false s
    else s
  else s

def execSafeStopEnd (p : Nat) (s : State) : Out := .next (gated (ksRun s) (safeStopEnd p) s)

/-- Every port loses energy, by a cause, and its permit. -/
def stopAll (cause : Nat) (s : State) : State :=
  eachPort (fun p s =>
    let s1 := if portOn s p then startStop p cause none s else endSequence p s
    withdrawPermit p cause s1) s

/-- SIN_DEMAND (12 R295). -/
def sinDemandCmd (s : State) : State :=
  if rdy s rKS && sinDemand s && !s.safety.sin.taken then
    let s1 := { s with safety := { s.safety with sin := { s.safety.sin with taken := true, veto := true } } }
    deviceEvent 4 0 (stopAll 0x13 s1)
  else s

def execSinDemand (s : State) : Out := .next (gated (ksRun s) sinDemandCmd s)

/-- SSR_DEMAND (12 R296). Where SIN is in demand as well its cause stands, in whichever order the two come (12 Table
SF-5). -/
def ssrDemandCmd (s : State) : State :=
  if rdy s rKS && ssrDemand s && !s.safety.ssr.taken then
    let s1 := { s with safety := { s.safety with ssr := { s.safety.ssr with taken := true, veto := true } } }
    deviceEvent 6 0 (stopAll (if sinDemand s then 0x13 else 0x0C) s1)
  else s

def execSsrDemand (s : State) : Out := .next (gated (ksRun s) ssrDemandCmd s)

/-- An input changes. -/
def updIn (ssr : Bool) (f : SafeIn → SafeIn) (s : State) : State :=
  if ssr then { s with safety := { s.safety with ssr := f s.safety.ssr } }
  else { s with safety := { s.safety with sin := f s.safety.sin } }
def getIn (s : State) (ssr : Bool) : SafeIn := if ssr then s.safety.ssr else s.safety.sin
/-- An input is fitted (12 Table SF-8). -/
def inFitted (s : State) (ssr : Bool) : Bool := !sw s (if ssr then 5 else 4)

/-- SAFETY_INPUT_HEALTHY (12 R293, R315). -/
def safetyHealthy (ssr : Bool) (s : State) : State :=
  if inFitted s ssr && (getIn s ssr).okDue then
    deviceEvent (if ssr then 7 else 5) 0 (updIn ssr (fun q => { q with okDue := false }) s)
  else s

def execSafetyInputHealthy (ssr : Bool) (s : State) : Out := .next (gated (ksRun s) (safetyHealthy ssr) s)

/-- DISCREPANCY (12 R294): the channel in demand is named. -/
def discrepancy (ssr : Bool) (s : State) : State :=
  let q := getIn s ssr
  if inFitted s ssr && q.a.on != q.b.on && !q.dis && decide (discTicks s ≤ q.disN) then
    deviceEvent 8 (256 * b2n ssr + b2n q.b.on) (updIn ssr (fun q => { q with dis := true, disBoth := false }) s)
  else s

def execDiscrepancy (ssr : Bool) (s : State) : Out := .next (gated (ksRun s) (discrepancy ssr) s)

/-- RESTART_TIMER (12 R295, R296). -/
def restartTimer (ssr : Bool) (s : State) : State :=
  let q := getIn s ssr
  match q.since with
  | some t =>
    if q.veto && !q.dis && decide (t + restartTicks s ≤ now s) && (ssr || !sw s 3) then
      updIn ssr (fun q => { q with veto := false }) s
    else s
  | none => s

def execRestartTimer (ssr : Bool) (s : State) : Out := .next (gated (ksRun s) (restartTimer ssr) s)

/-- SOK_FAULT (12 R298). -/
def sokFault (s : State) : State :=
  if !s.safety.sokFault && (decide (2 ≤ s.safety.sokA) || decide (2 ≤ s.safety.sokB)) then
    deviceEvent 10 0 { s with safety := { s.safety with sokFault := true, sok := false } }
  else s

def execSokFault (s : State) : Out := .next (gated (ksRun s) sokFault s)

/-- A scan at boot (12 R306): 16 equal scans in both directions give the word in force. Scans that differ from each other
withhold KS_RDY as well, without an outcome of Table SF-7. -/
def bootScan (fwd rev : Nat) (q : Safety) : Safety :=
  if q.scan == 1 || q.bootBad then q
  else if fwd != rev then { q with scan := 1, last := fwd }
  else if q.bootN != 0 && fwd != q.last then { q with bootBad := true, last := fwd }
  else if q.bootN + 1 < 16 then { q with bootN := q.bootN + 1, last := fwd }
  else { q with bootN := 16, last := fwd, word := fwd, wordOk := true, scan := if reservedSw fwd then 3 else 0 }

/-- SEAL_SWITCH_SCAN (12 R306 to R308). -/
def sealScan (fwd rev : Nat) (s : State) : State :=
  let q := s.safety
  if !ksRun s || fwd ≥ 65536 || rev ≥ 65536 then s
  else if !q.wordOk then { s with safety := bootScan fwd rev q }
  else if now s < q.scanAt + 8000 then s
  else
    let s1 := { s with safety := { q with scanAt := now s, last := fwd } }
    if fwd != rev then
      let s2 := evrec 0x0801 1 0xFF (le 2 fwd ++ le 2 rev) { s1 with safety := { s1.safety with
        scan := 1, disSec := min 3 (q.disSec + 1) } }
      if q.disSec == 2 then cairnK 0x0051 0xFF (le 2 fwd ++ le 2 rev) s2 else s2
    else if fwd == q.word then
      { s1 with safety := { s1.safety with scan := if reservedSw q.word then 3 else 0, disSec := 0 } }
    else
      let s2 := { s1 with safety := { s1.safety with scan := 2, disSec := 0, logged := some fwd } }
      if q.logged == some fwd then s2
      else deviceEvent 11 0 (cairnK 0x0050 0xFF (le 2 q.word ++ le 2 fwd) s2)

def execSealSwitchScan (fwd rev : Nat) (s : State) : Out := .next (gated (ksRun s) (sealScan fwd rev) s)

/-- SAFE_STOP (12 Table SF-14): the stop starts at the next tick; a port with no switch closed loses its permit. -/
def safeStopBody (pl : List Byte) (s : State) : Served :=
  let m := fld pl 0 4
  let ps := (List.range 24).filter fun p => m.testBit p
  if !rdy s rKS then no 0x08F0 s
  else if m ≥ 2 ^ 24 then no 0x08F1 s
  else if ps.any fun p => !fitted s p then no 0x0810 s
  else
    let go := ps.filter fun p => portOn s p && !stopping (getPort s p)
    let rest := ps.filter fun p => !(portOn s p && !stopping (getPort s p))
    let s1 := go.foldl (fun s p => updPort p (fun q => { q with ss := { q.ss with pend := q.ss.pend ++ [1] } }) s) s
    let s2 := rest.foldl (fun s p => if stopping (getPort s p) then s else withdrawPermit p 0x01 (endSequence p s)) s1
    ok 0x0800 (le 4 (bitsOf ((List.range 24).map go.contains)) ++ le 4 (bitsOf ((List.range 24).map rest.contains))) s2

def execSafeStop (ch : Nat) (s : State) : Out := .next (serve 0x0801 (len 8) safeStopBody ch s)

/-- One input of SAFETY_STATUS. -/
def inputByte (s : State) (ssr : Bool) : Byte :=
  let q := getIn s ssr
  byteOf (bitsOf [q.a.on, q.b.on, inDemand q, q.dis, q.veto, !inFitted s ssr])

/-- One port of SAFETY_STATUS (12 Table SF-15). -/
def stopEntry (s : State) (p : Nat) : List Byte :=
  let q := (getPort s p).ss
  [byteOf q.stage, byteOf q.cause, byteOf q.result, 0] ++ le 2 (min 0xFFFF (q.ticks / 8)) ++ le 2 (toDa q.i0)

/-- Keystone has to report a scan outcome that withholds KS_RDY (12 R308, R309; log 141). -/
def scanWithholds (s : State) : Bool := ksRun s && (s.safety.scan == 1 || s.safety.scan == 3)

/-- SAFETY_STATUS (12 Table SF-15); it reports also the scan outcome that withholds KS_RDY (log 141). -/
def safetyStatusBody (_ : List Byte) (s : State) : Served :=
  if !rdy s rKS && !scanWithholds s then no 0x08F0 s
  else ok 0x0800 ([inputByte s false, inputByte s true, byteOf (if s.safety.sokFault then 2 else b2n s.safety.sok), 0] ++
    le 2 s.safety.word ++ le 2 s.safety.last ++ [byteOf s.safety.scan, 0] ++ le 2 (deadlineMs s) ++
    ((List.range 24).flatMap (stopEntry s)) ++ le 4 s.safety.uncontrolled) s

def execSafetyStatus (ch : Nat) (s : State) : Out := .next (serve 0x0802 (len 0) safetyStatusBody ch s)

/-- Table 0x4801 (12 R303). -/
def check4801 (b : List Byte) : Option Nat :=
  let t := fun k => fld b (8 * k) 2
  let used := (List.range 8).filter fun k => t k != 0xFFFF
  if t 0 == 0 && (List.range 8).all (fun k =>
        (t k ≤ 6000 || t k == 0xFFFF) && within b (8 * k + 2) 1 0 150 && allZero b (8 * k + 3) 1 &&
        (t k == 0xFFFF || within b (8 * k + 4) 2 5 800) && allZero b (8 * k + 6) 2) &&
     (used.zip (used.drop 1)).all (fun e => decide (t e.1 < t e.2)) &&
     within b 64 1 8 255 && within b 65 1 4 64 && within b 66 1 2 8 && within b 67 1 2 80 && within b 68 2 20 500 &&
     within b 70 1 1 60 && allZero b 71 1 then none
  else some 0x0811

end Sys2Proof.Machine
end

