-- ==== Sys2Proof/Machine/TableCmd.lean ====
section
/-!
DEFINITION. Parameter tables: staging, the checks of Table HL-20, content checks of the load-switch and metering tables,
and the effect of an accepted version (04 R123 to R125).
-/

namespace Sys2Proof.Machine

/-- Fixed sizes of the tables of firmware 2.4; the safe frame has none (27 Table IX-2). -/
def tabSizes : List (Nat × Option Nat) :=
  [(0x0501, some 96), (0x0601, some 208), (0x0A01, some 16), (0x0C01, some 32), (0x0D01, some 16), (0x1201, some 136),
   (0x1301, some 36), (0x1302, none), (0x1401, some 8), (0x4301, some 120), (0x4302, some 24), (0x4303, some 8),
   (0x4401, some 2096), (0x4501, some 64), (0x4502, some 256), (0x4601, some 128), (0x4701, some 96), (0x4801, some 72),
   (0x4901, some 2528), (0x4902, some 2528), (0x4A01, some 40), (0x4F01, some 16)]

/-- The table is assigned by an owning chapter (04 R123). -/
def tabKnown (id : Nat) : Bool := tabSizes.any fun e => e.1 == id
def tabSize (id : Nat) : Option Nat := ((tabSizes.find? fun e => e.1 == id).map (·.2)).join
def tabSealed (id : Nat) : Bool := decide (0x4000 ≤ id ∧ id < 0x8000)

/-- Ports whose map entry, whose group's entry or whose MCLK edge differs between two front-end maps (05 R146). -/
def mapMoved (s : State) (old new : List Byte) (p : Nat) : Bool :=
  let g := groupOf s p
  bytesAt old (4 * p) 4 != bytesAt new (4 * p) 4 || bytesAt old (96 + 4 * g) 4 != bytesAt new (96 + 4 * g) 4 ||
  bytesAt old (112 + 2 * (p / 6)) 2 != bytesAt new (112 + 2 * (p / 6)) 2

/-- Table 0x4301 (05 Tables MF-9, MF-10). -/
def check4301 (b : List Byte) (s : State) : Option Nat :=
  let ports := (List.range 24).all fun p =>
    within b (4 * p) 1 0 3 && within b (4 * p + 1) 1 0 2 && within b (4 * p + 2) 1 0 1 && allZero b (4 * p + 3) 1
  let grps := (List.range 4).all fun g =>
    within b (96 + 4 * g) 1 0 1 && within b (97 + 4 * g) 1 0 2 && allZero b (98 + 4 * g) 2 &&
    within b (112 + 2 * g) 1 0 1 && allZero b (113 + 2 * g) 1
  if !(ports && grps) then some 0x0310
  else if (List.range 24).any fun p => fld b (4 * p + 2) 1 == 1 && fld b (96 + 4 * fld b (4 * p) 1) 1 == 0 then
    some 0x0311
  else if (List.range 24).any fun p => mapMoved s (tab s 0x4301) b p && portOn s p then some 0x0312
  else none

/-- Table 0x4302 (06 Table MQ-8). -/
def check4302 (b : List Byte) : Option Nat :=
  if within b 0 2 1000 2770 && (fld b 2 1 == 50 || fld b 2 1 == 60) && within b 3 1 2 100 && within b 4 1 2 250 &&
     within b 5 1 50 95 && within b 6 1 105 130 && within b 7 1 110 150 && decide (fld b 6 1 < fld b 7 1) &&
     within b 8 2 20 1000 && within b 10 2 50 2000 && within b 12 2 10 (fld b 10 2 - 1) && within b 14 1 2 50 &&
     within b 15 1 1 (fld b 14 1 - 1) && within b 16 1 0 1 && within b 17 1 0 1 && within b 18 2 10 3600 &&
     allZero b 20 4 then none else some 0x0315

/-- Table 0x4303 (06 Table MQ-9). -/
def check4303 (b : List Byte) : Option Nat :=
  if within b 0 4 1000 100000 && within b 4 4 1 10000 then none else some 0x0315

/-- One entry of table 0x1201 is in range (22 Table LS-2). -/
def lsEntryOk (b : List Byte) (c : Nat) : Bool :=
  let f := fun o n => fld b (8 * c + o) n
  let role := f 0 1
  let pair := (f 1 1).testBit 0
  let inr := f 4 1
  role ≤ 5 && f 1 1 ≤ 7 && (!pair || c % 2 == 0) &&
  ((role == 0 && f 2 2 == 0) || decide (10 ≤ f 2 2 ∧ f 2 2 ≤ (if pair then 700 else 350))) &&
  (inr == 0 || decide (8 ≤ inr ∧ inr ≤ (if role == 1 then 28 else 14))) &&
  (if inr == 0 then f 5 1 == 0 else f 5 1 ≤ 40) &&
  (if role == 1 then decide (1 ≤ f 6 1 ∧ f 6 1 ≤ 100) else f 6 1 == 0) && f 7 1 == 0

/-- Table 0x1201 (22 R496). -/
def check1201 (b : List Byte) (s : State) : Option Nat :=
  let odd := (List.range 16).all fun c => c % 2 == 0 || !(fld b (8 * (c - 1) + 1) 1).testBit 0 || allZero b (8 * c) 8
  let locks := (List.range 24).all fun p =>
    tf s 0x4502 (8 * p) 1 != 0 || fld b (8 * tf s 0x4502 (8 * p + 1) 1) 1 == 4
  let busy := fun c : Nat =>
    let q := getLs s c
    q.cmd || q.out || q.latched || s.ls.resume.contains c
  if !((List.range 16).all (lsEntryOk b) && odd && locks && allZero b 128 8) then some 0x1214
  else if (List.range 16).any fun c => busy c && bytesAt b (8 * c) 8 != bytesAt (tab s 0x1201) (8 * c) 8 then some 0x1215
  else none

/-- Check 8 of Table HL-20: the owner's status where the owner refuses the content. -/
def tabCheck (id : Nat) (b : List Byte) (s : State) : Option Nat :=
  match id with
  | 0x0501 => check0501 b
  | 0x0601 => check0601 b
  | 0x0A01 => check0A01 b
  | 0x0C01 => check0C01 b
  | 0x0D01 => check0D01 b
  | 0x1201 => check1201 b s
  | 0x1301 => check1301 b
  | 0x1302 => check1302 b
  | 0x1401 => check1401 b
  | 0x4301 => check4301 b s
  | 0x4302 => check4302 b
  | 0x4303 => check4303 b
  | 0x4401 => check4401 b
  | 0x4501 => check4501 b
  | 0x4502 => check4502 b s
  | 0x4601 => check4601 b
  | 0x4701 => check4701 b
  | 0x4801 => check4801 b
  | 0x4901 => some 0x0911
  | 0x4902 => check4902 b
  | 0x4A01 => check4A01 b
  | 0x4F01 => check4F01 b
  | _ => none

/-- VERSION and CRC of a table as installed; the defaults count as version 0 (04 R123, 05 R145). -/
def tabVersion (s : State) (id : Nat) : Nat := ((tabRec s id).map (·.version)).getD 0
def tabCrc (s : State) (id : Nat) : Nat :=
  match tabRec s id with
  | some r => r.crc
  | none => if (defTab id).isEmpty then 0 else crc32 (defTab id)

/-- The highest version accepted of a table, installed or waiting for its effect. -/
def tabNewest (s : State) (id : Nat) : Nat :=
  (s.tabs.waiting.filter fun w => w.tab.id == id).foldl (fun v w => max v w.tab.version) (tabVersion s id)

/-- Bytes of the open tables once a table of a length is installed (18 Table QS-5). -/
def openBytes (s : State) (id total : Nat) : Nat :=
  (s.tabs.installed.filter fun r => !tabSealed r.id && r.id != id).foldl (fun n r => n + r.bytes.length) total

/-- The staging is discarded (04 R124). -/
def stageDrop (s : State) : State :=
  { s with tabs := { s.tabs with owner := none, id := 0, version := 0, total := 0, crc := 0, bytes := [] } }

/-- DATA of the entry TABLE_CHANGED (15 Table SA-3). -/
def tabChanged (id v0 v1 c0 c1 : Nat) : List Byte := le 2 id ++ le 2 v0 ++ le 2 v1 ++ zeros 2 ++ le 4 c0 ++ le 4 c1

/-- A table is accepted: its Cairn entry comes first where it is sealed; an open one goes to Quarry (04 R123, R125). The old
version and CRC in the entry are those installed at the acceptance, also where an earlier accepted version of the same
table still waits and will be the one replaced (DESIGN CHOICE, log 130). -/
def tabAccept (ch : Nat) (r : TableRec) (s : State) : State :=
  let wait := fun (tok : Nat) (c : Option Nat) (s : State) =>
    let w : TablePend := { tab := r, token := tok, ch := c, since := now s }
    { s with tabs := { s.tabs with waiting := s.tabs.waiting ++ [w] } }
  if tabSealed r.id then
    cairnO 5 0xFF (tabChanged r.id (tabVersion s r.id) r.version (tabCrc s r.id) r.crc) (wait (cairnToken s) (some ch) s)
  else
    let n := (r.bytes.length + 2047) / 2048
    let o : SeOp := { code := 8, cls := 3, kind := 0x25, units := n, data := [le 2 r.version, r.bytes], after := [.table r.id] }
    wait 0 none (seAsk o s)

/-- A segment has arrived from the owner of the staging, be it refused: the 10 s start again (04 R124). -/
def segArrived (ch : Nat) (s : State) : State :=
  if s.tabs.owner == some ch then { s with tabs := { s.tabs with last := now s } } else s

/-- TABLE_LOAD (04 R124, Tables HL-20, HL-21). On the final segment of the owner the first failure discards the staging.
ABORT is taken after check 3 and before checks 4 and 5, and answers OK also where no staging is open (DESIGN CHOICE, log
131: the spec gives neither its place in the order nor that status). -/
def tableLoadBody (ch : Nat) (pl : List Byte) (s0 : State) : Served :=
  let id := fld pl 0 2
  let ver := fld pl 2 2
  let total := fld pl 4 4
  let off := fld pl 8 4
  let crc := fld pl 12 4
  let n := fld pl 16 2
  let flags := fld pl 18 2
  let data := pl.drop 20
  let s := segArrived ch s0
  let out := fun (st own got : Nat) (s : State) => ok st (le 2 id ++ le 2 ver ++ le 4 got ++ le 2 own ++ zeros 2) s
  let held := if s.tabs.owner == some ch then s.tabs.bytes.length else 0
  let early := fun st : Nat =>
    if flags.testBit 0 && s.tabs.owner == some ch then out st 0 0 (stageDrop s) else out st 0 held s
  if data.length != n then no 0x0104 s0
  else if !tabKnown id then early 0x0001
  else if tabSealed id && !sealPort s then early 0x00F2
  else if s.tabs.owner.isSome && s.tabs.owner != some ch then out 0x00F3 0 0 s
  else if flags.testBit 1 then out 0x0000 0 0 (stageDrop s)
  else if off != 0 && !(s.tabs.owner == some ch && off == s.tabs.bytes.length && s.tabs.id == id &&
      s.tabs.version == ver && s.tabs.total == total && s.tabs.crc == crc) then early 0x0002
  else
    let bytes := (if off == 0 then [] else s.tabs.bytes) ++ data
    let badSize := decide ((if tabSealed id then 16384 else 262144) < total) || (tabSize id).any (fun k => k != total) ||
      (!tabSealed id && decide (3 * 1048576 < openBytes s id total))
    let fail := fun (st own : Nat) =>
      if flags.testBit 0 then out st own 0 (stageDrop s) else out st own held s
    if badSize then fail 0x0005 0
    else if total < bytes.length then fail 0x0002 0
    else if !flags.testBit 0 then
      out 0x0000 0 bytes.length { s with tabs := { s.tabs with
        owner := some ch, id := id, version := ver, total := total, crc := crc, bytes := bytes, last := now s } }
    else if bytes.length != total then fail 0x0002 0
    else if crc32 bytes != crc then fail 0x0003 0
    else if tabSealed id && ver ≤ tabNewest s id then fail 0x0004 0
    else match tabCheck id bytes s with
      | some own => fail 0x0006 own
      | none =>
        let s1 := tabAccept ch { id := id, version := ver, bytes := bytes, crc := crc } (stageDrop s)
        if tabSealed id then (none, s1) else out 0x0000 0 total s1

def execTableLoad (ch : Nat) (s : State) : Out :=
  .next (serve 0x0010 (fun k => decide (20 ≤ k)) (tableLoadBody ch) ch s)

/-- TABLE_INFO (04 Table HL-22). -/
def tableInfoBody (pl : List Byte) (s : State) : Served :=
  let id := fld pl 0 2
  if !tabKnown id then no 0x0001 s
  else
    let here := (tabRec s id).isSome || !(defTab id).isEmpty
    let staging := s.tabs.owner.isSome && s.tabs.id == id
    let st := if staging then 2 else if here then 1 else 0
    ok 0x0000 (le 2 id ++ le 2 (tabVersion s id) ++ le 4 (tab s id).length ++ le 4 (tabCrc s id) ++
      [byteOf st, byteOf (b2n (tabSealed id)), 0, 0]) s

def execTableInfo (ch : Nat) (s : State) : Out := .next (serve 0x0011 (len 4) tableInfoBody ch s)

/-- TABLE_STAGING_TIMEOUT (04 R124): no segment for 10 s. -/
def stageTimeout (s : State) : State :=
  if s.tabs.owner.isSome && decide (s.tabs.last + 80000 ≤ now s) then stageDrop s else s

def execTableStagingTimeout (s : State) : Out := .next (stageTimeout s)

/-- A port whose entry of the front-end map has changed: not ready, every phase on the coarse path (05 R146), and its bank
composed anew. DESIGN CHOICE: this ends a hold on the fine path and drops a request for one (05 R159, log 138). -/
def portRemap (p : Nat) (s : State) : State :=
  compose p (foldN 3 (fun x s =>
    let s1 := if (getPh s p x).hold == 2 then endHold p x s else s
    updPh (3 * p + x) (fun h => { h with
      fine := false, cnt := 0, restart := true, changes := if h.fine then sat16 h.changes else h.changes
      box := if h.fine then [] else h.box, sum := { h.sum with fine := false }
      holdReq := h.holdReq.filter fun r => r.1 != 2 }) s1) (setReady p false s))

/-- What the owning unit does when a version takes effect (04 R125). -/
def onTable (old : State) (r : TableRec) (s : State) : State :=
  match r.id with
  | 0x0601 => applyOptions s
  | 0x1201 => lsHoldLatch s
  | 0x1301 => updDisp (fun d => { d with timNew := d.timNew || d.mode == 1 || d.mode == 2 }) s
  | 0x1302 => updDisp (fun d => { d with safeLoad := true }) s
  | 0x4301 => eachPort (fun p s => if mapMoved old (tab old 0x4301) r.bytes p then portRemap p s else s) s
  | 0x4302 => foldN 4 (fun g s => updGrp g (fun q => { q with
      tbl := if q.tbl.isEmpty then tab old 0x4302 else q.tbl }) s) s
  | 0x4303 => { s with meter := { s.meter with pulses := s.meter.pulses.map fun q => { q with renew := true } } }
  | 0x4401 => composeAll s
  | 0x4601 => budgetTable old s
  | 0x4501 => { s with ports := s.ports.map fun q => { q with hs := { q.hs with
      tblNew := true, tbl := if q.hs.tbl.isEmpty then tab old 0x4501 else q.hs.tbl } } }
  | _ => s

/-- A version takes the place of the installed one. -/
def tabInstall (r : TableRec) (s : State) : State :=
  onTable s r { s with tabs := { s.tabs with installed := (s.tabs.installed.filter fun q => q.id != r.id) ++ [r] } }

/-- One waiting table at a tick boundary: an open one and a sealed one whose entry is in MRAM take effect; one whose
entry is lost is refused (04 R125, 15 R369). -/
def tabEffect1 (s : State) (w : TablePend) : State :=
  let reply := fun (st got : Nat) (s : State) => match w.ch with
    | some c => answerLate c st (le 2 w.tab.id ++ le 2 w.tab.version ++ le 4 got ++ zeros 4) s
    | none => s
  let drop := fun s : State => { s with tabs := { s.tabs with waiting := s.tabs.waiting.erase w } }
  if now s ≤ w.since || !cairnDone w.token s then s
  else if w.token == 0 || !cairnLost w.token s then reply 0 w.tab.bytes.length (tabInstall w.tab (drop s))
  else reply 0x00F2 0 (drop s)

/-- TABLE_EFFECT (04 R125). -/
def tabEffect (s : State) : State := s.tabs.waiting.foldl tabEffect1 s

def execTableEffect (s : State) : Out := .next (tabEffect s)

/-- The seal closes: sealed tables whose entry is not in MRAM are refused, and their entries leave the queue
(15 Table SA-8). -/
def tabSealShut (s : State) : State :=
  let lost := s.tabs.waiting.filter fun w => w.token != 0 && !cairnDone w.token s
  lost.foldl (fun s w =>
    let s1 := { s with
      tabs := { s.tabs with waiting := s.tabs.waiting.erase w }
      cairn := { s.cairn with queue := s.cairn.queue.filter fun j => j.token != w.token } }
    match w.ch with
    | some c => answerLate c 0x00F2 (le 2 w.tab.id ++ le 2 w.tab.version ++ zeros 8) s1
    | none => s1) s

end Sys2Proof.Machine
end

