-- ==== Sys2Proof/Machine/Supply.lean ====
section
/-!
DEFINITION. The loss of a clock, the seal input and the supply-loss inputs (02 R48, R49, 15 R362 to R364, 08 R212 to
R215, 26 R555).
-/

namespace Sys2Proof.Machine

/-- The transactions of the front-ends fail as the reader clock is held (02 Table TK-1): a value or profile write is
reported as aborted, as at an answer that does not come (16 R380), and the carriers go off. -/
def nfFail (s : State) : State :=
  nfCut (foldN 2 (fun n s =>
    let q := getNf s n
    if !q.carrier then s
    else if q.ph == 10 || (12 ≤ q.ph && q.ph ≤ 15) then
      cardEv n 4 0 (updNf n (fun q => { q with aborts := sat32 q.aborts }) s)
    else if q.ph == 16 || q.ph == 17 then cardEv n 6 0 s
    else s) s)

/-- The reactions of Table TK-1 to the loss of a clock other than the RTC's (02 R48). -/
def clockReact (k : Clock) (s : State) : State :=
  match k with
  | .xref => { s with clk := { s.clk with xref := false, plRun := false } }
  | .rtc => s
  | .rco0 => let s1 := { s with clk := { s.clk with rco0 := false } }
             if s1.clk.rco1 then clockRec .rco1 2 s1 else s1
  | .rco1 => let s1 := { s with clk := { s.clk with rco1 := false } }
             if s1.clk.rco0 then clockRec .rco0 2 s1 else s1
  | .plla => { s with
      clk := { s.clk with plla := false, apRun := false }, boot := { s.boot with apDue := s.boot.apDue || imgActive s 1 } }
  | .pllb => setBusRun false { s with clk := { s.clk with pllb := false } }
  | .pllc => { s with clk := { s.clk with pllc := false } }
  | .plln =>
    nfFail { s with clk := { s.clk with plln := false, nfRun := s.clk.nfRun && s.clk.nfSrc } }
  | .pllp => { s with clk := { s.clk with pllp := false, pixRun := false } }

/-- CLOCK_LOSS (02 R49, Table TK-1). seen: the monitor has detected the loss; a stopped RTC oscillator is detected at
most 112 us after it stopped (R69), any other loss at once. -/
def clockLoss (k : Clock) (seen : Bool) (s : State) : State :=
  if k == .rtc then
    let s1 := { s with clk := { s.clk with rtcOsc := false } }
    if seen && s.clk.rtcRun then rtcStopped s1 else s1
  else if clockOn s.clk k then clockReact k (clockRec k 0 s) else s

def execClockLoss (x : ClockStop) (s : State) : Out := .next (clockLoss x.clock x.seen s)

/-- SECONDS_OPEN of a SEAL_CLOSED entry (15 R363). -/
def secondsOpen (s : State) : Nat :=
  let queued := ((s.cairn.queue ++ s.cairn.behind).find? fun j => j.entry.code == 1).map fun j => j.entry.tick
  match (match queued with
    | some t => some t
    | none => s.cairn.openedAt) with
  | some t => min ((now s - t) / 8000) 0xFFFFFFFF
  | none => 0xFFFFFFFF

/-- Ready ports whose calibration set does not pass are withdrawn when the seal closes (07 R191). PORT_RDY clears at once, at
the start of the safe stop (DESIGN CHOICE, log 149). -/
def sealWithdraw (p : Nat) (s : State) : State :=
  if rdy s p && !calPasses s p then
    let s1 := updPort p (fun q => { q with ct := { q.ct with vCal := true } }) s
    let s2 := if portOn s1 p then startStop p 0x09 none s1 else endSequence p s1
    setReady p false s2
  else s

/-- A changed OR image that waits for its Cairn entry waits no longer when the seal closes: the entry leaves the queue,
and its end chunk is judged against the shut port (01 R41, 03 R88). -/
def orSealShut (s : State) : State :=
  match s.boot.orWait with
  | some t => { s with
      boot := { s.boot with orWait := none }
      cairn := { s.cairn with queue := s.cairn.queue.filter fun j => j.token != t } }
  | none => s

/-- The seal closes: the port shuts at once and the SEAL_CLOSED entry follows (15 R363, R364, Table SA-8). -/
def sealCloses (s : State) : State :=
  let s1 := { s with sealIn := { s.sealIn with open_ := false, port := false, opening := none, openedIn := none } }
  let s2 := cairnO 2 0xFF (zeros 4 ++ le 4 (secondsOpen s1)) (orSealShut s1)
  let s3 := updAbandon 0x10F2 (tabSealShut (calSealShut s2))
  eachPort sealWithdraw s3

/-- The seal opens: the SEAL_OPENED entry comes first. During supply loss the port stays shut until reset (15 R363,
Table SA-8). -/
def sealOpens (s : State) : State :=
  let tok := if s.eg.pfailTick.isSome then none else some (cairnToken s)
  cairnO 1 0xFF (zeros 4) { s with sealIn := { s.sealIn with open_ := true, opening := tok, openedIn := none } }

/-- SEAL_CHANGE (15 R363): a level has held for 64 samples and differs from the seal state; the first to hold is the
boot seal state, and where it agrees with the state last logged no entry is written. -/
def sealChange (s : State) : State :=
  let q := s.sealIn
  if q.run < 64 || s.boot.phase == .reset then s
  else if !q.known then
    let s1 := { s with sealIn := { q with known := true }, boot := { s.boot with sealOpen := q.level } }
    if q.level == s.cairn.sealState then
      { s1 with sealIn := { s1.sealIn with open_ := q.level, port := q.level } }
    else if q.level then sealOpens s1 else sealCloses s1
  else if q.level == q.open_ then s
  else if q.level then sealOpens s else sealCloses s

def execSealChange (s : State) : Out := .next (sealChange s)

/-- SEAL_PORT_OPEN (15 R363): the tick after SEAL_OPENED came into MRAM. -/
def sealPortOpens (s : State) : State :=
  match s.sealIn.openedIn with
  | some t =>
    if t < now s && s.sealIn.open_ && s.eg.pfailTick.isNone then
      { s with sealIn := { s.sealIn with port := true, openedIn := none } }
    else s
  | none => s

def execSealPortOpen (s : State) : Out := .next (sealPortOpens s)

/-- PFAIL_N_CONFIRMED (08 R212, Table EG-5): tick n + 1 becomes a forced commit tick; HOLD sets, the display discharges,
the carriers go off and no NAND operation starts. A fall after a rise that is taken only after the forced commit sets
HOLD again, and its sequence starts once that rise is taken (R215). -/
def pfailConfirmed (s : State) : State :=
  if s.boot.phase == .reset then { s with boot := { s.boot with pfailN := false } }
  else if s.eg.pfailTick.isSome then
    let s1 := { s with boot := { s.boot with pfailN := false, hold := true } }
    if s.eg.rise.isSome && s.eg.again.isNone then { s1 with eg := { s1.eg with again := some (now s) } } else s1
  else
    let s1 := { lossBegins (now s) s with pl := plCut s }
    let s2 := { s1 with boot := { s1.boot with pfailN := false, hold := true } }
    let s3 := if s2.eg.forced.isNone && ksRun s2 then writeKsRecord (closedMap s2) s2 else s2
    updAbandon 0x1016 (dispPfail (nfCut s3))

def execPfailNConfirmed (s : State) : Out := .next (pfailConfirmed s)

/-- PFAIL_N_RISE (08 R215): service continues and HOLD clears (03 R99); a rise before the forced commit is taken after it. -/
def pfailRise (s : State) : State :=
  let s1 := { s with boot := { s.boot with pfailN := true, hold := false } }
  if s1.eg.forced.isSome && orRun s1 then
    { s1 with eg := { s1.eg with rise := if s1.eg.rise.isNone then some (now s) else s1.eg.rise } }
  else supplyReturn (now s) s1

def execPfailNRise (s : State) : Out := .next (pfailRise s)

/-- HOLDUP_S_CHANGE (26 R555): HOLDUP_LOW at a fall and HOLDUP_OK at a rise, with no DATA. -/
def holdupChange (level : Bool) (s : State) : State :=
  let s1 := { s with boot := { s.boot with holdupS := level } }
  if s.boot.phase == .reset || level == s.boot.holdupS then s1
  else evrec (if level then 0x1403 else 0x1402) 5 0xFF [] s1

def execHoldupSChange (level : Bool) (s : State) : Out := .next (holdupChange level s)

end Sys2Proof.Machine
end

