-- ==== Sys2Proof/Machine/Reset.lean ====
section
/-!
DEFINITION. Full reset, its release, the boot phases, the activation of an image, warm AP restarts, memory errors and
OFF-HOLD (03, 12 R310 to R312, 24 R532, R533, 25 R539, R545).
-/

namespace Sys2Proof.Machine

/-- Ports around a full reset: availability and fences stay, with the faults of Table RC-7 that hold until the fence is
lifted (25 R540, R545, 12 R297). -/
def portReset (q : Port) : Port :=
  let f := fun c : Nat => q.fenceBy == some (1, c)
  { year := q.year, life := q.life, fenceBy := q.fenceBy, byGroup := q.byGroup
    ct := { vFault := q.fenceBy.any fun b => b.1 == 1, welded := f 0x0C, mirror := f 0x0B, cfbFault := f 0x0A } }

/-- Load channels around a full reset: those of the reset-hold latch that are on stay on, at full duty (22 Table
LS-3). -/
def lsReset (u : LoadSw) : LoadSw :=
  let keep := fun (q : LsCh) (c : Nat) => u.latch.testBit c && q.out
  { latch := u.latch
    hold := u.hold && u.chans.zipIdx.any fun e => keep e.1 e.2
    chans := u.chans.zipIdx.map fun e =>
      if keep e.1 e.2 then { cmd := true, out := true, held := true, high := true, duty := 1000, latched := e.1.latched } else {} }

/-- The store around a full reset: what is on the medium and in MRAM stays (18 R442). -/
def quarryReset (q : Quarry) : Quarry :=
  { q with
    chips := q.chips.map fun k => { k with
      st := 0, clock := 0, delay := 0, weak := 0, unc := 0, late := []
      blks := k.blks.filterMap fun e =>
        let b := { e.2 with erases := 0 }
        if b == {} then none else some (e.1, b) }
    asks := [], ops := [], sweepAt := 0, time := [{}, {}], bmap := [], uids := [], loaded := false, ckpt := 0
    sessPend := q.sessPend.filter fun e => e.1 }

/-- A full reset may tear the unit that a channel programs: its block takes no further program until it is erased (18
R442). -/
def tearUnits (s : State) : State :=
  foldN 2 (fun c s => match running s c with
    | some o => (match o.steps with
      | t :: _ =>
        let i := 2 * t.chan + t.chip
        if t.act != 1 then s
        else match placeBlk s i t.kind with
          | some b => updBlk i b (fun q => { q with kind := t.kind, shut := true }) s
          | none => s
      | [] => s)
    | none => s) s

/-- The tamper envelope runs on in the always-on domain; queued entries are lost and the latch stands (19 R460 to
R464). -/
def rindReset (r : Rind) : Rind :=
  { lfsr := r.lfsr, broken := r.broken, reading := r.reading, cover := r.cover, zCount := r.zCount, zTick := r.zTick
    zLine := r.zLine, latch := r.latch.map fun t => { t with token := none } }

/-- The state that a full reset leaves: SRAM cleared, every image EMPTY, MRAM, OTP, RTC and Quarry as they were (03
R75). -/
def resetState (s : State) : State :=
  let v := s.vault
  { clk := { rtcOsc := s.clk.rtcOsc, rco0 := s.clk.rco0, rco1 := s.clk.rco1 }
    boot := { sealedOr := s.boot.sealedOr, sealedVer := s.boot.sealedVer, cause := s.boot.cause, resetN := s.boot.resetN
              pgood := s.boot.pgood, supplyOk := s.boot.supplyOk, pfailN := s.boot.pfailN, holdupS := s.boot.holdupS }
    otp := s.otp
    link := { chans := (List.range 8).map fun c => if fencedB s 10 c then { st := .fenced } else {} }
    tabs := { installed := s.tabs.installed.filter fun r => tabSealed r.id }
    ev := { head := s.ev.reserved, reserved := s.ev.reserved, cleared := s.ev.cleared, spilled := s.ev.spilled, zone := s.ev.zone }
    cairn := { s.cairn with queue := [], inTick := 0, openedAt := none, copying := 0, behind := [], lostToks := [] }
    sealIn := { level := s.sealIn.level }
    meter := { lanes := { map := s.meter.lanes.map, withdrawn := s.meter.lanes.withdrawn }
               sars := s.meter.sars.map fun k => { k with fails := 0, run := 0, okRun := 0 } }
    cal := { port := s.cal.port, group := s.cal.group }
    eg := { regs := s.eg.regs, slots := s.eg.slots, commits := s.eg.commits }
    ports := s.ports.map portReset
    safety := { recs := s.safety.recs }
    rtc := s.rtc
    tar := { snaps := s.tar.snaps, counter := s.tar.counter, oldTab := s.tar.oldTab, trims := s.tar.trims
             nextD := s.tar.nextD, endOf := s.tar.endOf, closedTo := s.tar.closedTo }
    fences := { s.fences with
      grp := [none, none, none, none], rowErrs := [], corrected := 0
      mains := (List.range 4).map (grpMains s), atBoot := s.fences.map &&& ~~~s.fences.requested }
    ls := lsReset s.ls
    vault := { cells := v.cells.map (fun c => { c with miss := 0 }), map := v.map, kseq := v.kseq, lost := v.lost
               counter := v.counter, drawn := v.drawn, zeroised := v.zeroised, coverBit := v.coverBit }
    rind := rindReset s.rind
    qr := quarryReset (tearUnits s).qr
    pl := { fcnt := s.pl.reserved, reserved := s.pl.reserved, high := s.pl.high }
    pw := { standby := s.pw.standby, refusals := s.pw.refusals, entries := s.pw.entries, falseWakes := s.pw.falseWakes
            offHolds := s.pw.offHolds }
    draws := s.draws
    pending := s.pending }

/-- The inputs that hold the device in reset follow the causes (03 R74, Table PU-2). -/
def resetPins (causes : List Nat) (b : Boot) : Boot :=
  { b with
    supplyOk := b.supplyOk && !causes.contains 1, pgood := b.pgood && !causes.contains 2
    resetN := b.resetN && !causes.contains 5 }

/-- A reset falls into the commit window of a closure: the slot its snapshot goes to holds none with a valid CRC (13 R332). -/
def tearSnap (s : State) (t : Tariff) : Tariff :=
  if s.tar.snapTick == some (now s) then
    { t with snaps := t.snaps.map fun b => if fld b 0 4 + 1 == periodNo s then [] else b }
  else t

/-- FULL_RESET (03 R74 to R76): of several causes the lowest is recorded. In OFF-HOLD the cause stays 6. torn: the reset
falls into the write of a Cairn entry (15 R371) or of a billing snapshot (13 R332). -/
def fullReset (causes : List Nat) (torn : Bool) (s : State) : State :=
  let l := causes.filter fun c => decide (1 ≤ c ∧ c ≤ 8) && c != 6
  match l with
  | [] => s
  | c :: cs =>
    let low := cs.foldl min c
    if s.boot.phase == .reset then
      let held := if s.pw.mode == 3 || s.boot.cause == 0 then s.boot.cause else min s.boot.cause low
      { s with boot := { resetPins l s.boot with cause := if s.boot.cause == 0 then low else held } }
    else
      let s1 := resetState s
      { s1 with
        boot := { resetPins l s1.boot with cause := low }
        tar := if torn then tearSnap s s1.tar else s1.tar
        cairn := { s1.cairn with torn := s1.cairn.torn || (torn && (!s.cairn.queue.isEmpty || s.cairn.lost != 0)) } }

def execFullReset (causes : List Nat) (torn : Bool) (s : State) : Out := .next (fullReset causes torn s)

/-- WATCHDOG_EXPIRY (02 R50): two feeds in a row are missing, or a clock that feeds it is lost (Table TK-1). -/
def watchdogExpiry (s : State) : State :=
  if s.clk.wdArmed && (2 ≤ s.clk.wdMissed || !s.clk.xref || !s.clk.pllb || !s.clk.pllc) then fullReset [4] false s else s

def execWatchdogExpiry (s : State) : Out := .next (watchdogExpiry s)

/-- LOCKSTEP_DIVERGENCE (12 R289, 01 R44). -/
def lockstepDivergence (s : State) : State := if ksRun s then fullReset [3] false s else s

def execLockstepDivergence (s : State) : Out := .next (lockstepDivergence s)

/-- The availability counters of a reset under R44: the reset logic's hold of 1 ms (25 R546). -/
def resetCounts (s : State) : State :=
  if !ownReset s.boot.cause then s
  else eachPort (fun p s =>
    if !fitted s p then s
    else
      let s1 := if nth s.fences.mains (groupOf s p) false then availMains p 8 s else s
      availCount p 1 8 s1) s

/-- A seed of the mesh drive, not 0 (19 R460). -/
def meshSeed (s : State) : State :=
  let r := randomBytes 4 s
  let v := rdLE r.1 % 2147483648
  { r.2 with rind := { r.2.rind with lfsr := if v == 0 then 1 else v } }

/-- The LINK of an entry matches its predecessor; that of SEQ 1 is 8 bytes of 0 (15 R366, R370). -/
def linkOk (ring : List CairnEntry) (e : CairnEntry) : Bool :=
  if e.seq == 1 then e.link == zeros 8
  else ring.any fun p => p.seq + 1 == e.seq && padTo 8 e.link == (sha256 (cairnBytes p)).take 8

/-- The head of a ring: the highest SEQ that reads and whose LINK matches its predecessor; where entries read but none
links, the highest that reads (15 R370, log 149). -/
def cairnHead (ring : List CairnEntry) : Nat :=
  match (ring.reverse.find? (linkOk ring)), ring.getLast? with
  | some e, _ => e.seq
  | none, some e => e.seq
  | none, none => 0

/-- Plinth reads the Cairn ring (15 R370, R371): an entry with an uncorrectable MRAM error is no longer held in MRAM, what lies
beyond the head is overwritten, and the slot after the head that does not read is torn. -/
def cairnScan (errs : List Nat) (c : Cairn) : Cairn :=
  let ring := c.ring.filter fun e => !errs.contains e.seq
  let head := cairnHead ring
  if errs.isEmpty then c
  else { c with ring := ring.filter (fun e => decide (e.seq ≤ head)), head := head, torn := c.torn || decide (head < c.head) }

/-- RESET_RELEASE (03 R80, R82, 02 R54): the inputs are sampled, SELFTEST begins, the tick starts at 0, XREF and the PLLs
start. A device that was never held in reset comes from power-on. A torn Cairn slot and the gap of the event recorder
come first in their logs (15 R371, 21 R491). TESTMODE zeroises (Table PU-4). errs: Cairn entries that read with an
uncorrectable error. -/
def resetRelease (bootsel testmode : Bool) (errs : List Nat) (s : State) : State :=
  if s.boot.phase != .reset || s.pw.mode == 3 then s
  else
    let s1 := { s with
      cairn := cairnScan errs s.cairn
      boot := { s.boot with
        cause := if s.boot.cause == 0 then 1 else s.boot.cause
        phase := .selftest, bootsel := bootsel, testmode := testmode, resetN := true, pgood := true, supplyOk := true }
      clk := { s.clk with
        tick := 0, xref := true, plla := true, pllb := true, pllc := true, plln := true, nfRun := true, apRun := true
        rtcRun := s.clk.rtcOsc } }
    let s2 := evrec 0x0004 6 0xFF (le 8 s.ev.spilled ++ [byteOf s1.boot.cause]) (setBusRun true s1)
    let s3 := if s2.cairn.torn then
        cairnO 0x70 0xFF (le 8 (s2.cairn.head + 1)) { s2 with cairn := { s2.cairn with torn := false } }
      else s2
    let s4 := resetCounts (meshSeed s3)
    if testmode then zeroise 3 s4 else s4

/-- A copy in MRAM that no longer reads is not valid (07 R189, 08 R207, 12 R311). -/
def loseCopy (c : MramCopy) (s : State) : State := match c with
  | .portCal p k => { s with cal := { s.cal with
      port := s.cal.port.modify p fun e => if k == 0 then ([0], e.2) else (e.1, [0]) } }
  | .groupCal g k => { s with cal := { s.cal with
      group := s.cal.group.modify g fun e => if k == 0 then ([0], e.2) else (e.1, [0]) } }
  | .slot k => { s with eg := { s.eg with slots := s.eg.slots.set k none } }
  | .ksRecord k => { s with safety := { s.safety with recs := s.safety.recs.set k none } }

/-- RESET_RELEASE with the copies in MRAM that no longer read (08 R204). -/
def resetReleased (straps : Straps) (errs : List Nat) (s : State) : State :=
  if s.boot.phase != .reset || s.pw.mode == 3 then s
  else resetRelease straps.bootsel straps.testmode errs (straps.lost.foldl (fun s c => loseCopy c s) s)

def execResetRelease (straps : Straps) (errs : List Nat) (s : State) : Out := .next (resetReleased straps errs s)

/-- SELFTEST_DONE (03 R80 to R82, 15 R363): the window opens once the seal state is known; a fatal fault halts. -/
def selftestDone (fatal : Bool) (s : State) : State :=
  if s.boot.phase != .selftest then s
  else if fatal then { s with boot := { s.boot with phase := .halted, lastStatus := 0x0211 } }
  else if !s.sealIn.known || (s.boot.testmode && !s.sealIn.open_) then s
  else if !s.boot.testmode && s.boot.bootsel && !s.boot.released then { s with boot := { s.boot with waiting := true } }
  else { s with boot := { s.boot with phase := .windowOpen, waiting := false } }

def execSelftestDone (fatal : Bool) (s : State) : Out := .next (selftestDone fatal s)

/-- Keystone starts: the entry of an uncontrolled stop is queued (03 R100, 12 R312). -/
def ksStart (s : State) : State :=
  let s1 := { s with safety := { s.safety with lockstep := true, uncontrolled := 0, waitEntry := none } }
  match ksNewest s with
  | some k =>
    if k.map == 0 then s1
    else
      cairnK 0x34 0xFF (le 4 k.map ++ [byteOf s.boot.cause, 0] ++ le 2 k.flags ++ le 8 k.tick)
        { s1 with safety := { s1.safety with uncontrolled := k.map, waitEntry := some (cairnToken s1) } }
  | none => s1

/-- A calibration record at boot: CAL_DEFAULTS where neither copy matches; CAL_INCOMPLETE where the newest Cairn entry of
the record names a CRC that neither copy has (07 R189, R200). -/
def calBootOne (t n : Nat) (c : List Byte × List Byte) (s : State) : State :=
  let crcOf := fun b => fld b (n - 4) 4
  let kept := match pickCopy n c.1 c.2 with
    | some b => b
    | none => []
  let s1 := if kept.isEmpty then cairnO 0x12 t [byteOf t] s else s
  match s.cairn.ring.reverse.find? fun e => e.code == 0x10 && fld e.data 0 1 == t with
  | some e =>
    let want := fld e.data 16 4
    let has := fun b => recOk n b && crcOf b == want
    if has c.1 || has c.2 then s1 else cairnO 0x11 t ([byteOf t, 0, 0, 0] ++ le 4 want ++ le 4 (crcOf kept)) s1
  | none => s1
def calBoot (s : State) : State :=
  foldN 4 (fun g s => calBootOne (0x80 + g) 32 (groupCopies s g) s)
    (eachPort (fun p s => calBootOne p 192 (portCopies s p) s) s)

/-- Orchard starts: lanes, calibration records, the restore of Table EG-6 (08 R217, 25 R540). -/
def orStart (failed errs : List Nat) (s : State) : State :=
  let s1 := tariffRestore (restoreRegs errs (calBoot (lanesBoot failed s)))
  { s1 with eg := { s1.eg with restored := true } }

/-- AP starts and serves the mailboxes; channels fenced on a fault pass the pattern test of their cleared buffers (25
R543). -/
def apStart (s : State) : State :=
  let s1 := foldN 8 (fun c s => if 6 ≤ c && fencedB s 4 (c - 6) then s else bootLift 10 c s) s
  setReady rAP true { s1 with clk := { s1.clk with apRun := s1.clk.plla } }

/-- What the processor of an image does when the image becomes ACTIVE (03 R92, R94); codes of Table PU-15. -/
def onActive (failed errs : List Nat) (code : Nat) (s : State) : State :=
  match code with
  | 1 => apStart s
  | 2 => ksStart s
  | 3 => orStart failed errs s
  | 4 => setReady rLE true (plStart { s with clk := { s.clk with plRun := true } })
  | 5 => seRecover s
  | _ => s

/-- The term of Table PU-17 of a chunk that is accepted, us (03 R98). -/
def chunkTerm (k : Chunk) (made : Nat) : Nat :=
  match k.kind with
  | 0 => 3000
  | 1 => 25
  | 4 => if k.image == 1 then 4000 else 2000
  | _ => 25 + 12 * made / 1024

/-- CHUNK_CONSUMED (03 R84 to R92), with the lanes that fail their known-answer vector (25 R540) and the words of the
register image with an uncorrectable error (08 R218) when OR starts. -/
def chunkConsumed (failed errs : List Nat) (s : State) : State :=
  let s1 := chunkConsume (onActive failed errs) s
  match s.boot.queue with
  | k :: _ =>
    if s1.boot.queue.length < s.boot.queue.length && s1.boot.lastStatus == 0x0200 then
      let made := (getImg s1 k.image).out.length - (if k.kind == 2 then 0 else (getImg s k.image).out.length)
      updImg k.image (fun g => { g with term := g.term + chunkTerm k made }) s1
    else s1
  | [] => s1

def execChunkConsumed (x : StartIn) (s : State) : Out := .next (chunkConsumed x.failed x.errs s)

/-- No response is outstanding any longer on the channels whose service a restart of AP has ended (04 R118). -/
def forgetService (s : State) : State :=
  let cut := fun o : SeOp => { o with after := o.after.filter fun f => match f with
    | .answer _ _ _ => false
    | _ => true }
  { s with
    tabs := { s.tabs with waiting := s.tabs.waiting.map fun w => { w with ch := none } }
    cal := { s.cal with run := s.cal.run.map fun r => { r with ch := 0xFF } }
    ports := s.ports.map fun q => { q with se := { q.se with ch := 0xFF } }
    qr := { s.qr with ops := s.qr.ops.map cut, asks := s.qr.asks.map cut }
    ev := { s.ev with clearing := [] }
    upd := if s.upd.image == 1 then s.upd else { s.upd with ch := none } }

/-- A warm AP restart (03 R77, 04 R118, 20 Table FU-12), once PLLA is locked and outside STANDBY: the digest decides whether AP runs again or is to be loaded
again; the stagings of tables and calibration are discarded, and an update being received or staged closes. -/
def warmRestart (corrupt : Bool) (s : State) : State :=
  if !imgActive s 1 || !s.clk.plla || s.pw.mode == 2 then s
  else
    let g := getImg s 1
    let act := s.upd.st == 3 && s.upd.image == 1
    let s1 := foldN 8 (fun c s =>
      if (chan s c).st == .inService && !(act && s.upd.ch == some c) then answer c 0x0107 [] s else s) s
    let s2 := forgetService (stageDrop s1)
    let s3 := { s2 with cal := { s2.cal with owner := none, blocks := [] } }
    let s4 := if s3.upd.st == 1 || s3.upd.st == 2 then updClose 0x0200 (updEvent 6 0x0200 0 s3) else s3
    if corrupt || sha256 g.out != manDigest g.man then
      setReady rAP false (updImg 1 (fun g => { g with st := .failed })
        { s4 with boot := { s4.boot with phase := .windowOpen, reopened := true, apDue := false } })
    else { s4 with
      clk := { s4.clk with apRun := true }, boot := { s4.boot with apDue := false }, pw := { s4.pw with mode := 0 } }

def execApWarmRestart (corrupt : Bool) (s : State) : Out := .next (warmRestart corrupt s)

/-- 24 hours in ticks. -/
def dayTicks : Nat := 691200000

/-- A double error (25 R539, Tables SP-1, SP-2): bank 14 resets, banks 0 to 5 restart AP, banks 9 and 10 fence what their
engine serves, and three in the buffer area of a mailbox channel within 24 h fence the channel. -/
def doubleError (bank : Nat) (image : Bool) (ch : Nat) (s : State) : State :=
  if bank == 14 then fullReset [8] false s
  else if bank < 6 then warmRestart image s
  else if bank == 9 then
    foldN 3 (fun k s => fenceNow 5 k false 0x0D 9 s) (fenceNf 1 false 0x0D 9 (fenceNf 0 false 0x0D 9 s))
  else if bank == 10 then
    foldN 4 (fun i s => if (chipOf s i).fit then fenceNow 9 i false 0x0D 10 s else s)
      (foldN 2 (fun c s => fenceNow 8 c false 0x0D 10 s) s)
  else if bank == 11 && ch < 8 then
    let l := now s :: (chan s ch).errs.filter fun t => decide (now s < t + dayTicks)
    let s1 := { s with link := { s.link with chans := s.link.chans.modify ch fun k => { k with errs := l } } }
    if 3 ≤ l.length then fenceNow 10 ch false 0x0B 0 s1 else s1
  else s

/-- A corrected error: counted, and a row corrected twice within 24 h enters the run-time repair map (25 Table SP-1). -/
def correctedError (bank row : Nat) (s : State) : State :=
  let f := s.fences
  let l := f.rowErrs.filter fun e => decide (now s < e.2.2 + dayTicks)
  let again := l.any fun e => e.1 == bank && e.2.1 == row
  let take := again && !f.repair.contains (bank, row) && nth f.rows bank 0 != 0
  { s with fences := { f with
      corrected := sat32 f.corrected, rowErrs := (bank, row, now s) :: l
      repair := if take then f.repair ++ [(bank, row)] else f.repair
      rows := if take then f.rows.set bank (nth f.rows bank 0 - 1) else f.rows } }

/-- SRAM_ECC_ERROR (25 R539): image, a double error lies in the AP image; ch, the mailbox channel whose buffer area holds
it, 8 for none. -/
def sramEcc (bank row : Nat) (double image : Bool) (ch : Nat) (s : State) : State :=
  if s.boot.phase == .reset || 16 ≤ bank then s
  else if double then doubleError bank image ch s
  else correctedError bank row s

def execSramEccError (bank row : Nat) (double image : Bool) (ch : Nat) (s : State) : Out :=
  .next (sramEcc bank row double image ch s)

/-- The UTC year of an RTC SECONDS value (04 Table HL-14). -/
def yearOf (t : Nat) : Nat := (dateNo (day2000 + t / 86400)).1

/-- AVAIL_YEAR_RESTART (25 R545): at 00:00 UTC on 1 January; it waits while TIME_VALID is 0. -/
def yearRestart (s : State) : State :=
  if s.rtc.valid && yearOf s.fences.yearStart < yearOf s.rtc.sec then
    { s with
      fences := { s.fences with yearStart := s.rtc.sec }
      ports := s.ports.map fun q => { q with year := {} } }
  else s

def execAvailYearRestart (s : State) : Out := .next (yearRestart s)

/-- No fitted group has a line at 50 V or more in its last complete cycle (24 R532). -/
def noMains (s : State) : Bool :=
  (List.range 4).all fun g => !grpFitted s g || ((getGrp s g).urms.take 3).all fun u => decide (u < v50)

/-- OFF_HOLD_ENTRY (24 R532): the device is held in full reset. -/
def offHoldEntry (s : State) : State :=
  match s.eg.pfailTick with
  | some t =>
    if s.boot.phase != .reset && tf s 0x1401 0 1 == 1 && decide (t + 8 * tf s 0x1401 2 2 ≤ now s) &&
        s.eg.forced.isNone && decide (t + 1 < now s) && s.eg.doneTick.any (fun d => decide (d < now s)) && noMains s &&
        s.cairn.queue.isEmpty then
      let s1 := resetState { s with pw := { s.pw with offHolds := sat32 s.pw.offHolds } }
      { s1 with pw := { s1.pw with mode := 3 }, boot := { s1.boot with cause := 6 } }
    else s
  | none => s

def execOffHoldEntry (s : State) : Out := .next (offHoldEntry s)

/-- OFF_HOLD_RELEASE (24 R533): PFAIL_N has been high for 1 ms; RESET_CAUSE 0x6. -/
def offHoldRelease (s : State) : State :=
  if s.pw.mode == 3 then
    { s with
      pw := { s.pw with mode := 0, lastWake := 8 }
      boot := { s.boot with cause := 6, pfailN := true } }
  else s

def execOffHoldRelease (s : State) : Out := .next (offHoldRelease s)

end Sys2Proof.Machine
end

