-- ==== Sys2Proof/Machine/Tick.lean ====
section
/-!
DEFINITION. The work of one tick (02 R54 to R56, Table TK-3), the readiness bits (03 R94) and the watchdog (02 R50).
-/

namespace Sys2Proof.Machine

/-- A READY_MAP bit sets when its condition holds; once set it is cleared only by the events of R94 (03 R94). -/
def readyWhen (b : Nat) (c : Bool) (s : State) : State := if c && !rdy s b then setReady b true s else s

/-- KS_RDY sets: the watchdog is armed and the cover-zeroise bit is written from switch 15 (03 R96, 19 R461). -/
def ksRise (s : State) : State :=
  if ksReady s && !rdy s rKS then
    setReady rKS true { s with
      clk := { s.clk with wdArmed := true, wdMissed := 0, lintelMissed := 0 }
      vault := { s.vault with coverBit := sw s 15 } }
  else s

/-- PORT_RDY sets (03 Table PU-16); at the first time since the full reset AVAILABLE_AT_BOOT applies (09 R245). -/
def portRise (p : Nat) (s : State) : State :=
  if !rdy s p && (getPort s p).ct.cfb == 4 && rdy s (rVG + groupOf s p) && !portFenced s p && portReady s p then
    let boot := tf s 0x0501 (4 * p + 2) 1 == 1
    let s1 := updPort p (fun q => { q with
      hs := { q.hs with seen := true, avail := if q.hs.seen || q.hs.availSet then q.hs.avail else boot }
      ct := { q.ct with vCal := false } }) (availReady p s)
    setReady p true s1
  else s

/-- CAIRN_RDY sets: the count of entries awaiting mirroring is taken from the mirror found (15 R370). -/
def cairnRise (s : State) : State :=
  if cairnOk s && !rdy s rCairn then
    let found := match s.cairn.mirror.getLast? with
      | some e => e.seq
      | none => 0
    setReady rCairn true { s with cairn := { s.cairn with mirrorSeq := found } }
  else s

/-- DISP_RDY sets: the panel timing is set and the safe frame is copied into the frame memory (03 Table PU-16). -/
def dispRise (s : State) : State :=
  if s.clk.busRun && tabLoaded s 0x1301 && tabLoaded s 0x1302 && !rdy s rDisp then
    let s1 := bootLift 7 0 s
    if fencedB s1 7 0 then s1 else setReady rDisp true (copySafe s1)
  else s

/-- The vault is masked and checked, and the mesh has run intact for 1 ms (03 Table PU-16, 19 R458). -/
def drupeOk (s : State) : Bool :=
  s.clk.busRun && s.vault.passed && !s.vault.rngBad && decide (8 ≤ s.rind.meshTicks)

/-- LEDGER_RDY sets as its conditions come to hold, and clears while no copy of the ledger serves (18 Table QS-11). -/
def ledgerReady (s : State) : State :=
  if rdy s rLedger && ledgerState s == 2 then setReady rLedger false s else readyWhen rLedger (ledgerOk s) s

/-- The READY_MAP bits whose conditions come to hold in this tick (03 R94). Nothing in the bus domain is judged while it
is stopped. -/
def judgeReady (s : State) : State :=
  let s1 := ksRise s
  let s1a := readyWhen rOR (orRun s1 && s1.eg.restored && s1.cal.bandSet) s1
  let s2 := if rdy s1a rOR && !rdy s1 rOR then orRise s1a else s1a
  let s3 := readyWhen rPulse (orRun s2 && s2.eg.restored) s2
  let s4 := readyWhen rSafety (ksRun s3 && s3.safety.sameN == 16 && s3.safety.injected && s3.safety.sokTest == 2) s3
  let s5 := foldN 4 (fun g s => readyWhen (rVG + g) (grpReady s g && !fencedB s 1 g) s) s4
  let s6 := eachPort portRise s5
  if s6.clk.busRun then lsRise (dispRise (cairnRise (ledgerReady (readyWhen rDrupe (drupeOk s6) s6)))) else s6

/-- One sample of SEAL_N (15 R362, R363). -/
def sealSample (low : Bool) (q : Seal) : Seal :=
  if low == q.level then { q with run := min 127 (q.run + 1) } else { q with level := low, run := 1 }

/-- The kinds of a crossing: it carries pulses, held words, or both (02 R59). -/
structure CrossKind where
  pulse : Bool
  held : Bool
deriving DecidableEq, Repr

/-- The kind of a crossing, 1 to 22 (02 Table TK-4). -/
def crossKind (c : Nat) : CrossKind :=
  { pulse := [2, 5, 12, 13, 14, 22].contains c, held := c != 2 && c != 12 }

/-- The crossings that make a transfer in every tick and never block, and MC01 (02 R60, R63, Table TK-4). -/
def tickCrossings : List Nat := [1, 2, 3, 4, 5, 7]

/-- Both end domains of a crossing run; one with a stopped end makes no transfer (02 Tables TK-2, TK-5). -/
def crossUp (s : State) (c : Nat) : Bool := if c == 1 then true else if c ≤ 4 then s.clk.pllb else s.clk.busRun

/-- The crossings whose transfer of this tick overruns: the one before is not yet acknowledged (02 R59, R60). -/
def overruns (s : State) : List Nat :=
  tickCrossings.filter fun c => crossUp s c && (nth s.clk.cross (c - 1) {}).open_

/-- The transfers of a tick (02 R59, R60). late: those not acknowledged before the next. An overrun sets the crossing's flag,
MORTAR_OVR and CLK_EVENT, and writes one entry (R63); its pulses of the tick are not delivered as events of their own. -/
def crossTick (late : List Nat) (s : State) : State :=
  let ovr := overruns s
  let next := fun (e : Crossing × Nat) =>
    if tickCrossings.contains (e.2 + 1) && crossUp s (e.2 + 1) then
      { open_ := late.contains (e.2 + 1), overrun := e.1.overrun || e.1.open_
        merged := (crossKind (e.2 + 1)).pulse && e.1.open_ : Crossing }
    else { e.1 with merged := false }
  let s1 := { s with clk := { s.clk with cross := s.clk.cross.zipIdx.map next } }
  ovr.foldl (fun s c => evrec 0x0003 5 0xFF [byteOf c] (clkEvent { s with clk := { s.clk with mortarOvr := true } })) s1

/-- What the destinations of MC01 and MC03 have captured: the word of this tick, or the last one where the transfer is late;
a write that follows replaces it (02 R60, R61). -/
def captured (i : TickIn) (s : State) : TickIn :=
  { i with
    samples := if i.late.contains 1 then s.clk.block else i.samples
    cfb := if i.late.contains 3 then s.clk.cfbWord else i.cfb }
def capture (i : TickIn) (s : State) : State :=
  let c := captured i s
  { s with clk := { s.clk with block := c.samples, cfbWord := c.cfb } }

/-- The reactions to missed deadlines of the handshake unit and of lanes (02 Table TK-3). -/
def missedTick (i : TickIn) (s : State) : State :=
  let s1 := if ksRun s then
      foldN 24 (fun p s => if i.hsMissed.contains p && fitted s p then stopFence p fenceCause 5 0 false s else s) s
    else s
  if orRun s1 then
    foldN 28 (fun l s =>
      if i.laneMissed.contains l && (nth s.meter.lanes.map l 0xFF != 0xFF || laneFree s l) then laneFail l 3 l false s else s) s1
  else s1

/-- The watchdog is fed at the end of a tick whose work met its deadlines and in which no crossing of a tick-domain or
Keystone destination overran (02 R50, R63); Keystone that stands still does not feed it (02 Table TK-1). -/
def watchdogTick (i : TickIn) (ovr : List Nat) (s : State) : State :=
  if !s.clk.wdArmed then s
  else
    let m := if i.liDone then 0 else min 8 (s.clk.lintelMissed + 1)
    let fed := i.ksDone && i.orDone && ksRun s && decide (m < 8) && ovr.all (· == 5)
    { s with clk := { s.clk with lintelMissed := m, wdMissed := if fed then 0 else min 3 (s.clk.wdMissed + 1) } }

/-- A tick begins: a stopped RTC oscillator has been seen (02 R69), the counter, the time of day, a set that comes into
force, the rate of the tick, the allocations computed in the tick before, the logs' counts per tick (02 R54, 13 R321,
R333, 10 R247, 15 R367, 21 R489). -/
def tickStart (s : State) : State :=
  let s0 := if s.clk.rtcRun && !s.clk.rtcOsc then rtcStopped s else s
  let s1 := { s0 with clk := { s0.clk with tick := s0.clk.tick + 1 } }
  let s2 := applySet (if s1.clk.rtcOsc then rtcTick s1 else s1)
  { s2 with
    cairn := { s2.cairn with inTick := 0 }
    ev := { s2.ev with inTick := 0 }
    eg := { s2.eg with rates := (s2.tar.rate :: s2.eg.rates).take 128 }
    ports := s2.ports.map fun q => { q with li := { q.li with force := q.li.alloc } }
    boot := if s2.boot.phase == .windowOpen && s2.boot.free0 && s2.boot.free1 && s2.boot.queue.isEmpty then
        { s2.boot with idleWin := s2.boot.idleWin + 1 } else s2.boot }

/-- The flags MAG of the running demand and profile intervals (06 R184, 13 Table TD-4, 18 Table QS-7). -/
def magTick (s : State) : State :=
  if s.rind.mag then { s with tar := { s.tar with run := s.tar.run ||| 16, profRun := s.tar.profRun ||| 16 } } else s

/-- The tick-domain and Keystone units (02 Table TK-3). ks: the tick start reached Keystone over MC02. -/
def realTime (i : TickIn) (ks : Bool) (s : State) : State :=
  let s1 := foldN 24 (fun p s => if i.hsMissed.contains p then s else handshakePort i p s) s
  let s2 := sarTick i.refs (meterTick i (calTick i s1))
  let s3 := if ks && ksRun s2 then keystoneTick i (if i.late.contains 3 then s2 else captureKs s2) else s2
  let s4 := eachPort liftTick (foldN 4 settleGroup s3)
  let s5 := creditTick s4
  { s5 with lintel := { s5.lintel with passDue := i.liDone } }

/-- The units that run beside the tick windows (02 R57). -/
def background (i : TickIn) (s : State) : State :=
  storeTick (dropFailed (updTick (dispTick (plTick (nfTick (magTick (aesTick (rindTick i (pulsesTick (commitDue s) (lsTick i s))))))))))

/-- TICK (02 R54, R55, Table TK-3): the work of one tick, in the order of its windows. A set whose interval is still open
closes it at the end of the tick before (13 R333), as does a computation of Lintel that is still to be made. The tick stands
still in reset, where only the Rind monitor works, and while XREF or PLLC is lost. -/
def tick (i : TickIn) (s : State) : State :=
  if s.boot.phase == .reset then { s with rind := rindHeld i s.rind }
  else if !tickRun s then s
  else
    let s0 := lintelSettle s
    let s1 := tickStart (if setWaits s0 then boundaryTick s0 else s0)
    let s2 := decTick i { s1 with sealIn := sealSample i.sealLow s1.sealIn }
    let ovr := overruns s2
    let i0 := decimated i s2
    let i1 := captured i0 s2
    let s3 := missedTick i (background i1 (realTime i1 (!ovr.contains 2) (crossTick i.late (capture i0 s2))))
    watchdogTick i ovr (availTick (judgeReady s3))

def execTick (i : TickIn) (s : State) : Out := .next (tick i s)

end Sys2Proof.Machine
end

