-- ==== Sys2Proof/Machine/Dispatch.lean ====
section
/-!
DEFINITION. The dispatch of the commands: one arm per constructor, each one direct call of the command's meaning.
-/

namespace Sys2Proof.Machine

def exec (i : Instr) (s : State) : Host.Outcome State Fault Refusal :=
  match i with
  | .hostWriteFrame cmd addr len data crc => Sys2Proof.Machine.execHostWriteFrame cmd addr len data crc s
  | .stagedWriteCommit => Sys2Proof.Machine.execStagedWriteCommit s
  | .rtcTimeRead => Sys2Proof.Machine.execRtcTimeRead s
  | .frameAbandoned bus => Sys2Proof.Machine.execFrameAbandoned bus s
  | .pendingAccessComplete bus => Sys2Proof.Machine.execPendingAccessComplete bus s
  | .registerWrite addr value => Sys2Proof.Machine.execRegisterWrite addr value s
  | .doorbell ch => Sys2Proof.Machine.execDoorbell ch s
  | .responseRelease ch => Sys2Proof.Machine.execResponseRelease ch s
  | .notificationDeliver => Sys2Proof.Machine.execNotificationDeliver s
  | .bwSubmit => Sys2Proof.Machine.execBwSubmit s
  | .bwRelease => Sys2Proof.Machine.execBwRelease s
  | .bwAbortImage => Sys2Proof.Machine.execBwAbortImage s
  | .chunkConsumed x => Sys2Proof.Machine.execChunkConsumed x s
  | .fullReset causes torn => Sys2Proof.Machine.execFullReset causes torn s
  | .resetRelease straps errs => Sys2Proof.Machine.execResetRelease straps errs s
  | .selftestDone fatal => Sys2Proof.Machine.execSelftestDone fatal s
  | .apWarmRestart corrupt => Sys2Proof.Machine.execApWarmRestart corrupt s
  | .tableStagingTimeout => Sys2Proof.Machine.execTableStagingTimeout s
  | .tableEffect => Sys2Proof.Machine.execTableEffect s
  | .tableLoad ch => Sys2Proof.Machine.execTableLoad ch s
  | .tableInfo ch => Sys2Proof.Machine.execTableInfo ch s
  | .linkEcho ch => Sys2Proof.Machine.execLinkEcho ch s
  | .notifyRoute ch => Sys2Proof.Machine.execNotifyRoute ch s
  | .bootInfo ch => Sys2Proof.Machine.execBootInfo ch s
  | .frontEndStatus ch => Sys2Proof.Machine.execFrontEndStatus ch s
  | .pathHold ch => Sys2Proof.Machine.execPathHold ch s
  | .readPort ch => Sys2Proof.Machine.execReadPort ch s
  | .readGroup ch => Sys2Proof.Machine.execReadGroup ch s
  | .readHarmonics ch => Sys2Proof.Machine.execReadHarmonics ch s
  | .pulseSelect ch => Sys2Proof.Machine.execPulseSelect ch s
  | .energyRead ch => Sys2Proof.Machine.execEnergyRead ch s
  | .calRead ch => Sys2Proof.Machine.execCalRead ch s
  | .calStage ch => Sys2Proof.Machine.execCalStage ch s
  | .calCommit ch => Sys2Proof.Machine.execCalCommit ch s
  | .calDiscard ch => Sys2Proof.Machine.execCalDiscard ch s
  | .calPulse ch => Sys2Proof.Machine.execCalPulse ch s
  | .portStatus ch => Sys2Proof.Machine.execPortStatus ch s
  | .cpMode ch => Sys2Proof.Machine.execCpMode ch s
  | .portAvail ch => Sys2Proof.Machine.execPortAvail ch s
  | .portLock ch => Sys2Proof.Machine.execPortLock ch s
  | .cpWake ch => Sys2Proof.Machine.execCpWake ch s
  | .lintelStatus ch => Sys2Proof.Machine.execLintelStatus ch s
  | .lintelSet ch => Sys2Proof.Machine.execLintelSet ch s
  | .rcStatus ch => Sys2Proof.Machine.execRcStatus ch s
  | .rcClear ch => Sys2Proof.Machine.execRcClear ch s
  | .safeStop ch => Sys2Proof.Machine.execSafeStop ch s
  | .safetyStatus ch => Sys2Proof.Machine.execSafetyStatus ch s
  | .tariffStatus ch => Sys2Proof.Machine.execTariffStatus ch s
  | .demandRead ch => Sys2Proof.Machine.execDemandRead ch s
  | .billingRead ch => Sys2Proof.Machine.execBillingRead ch s
  | .timeSet ch => Sys2Proof.Machine.execTimeSet ch s
  | .tariffActivate ch => Sys2Proof.Machine.execTariffActivate ch s
  | .accountRead ch => Sys2Proof.Machine.execAccountRead ch s
  | .accountSet ch => Sys2Proof.Machine.execAccountSet ch s
  | .tokenApply ch => Sys2Proof.Machine.execTokenApply ch s
  | .sessionStart ch => Sys2Proof.Machine.execSessionStart ch s
  | .sessionEnd ch => Sys2Proof.Machine.execSessionEnd ch s
  | .sessionStatus ch => Sys2Proof.Machine.execSessionStatus ch s
  | .cairnRead ch => Sys2Proof.Machine.execCairnRead ch s
  | .cairnStatus ch => Sys2Proof.Machine.execCairnStatus ch s
  | .nfStatus ch => Sys2Proof.Machine.execNfStatus ch s
  | .cardDataStage ch => Sys2Proof.Machine.execCardDataStage ch s
  | .plStatus ch => Sys2Proof.Machine.execPlStatus ch s
  | .plSend ch => Sys2Proof.Machine.execPlSend ch s
  | .quarryStatus ch => Sys2Proof.Machine.execQuarryStatus ch s
  | .profileRead ch => Sys2Proof.Machine.execProfileRead ch s
  | .sessionLogRead ch => Sys2Proof.Machine.execSessionLogRead ch s
  | .keyUpdate ch => Sys2Proof.Machine.execKeyUpdate ch s
  | .drupeStatus ch => Sys2Proof.Machine.execDrupeStatus ch s
  | .rindStatus ch => Sys2Proof.Machine.execRindStatus ch s
  | .updateStage ch => Sys2Proof.Machine.execUpdateStage ch s
  | .updateData ch => Sys2Proof.Machine.execUpdateData ch s
  | .updateActivate ch => Sys2Proof.Machine.execUpdateActivate ch s
  | .updateCommit ch blown => Sys2Proof.Machine.execUpdateCommit ch blown s
  | .updateAbort ch => Sys2Proof.Machine.execUpdateAbort ch s
  | .updateStatus ch => Sys2Proof.Machine.execUpdateStatus ch s
  | .activationPauseEnd pause => Sys2Proof.Machine.execActivationPauseEnd pause s
  | .evrecRead ch => Sys2Proof.Machine.execEvrecRead ch s
  | .evrecClear ch => Sys2Proof.Machine.execEvrecClear ch s
  | .evrecStatus ch => Sys2Proof.Machine.execEvrecStatus ch s
  | .lsSet ch => Sys2Proof.Machine.execLsSet ch s
  | .lsStatus ch => Sys2Proof.Machine.execLsStatus ch s
  | .lsClear ch => Sys2Proof.Machine.execLsClear ch s
  | .lsSenseSelect ch => Sys2Proof.Machine.execLsSenseSelect ch s
  | .dispStatus ch => Sys2Proof.Machine.execDispStatus ch s
  | .dispControl ch => Sys2Proof.Machine.execDispControl ch s
  | .dispWrite ch => Sys2Proof.Machine.execDispWrite ch s
  | .psEnter ch => Sys2Proof.Machine.execPsEnter ch s
  | .psStatus ch => Sys2Proof.Machine.execPsStatus ch s
  | .fenceRequest ch => Sys2Proof.Machine.execFenceRequest ch s
  | .fenceLift ch pass => Sys2Proof.Machine.execFenceLift ch pass s
  | .sparesStatus ch => Sys2Proof.Machine.execSparesStatus ch s
  | .availRead ch => Sys2Proof.Machine.execAvailRead ch s
  | .tick inp => Sys2Proof.Machine.execTick inp s
  | .commitTick => Sys2Proof.Machine.execCommitTick s
  | .watchdogExpiry => Sys2Proof.Machine.execWatchdogExpiry s
  | .clockLoss x => Sys2Proof.Machine.execClockLoss x s
  | .pllRelock k => Sys2Proof.Machine.execPllRelock k s
  | .lockstepDivergence => Sys2Proof.Machine.execLockstepDivergence s
  | .pwmRisingEdge p => Sys2Proof.Machine.execPwmRisingEdge p s
  | .pwmPeriodEnd p => Sys2Proof.Machine.execPwmPeriodEnd p s
  | .cpStateChange p => Sys2Proof.Machine.execCpStateChange p s
  | .ppStateChange p => Sys2Proof.Machine.execPpStateChange p s
  | .diodeProbe p => Sys2Proof.Machine.execDiodeProbe p s
  | .cpWakeEnd p => Sys2Proof.Machine.execCpWakeEnd p s
  | .overdraw p => Sys2Proof.Machine.execOverdraw p s
  | .lockRequest p => Sys2Proof.Machine.execLockRequest p s
  | .lockPullEnd p => Sys2Proof.Machine.execLockPullEnd p s
  | .locked p => Sys2Proof.Machine.execLocked p s
  | .lockTimeout p => Sys2Proof.Machine.execLockTimeout p s
  | .lockLost p budget => Sys2Proof.Machine.execLockLost p budget s
  | .lockRelease p => Sys2Proof.Machine.execLockRelease p s
  | .zeroCrossing g => Sys2Proof.Machine.execZeroCrossing g s
  | .cycleTimeout g => Sys2Proof.Machine.execCycleTimeout g s
  | .substituteCycleEnd g => Sys2Proof.Machine.execSubstituteCycleEnd g s
  | .supplyEventChange g => Sys2Proof.Machine.execSupplyEventChange g s
  | .harmonicWindowEnd g => Sys2Proof.Machine.execHarmonicWindowEnd g s
  | .tempBandSecond => Sys2Proof.Machine.execTempBandSecond s
  | .streamFault k cond => Sys2Proof.Machine.execStreamFault k cond s
  | .biasWindowEnd k => Sys2Proof.Machine.execBiasWindowEnd k s
  | .streamFailed k => Sys2Proof.Machine.execStreamFailed k s
  | .sarSpareTakeover k => Sys2Proof.Machine.execSarSpareTakeover k s
  | .sar5Fail => Sys2Proof.Machine.execSar5Fail s
  | .laneShadowRotate => Sys2Proof.Machine.execLaneShadowRotate s
  | .laneMismatch l sp lanePass spPass => Sys2Proof.Machine.execLaneMismatch l sp lanePass spPass s
  | .laneSelfCheck failed => Sys2Proof.Machine.execLaneSelfCheck failed s
  | .rcTrip p => Sys2Proof.Machine.execRcTrip p s
  | .closingSequence p => Sys2Proof.Machine.execClosingSequence p s
  | .plausJudge p => Sys2Proof.Machine.execPlausJudge p s
  | .closingStepTimer p => Sys2Proof.Machine.execClosingStepTimer p s
  | .pullInDeadline p => Sys2Proof.Machine.execPullInDeadline p s
  | .closeRetry p => Sys2Proof.Machine.execCloseRetry p s
  | .switchProofPulse p => Sys2Proof.Machine.execSwitchProofPulse p s
  | .cfbFaultDetect p => Sys2Proof.Machine.execCfbFaultDetect p s
  | .weldCheck p => Sys2Proof.Machine.execWeldCheck p s
  | .openOnLowCurrent p => Sys2Proof.Machine.execOpenOnLowCurrent p s
  | .openUnderLoad p => Sys2Proof.Machine.execOpenUnderLoad p s
  | .energyRemoval p => Sys2Proof.Machine.execEnergyRemoval p s
  | .safeStopEnd p => Sys2Proof.Machine.execSafeStopEnd p s
  | .sinDemand => Sys2Proof.Machine.execSinDemand s
  | .ssrDemand => Sys2Proof.Machine.execSsrDemand s
  | .safetyInputHealthy ssr => Sys2Proof.Machine.execSafetyInputHealthy ssr s
  | .discrepancy ssr => Sys2Proof.Machine.execDiscrepancy ssr s
  | .restartTimer ssr => Sys2Proof.Machine.execRestartTimer ssr s
  | .sokFault => Sys2Proof.Machine.execSokFault s
  | .sealSwitchScan fwd rev => Sys2Proof.Machine.execSealSwitchScan fwd rev s
  | .sealChange => Sys2Proof.Machine.execSealChange s
  | .sealPortOpen => Sys2Proof.Machine.execSealPortOpen s
  | .pfailNConfirmed => Sys2Proof.Machine.execPfailNConfirmed s
  | .pfailNRise => Sys2Proof.Machine.execPfailNRise s
  | .holdupSChange level => Sys2Proof.Machine.execHoldupSChange level s
  | .feederOverloadStop g l => Sys2Proof.Machine.execFeederOverloadStop g l s
  | .overloadWarning g l => Sys2Proof.Machine.execOverloadWarning g l s
  | .holdEnd p => Sys2Proof.Machine.execHoldEnd p s
  | .rotatePointer => Sys2Proof.Machine.execRotatePointer s
  | .superframeStart => Sys2Proof.Machine.execSuperframeStart s
  | .grantFallback => Sys2Proof.Machine.execGrantFallback s
  | .epochMixEnd => Sys2Proof.Machine.execEpochMixEnd s
  | .reservationAccept => Sys2Proof.Machine.execReservationAccept s
  | .sessionSettle => Sys2Proof.Machine.execSessionSettle s
  | .restoreSettlement => Sys2Proof.Machine.execRestoreSettlement s
  | .sessionCheckpoint => Sys2Proof.Machine.execSessionCheckpoint s
  | .boundaryTick => Sys2Proof.Machine.execBoundaryTick s
  | .timeInvalid reason => Sys2Proof.Machine.execTimeInvalid reason s
  | .cairnEntryWrite => Sys2Proof.Machine.execCairnEntryWrite s
  | .nfPing n a phi => Sys2Proof.Machine.execNfPing n a phi s
  | .nfBaseline n l => Sys2Proof.Machine.execNfBaseline n l s
  | .cardResponse n ans pos lm => Sys2Proof.Machine.execCardResponse n ans pos lm s
  | .fieldDetect n => Sys2Proof.Machine.execFieldDetect n s
  | .fieldEnd n => Sys2Proof.Machine.execFieldEnd n s
  | .emulationFrame n f => Sys2Proof.Machine.execEmulationFrame n f s
  | .maintEnvelope n env => Sys2Proof.Machine.execMaintEnvelope n env s
  | .maintSessionTimeout n => Sys2Proof.Machine.execMaintSessionTimeout n s
  | .zcEdge k stamp noise => Sys2Proof.Machine.execZcEdge k stamp noise s
  | .plFrameRx rxA rxB rxC mid ago => Sys2Proof.Machine.execPlFrameRx rxA rxB rxC mid ago s
  | .plFrameTx off => Sys2Proof.Machine.execPlFrameTx off s
  | .plAckTimeout => Sys2Proof.Machine.execPlAckTimeout s
  | .wakePreamble rx mid => Sys2Proof.Machine.execWakePreamble rx mid s
  | .quarryJob => Sys2Proof.Machine.execQuarryJob s
  | .nandOpComplete chan op outcome => Sys2Proof.Machine.execNandOpComplete chan op outcome s
  | .journalCheckpoint => Sys2Proof.Machine.execJournalCheckpoint s
  | .ledgerReclaim => Sys2Proof.Machine.execLedgerReclaim s
  | .staticMove => Sys2Proof.Machine.execStaticMove s
  | .scrub => Sys2Proof.Machine.execScrub s
  | .sessionSweep => Sys2Proof.Machine.execSessionSweep s
  | .remask bad kcvBad => Sys2Proof.Machine.execRemask bad kcvBad s
  | .rngHealthFail continuous => Sys2Proof.Machine.execRngHealthFail continuous s
  | .meshBreak reading => Sys2Proof.Machine.execMeshBreak reading s
  | .coverOpen => Sys2Proof.Machine.execCoverOpen s
  | .coverClosed => Sys2Proof.Machine.execCoverClosed s
  | .tamperCairnEntry => Sys2Proof.Machine.execTamperCairnEntry s
  | .magEventStart => Sys2Proof.Machine.execMagEventStart s
  | .magEventEnd => Sys2Proof.Machine.execMagEventEnd s
  | .evrecWrite => Sys2Proof.Machine.execEvrecWrite s
  | .evrecSpill => Sys2Proof.Machine.execEvrecSpill s
  | .lsLatch c cause ma => Sys2Proof.Machine.execLsLatch c cause ma s
  | .globalFoldback ma => Sys2Proof.Machine.execGlobalFoldback ma s
  | .foldbackEnd sum => Sys2Proof.Machine.execFoldbackEnd sum s
  | .inrushWindowEnd c => Sys2Proof.Machine.execInrushWindowEnd c s
  | .lsPeriodStart c => Sys2Proof.Machine.execLsPeriodStart c s
  | .openLoadCheck c above => Sys2Proof.Machine.execOpenLoadCheck c above s
  | .vauxDip mv => Sys2Proof.Machine.execVauxDip mv s
  | .holdDownEnd mv => Sys2Proof.Machine.execHoldDownEnd mv s
  | .lsResume => Sys2Proof.Machine.execLsResume s
  | .lsStartupTest c pass => Sys2Proof.Machine.execLsStartupTest c pass s
  | .frameStart upset => Sys2Proof.Machine.execFrameStart upset s
  | .pdischRelease => Sys2Proof.Machine.execPdischRelease s
  | .displaySwitchOn => Sys2Proof.Machine.execDisplaySwitchOn s
  | .standbyEntry => Sys2Proof.Machine.execStandbyEntry s
  | .standbyWake => Sys2Proof.Machine.execStandbyWake s
  | .idleEntry => Sys2Proof.Machine.execIdleEntry s
  | .idleExit => Sys2Proof.Machine.execIdleExit s
  | .offHoldEntry => Sys2Proof.Machine.execOffHoldEntry s
  | .offHoldRelease => Sys2Proof.Machine.execOffHoldRelease s
  | .oppChange => Sys2Proof.Machine.execOppChange s
  | .fenceLiftAuto dom idx => Sys2Proof.Machine.execFenceLiftAuto dom idx s
  | .availYearRestart => Sys2Proof.Machine.execAvailYearRestart s
  | .sramEccError bank row double image ch => Sys2Proof.Machine.execSramEccError bank row double image ch s
  | .nandOpTimeout chan chip => Sys2Proof.Machine.execNandOpTimeout chan chip s
  | .relockFailed k => Sys2Proof.Machine.execRelockFailed k s
  | .zcLockLost k => Sys2Proof.Machine.execZcLockLost k s
  | .cardFrameWaitExpiry n => Sys2Proof.Machine.execCardFrameWaitExpiry n s
  | .profileWriteExpiry => Sys2Proof.Machine.execProfileWriteExpiry s
  | .mbxPendingTimeout => Sys2Proof.Machine.execMbxPendingTimeout s
  | .rtcOscillatorRestart => Sys2Proof.Machine.execRtcOscillatorRestart s
  | .hcsNEarlyRise => Sys2Proof.Machine.execHcsNEarlyRise s

end Sys2Proof.Machine
end

