-- ==== Sys2Proof/Safety.lean ====
section
/-!
DEFINITION. The terms that claims use: a command that completes, what it may change, a request that is served, and the
invariant of the machine.
-/

namespace Sys2Proof.Machine

/-- A command completes: exec answers a next state, of which P holds. -/
def Runs (c : Instr) (s : State) (P : State → Prop) : Prop := ∃ t, exec c s = .next t ∧ P t

/-- The parts of the state that a frame names. The buffers of the host link and the frame memory of the display stand
apart from the rest of their units. -/
inductive Part where
  | clk | boot | otp | link | hostMem | tabs | ev | cairn | sealIn | meter | cal | eg | ports | lintel | safety | rtc | tar | nf
  | fences | ls | vault | rind | qr | upd | pl | disp | frameMem | pw | draws | pending
deriving DecidableEq, Repr

/-- A part is the same in two states. -/
def Part.same (s t : State) : Part → Prop
  | .clk => t.clk = s.clk
  | .boot => t.boot = s.boot
  | .otp => t.otp = s.otp
  | .link => { t.link with mem := [] } = { s.link with mem := [] }
  | .hostMem => t.link.mem = s.link.mem
  | .tabs => t.tabs = s.tabs
  | .ev => t.ev = s.ev
  | .cairn => t.cairn = s.cairn
  | .sealIn => t.sealIn = s.sealIn
  | .meter => t.meter = s.meter
  | .cal => t.cal = s.cal
  | .eg => t.eg = s.eg
  | .ports => t.ports = s.ports
  | .lintel => t.lintel = s.lintel
  | .safety => t.safety = s.safety
  | .rtc => t.rtc = s.rtc
  | .tar => t.tar = s.tar
  | .nf => t.nf = s.nf
  | .fences => t.fences = s.fences
  | .ls => t.ls = s.ls
  | .vault => t.vault = s.vault
  | .rind => t.rind = s.rind
  | .qr => t.qr = s.qr
  | .upd => t.upd = s.upd
  | .pl => t.pl = s.pl
  | .disp => { t.disp with mem := [] } = { s.disp with mem := [] }
  | .frameMem => t.disp.mem = s.disp.mem
  | .pw => t.pw = s.pw
  | .draws => t.draws = s.draws
  | .pending => t.pending = s.pending

/-- Nothing but the parts listed differs. -/
def Only (l : List Part) (s t : State) : Prop := ∀ f, f ∉ l → Part.same s t f

/-- No port but p differs. -/
def OnlyPort (p : Nat) (s t : State) : Prop := ∀ q, q ≠ p → getPort t q = getPort s q

/-- Nothing but the parts listed differs, and of the ports none but p. -/
def OnPort (p : Nat) (l : List Part) (s t : State) : Prop := Only l s t ∧ OnlyPort p s t

/-- AP takes the request of channel c now, and it passes the checks of Table HL-16 as a request of the command with
opcode op: header, channel, opcode, the card's channels and the length (04 R116, R117). -/
abbrev Asked (s : State) (c op : Nat) (lenOk : Nat → Bool) : Prop :=
  canServe s c = true ∧ headerFault s c = none ∧ reqOp s c = op ∧
    ((opcodes.find? fun e => e.1 == op).any fun e => e.2.testBit c) = true ∧ lenOk (reqLen s c) = true

/-- A command answers the request of channel c with a status and a payload of n bytes, and changes nothing but the
response: the state of the channel, MBX_RESP and the buffer (04 R115). -/
def Answers (i : Instr) (s : State) (c status n : Nat) : Prop :=
  ∃ pl, pl.length = n ∧ exec i s = .next (answer c status pl s)

/-- A command answers the request of channel c with a status, a payload of n bytes of which B holds, and the effect that
takes s to u, of which P holds. -/
def AnswersWith (i : Instr) (s : State) (c status n : Nat) (B : List Byte → Prop) (P : State → Prop) : Prop :=
  ∃ pl u, pl.length = n ∧ B pl ∧ P u ∧ exec i s = .next (answer c status pl u)

/-- A command takes the request of channel c, whose response stays outstanding, with the effect that takes s to u, of which
P holds. -/
def Holds (i : Instr) (s : State) (c : Nat) (P : State → Prop) : Prop :=
  ∃ u, P u ∧ exec i s = .next (setChan c .inService u)

/-- Field of a request payload. -/
def asks (s : State) (c off len : Nat) : Nat := fld (reqPayload s c) off len

/-- The Cairn entry that a unit queues now, behind the token of the state (15 R366, R367). -/
def entryQ (s : State) (writer code subject : Nat) (data : List Byte) : CairnJob :=
  ⟨⟨0, 0, now s, code, writer, subject, padTo 24 data, []⟩, s.cairn.next, false⟩

/-- What every step keeps: the buffers are in canonical form, and no floor counter exceeds its 64 fuses (03 R87). -/
abbrev Inv (s : State) : Prop :=
  memWf s.link.mem = true ∧ memWf s.disp.mem = true ∧ ∀ f ∈ s.otp.floors, f ≤ 64

end Sys2Proof.Machine
end

