-- ==== Sys2Proof/Certificates/Slice0/Obligations.lean ====
section
/-!
DEFINITION. The statements for the provers. Each says which rules of the spec it comes from; a clause that rests on a
choice of the model names its log entry. Every clause about a command says that the command completes, what the next
state holds, and what it leaves unchanged.
-/

open Sys2Proof Sys2Proof.Machine

/-! The block as a whole. -/

/-- A step takes the command at the front of the queue and runs it with the rest; an empty queue idles (log 33). -/
def Obligations.StepRunsFront : Prop :=
  (∀ (s : State) (c : Instr) (q : List Instr), step { s with pending := c :: q } = exec c { s with pending := q }) ∧
  ∀ s : State, s.pending = [] → step s = .next s

/-- Every command of the table completes in every state: exec answers a next state, never a fault or a refusal, and no
command touches the queue of commands (the model's own queue). -/
def Obligations.QueueUntouched : Prop :=
  ∀ (c : Instr) (s : State), Runs c s fun t => t.pending = s.pending

/-- The state after reset meets the invariant. -/
def Obligations.ResetInv : Prop := Inv State.reset

/-- Every step keeps the invariant: the buffers of the link and of the display stay in canonical form, and no floor
counter exceeds its 64 fuses (03 R87). -/
def Obligations.StepKeepsInv : Prop :=
  ∀ s t : State, Inv s → step s = .next t → Inv t

/-- Fuses only blow: no command lowers a floor counter, and none changes identity, secret, key hashes or revocations. -/
def Obligations.FusesOnlyBlow : Prop :=
  ∀ (c : Instr) (s t : State), exec c s = .next t →
    t.otp.devId = s.otp.devId ∧ t.otp.secret = s.otp.secret ∧ t.otp.keyHash = s.otp.keyHash ∧
    t.otp.revoked = s.otp.revoked ∧ t.otp.floors.length = s.otp.floors.length ∧
    ∀ i, nth s.otp.floors i 0 ≤ nth t.otp.floors i 0

/-- After reset: PHASE RESET, every image EMPTY, READY_MAP 0, tick 0, the channels IDLE, IRQ_ENABLE 0x3F, nothing waiting.
-/
def Obligations.ResetState : Prop :=
  let s := State.reset
  s.boot.phase = .reset ∧ (∀ g ∈ s.boot.imgs, g.st = .empty) ∧ s.boot.imgs.length = 5 ∧ s.boot.ready = 0 ∧
  s.clk.tick = 0 ∧ s.clk.opp = 1 ∧ s.clk.busRun = false ∧ s.link.irqEn = 0x3F ∧ s.link.irq = 0 ∧ s.link.hlStatus = 0 ∧
  s.link.chans.length = 8 ∧ (∀ k ∈ s.link.chans, k.st = .idle) ∧ s.link.mem = [] ∧ s.boot.free0 = true ∧
  s.boot.free1 = true ∧ s.boot.queue = [] ∧ s.pending = [] ∧ s.ports.length = 24 ∧
  ∀ q ∈ s.ports, q.ct.chs = false ∧ q.ct.cls = false

/-! The host link (04). -/

/-- A frame as received (04 R103 to R108): a CRC mismatch is answered 0x5A and counted; a frame that breaks R105 or meets a
buffer that takes no write is answered 0x33 and counted, and the firewall counts one into a buffer that is not the host's
(01 R20; the code of the writing unit is free, log 124); an accepted write into a buffer is staged and answered 0xA5, or
held with 0xF0 while its domain stands still; a read is answered 0xA5 with its words and their CRC, or held with 0xF0.
Nothing else changes. -/
def Obligations.WriteFrameAnswers : Prop :=
  ∀ (s : State) (addr len : Nat) (data : List Byte) (crc : Nat), hcRun s = true → data.length = len →
    let sum := crc16 ([byteOf 0xC3] ++ be 3 addr ++ be 2 len ++ data)
    (crc ≠ sum → Runs (.hostWriteFrame 0xC3 addr len data crc) s fun t =>
      t.link.ack = 0x5A ∧ t.link.crcErrs = min (s.link.crcErrs + 1) 0xFFFF ∧ t.link.hlStatus.getLsbD 9 = true ∧
      t.link.irq.getLsbD 11 = true ∧ t.link.staged = s.link.staged ∧ Only [.link] s t) ∧
    (crc = sum → frameOk addr len 1024 = false → Runs (.hostWriteFrame 0xC3 addr len data crc) s fun t =>
      t.link.ack = 0x33 ∧ t.link.refused = min (s.link.refused + 1) 0xFFFF ∧ t.link.hlStatus.getLsbD 8 = true ∧
      t.link.hlStatus.getLsbD 10 = true ∧ t.link.irq.getLsbD 11 = true ∧ t.link.staged = s.link.staged ∧ Only [.link] s t) ∧
    (crc = sum → frameOk addr len 1024 = true → regionOf addr = 2 ∨ (regionOf addr = 3 ∧ addr < 0x1C000) →
      writable s addr = false → Runs (.hostWriteFrame 0xC3 addr len data crc) s fun t =>
        t.link.ack = 0x33 ∧ t.link.refused = min (s.link.refused + 1) 0xFFFF ∧ t.link.hlStatus.getLsbD 10 = true ∧
        t.link.irq.getLsbD 11 = true ∧ t.link.staged = s.link.staged ∧ Only [.link] s t) ∧
    (crc = sum → frameOk addr len 1024 = true → regionOf addr = 4 ∨ (regionOf addr = 3 ∧ 0x1C000 ≤ addr) →
      Runs (.hostWriteFrame 0xC3 addr len data crc) s fun t =>
        t.link.ack = 0x33 ∧ t.link.refused = min (s.link.refused + 1) 0xFFFF ∧ t.link.hlStatus.getLsbD 10 = true ∧
        t.link.irq.getLsbD 11 = true ∧ t.link.staged = s.link.staged ∧
        (∃ u : Byte, t.ev.queue = s.ev.queue ++ [⟨0, 0x0001, 5, 0xFF, padTo 16 ([u, 11, 0, 0] ++ le 4 addr)⟩]) ∧
        Only [.link, .ev] s t) ∧
    (crc = sum → frameOk addr len 1024 = true → regionOf addr ≠ 1 → writable s addr = true → s.clk.busRun = true →
      s.link.staged = none → s.link.waits = [] →
      Runs (.hostWriteFrame 0xC3 addr len data crc) s fun t =>
        t.link.ack = 0xA5 ∧ t.link.staged = some (addr, data) ∧ t.link.hlStatus = s.link.hlStatus ∧ Only [.link] s t) ∧
    (crc = sum → frameOk addr len 1024 = true → regionOf addr ≠ 1 → writable s addr = true → s.clk.busRun = false →
      Runs (.hostWriteFrame 0xC3 addr len data crc) s fun t =>
        t.link.ack = 0xF0 ∧ t.link.waits = s.link.waits ++ [⟨true, some (addr, data), (0, 0), false⟩] ∧
        t.link.staged = s.link.staged ∧ Only [.link] s t) ∧
    (frameOk addr len 6144 = true → rtcFrame addr len = false → regionOf addr = 1 ∨
      (s.clk.busRun = true ∧ s.link.staged = none ∧ s.link.waits = []) →
      Runs (.hostWriteFrame 0x3C addr len data crc) s fun t =>
        t.link.rstat = 0xA5 ∧ t.link.rdata = hostBytes s addr (len / 4) ∧
        t.link.rcrc = crc16 ([byteOf 0x3C] ++ be 3 addr ++ be 2 len ++ hostBytes s addr (len / 4)) ∧ Only [.link] s t) ∧
    (frameOk addr len 6144 = true → regionOf addr ≠ 1 → s.clk.busRun = false →
      Runs (.hostWriteFrame 0x3C addr len data crc) s fun t =>
        t.link.rstat = 0xF0 ∧ t.link.waits = s.link.waits ++ [⟨true, none, (addr, len), false⟩] ∧ Only [.link] s t)

/-- The staged write is committed to its buffer while the bus domain runs (04 R106): every byte of the buffer outside it
reads as before. -/
def Obligations.StagedWriteCommits : Prop :=
  ∀ (s : State) (a : Nat) (d : List Byte), memWf s.link.mem = true → s.link.staged = some (a, d) →
    s.clk.busRun = true → hcRun s = true → 0x10000 ≤ a →
    Runs .stagedWriteCommit s fun t =>
      t.link.staged = none ∧ memReadBytes t.link.mem a d.length = d ∧
      (∀ b, b < a ∨ a + d.length ≤ b → memRead t.link.mem b = memRead s.link.mem b) ∧ Only [.link, .hostMem] s t

/-- Doorbells, releases and delivery (04 R115, R120): a doorbell on an IDLE channel makes it PENDING, any other sets
DB_IGNORED; a release frees the buffer; the oldest notification is delivered on the notification channel. -/
def Obligations.ChannelProtocol : Prop :=
  (∀ (s : State) (c : Nat), c < 6 → hcRun s = true → c < s.link.chans.length →
    (chan s c).st = .idle → Runs (.doorbell c) s fun t =>
      (chan t c).st = .pending ∧ (chan t c).since = now s ∧ (∀ d, d ≠ c → chan t d = chan s d) ∧ Only [.link] s t) ∧
  (∀ (s : State) (c : Nat), c < 6 → hcRun s = true → (chan s c).st ≠ .idle → Runs (.doorbell c) s fun t =>
      t.link.chans = s.link.chans ∧ t.link.hlStatus.getLsbD 11 = true ∧ t.link.irq.getLsbD 11 = true ∧ Only [.link] s t) ∧
  (∀ (s : State) (c : Nat), c < 6 → c < s.link.chans.length → s.link.irq.getLsbD c = true → (chan s c).st = .respReady →
    s.link.noteCh ≠ c → hcRun s = true → s.link.routes = [] → Runs (.responseRelease c) s fun t =>
      t.link.irq.getLsbD c = false ∧ (chan t c).st = .idle ∧ (∀ d, d ≠ c → chan t d = chan s d) ∧ Only [.link] s t) ∧
  (∀ (s : State) (n : Note) (ns : List Note), memWf s.link.mem = true → s.link.notes = n :: ns → s.link.noteCh < 6 →
    (chan s s.link.noteCh).st = .notifyOnly → s.link.irq.getLsbD s.link.noteCh = false → apServing s = true → hcRun s = true →
    Runs .notificationDeliver s fun t =>
      t.link.notes = ns ∧ t.link.lost = false ∧ t.link.irq.getLsbD s.link.noteCh = true ∧
      memReadBytes t.link.mem (respBase s.link.noteCh) (16 + n.payload.length) =
        message s.link.noteCh (1 + 2 * b2n s.link.lost) 0 n.op (n.op / 256 * 256) n.payload ∧ Only [.link, .hostMem] s t)

/-- Registers (04 Tables HL-8 to HL-10, HL-13, 02 Table TK-7, 03 Table PU-7): W1C bits clear where 1 is written, RW fields
take the value but for reserved bits, and a write to any other address has no effect. Outside its condition an event row changes nothing (log
1). -/
def Obligations.RegisterWrites : Prop :=
  ∀ (s : State) (v : Nat), hcRun s = true → v < 2 ^ 32 →
    (Runs (.registerWrite 0x20 v) s fun t => (∀ i, t.link.irqEn.getLsbD i = (v.testBit i && (0x1F3F : Nat).testBit i)) ∧ Only [.link] s t) ∧
    (Runs (.registerWrite 0x1C v) s fun t =>
      (∀ i, t.link.irq.getLsbD i = (s.link.irq.getLsbD i && !(v.testBit i && (0x1F00 : Nat).testBit i))) ∧ Only [.link] s t) ∧
    (Runs (.registerWrite 0x0C v) s fun t =>
      (∀ i, t.link.hlStatus.getLsbD i = (s.link.hlStatus.getLsbD i && !(v.testBit i && (0x8F00 : Nat).testBit i))) ∧ Only [.link] s t) ∧
    (Runs (.registerWrite 0x2C v) s fun t =>
      t.link.crcErrs = (if v % 65536 = 0 then 0 else s.link.crcErrs) ∧
      t.link.refused = (if v / 65536 = 0 then 0 else s.link.refused) ∧ Only [.link] s t) ∧
    (Runs (.registerWrite 0x18 v) s fun t =>
      t.clk = { s.clk with
        rtcStopSeen := s.clk.rtcStopSeen && !v.testBit 16, relockSeen := s.clk.relockSeen && !v.testBit 17
        mortarOvr := s.clk.mortarOvr && !v.testBit 18 } ∧ Only [.clk] s t) ∧
    (windowReach s = true →
      Runs (.registerWrite 0x1008 v) s fun t => t.boot.chunk = BitVec.ofNat 32 (v % 2 ^ 18) ∧ Only [.boot] s t) ∧
    (windowReach s = true →
      Runs (.registerWrite 0x100C v) s fun t => t.boot.seq = BitVec.ofNat 32 v ∧ Only [.boot] s t) ∧
    ∀ a, a ∉ [0x0C, 0x18, 0x1C, 0x20, 0x2C, 0x1008, 0x100C] → exec (.registerWrite a v) s = .next s

/-- Accesses into stopped domains (02 R66, R70, 04 R108, R109, Table HL-19): a read of RTC_TIME answers both words from one
capture, or waits with 0xF0 while its oscillator is stopped; an abandoned access stays pending, a write with FRAME_ERR, and
it completes when the clock returns (log 128). -/
def Obligations.StoppedDomains : Prop :=
  (∀ s : State, hcRun s = true → s.clk.rtcOsc = true → s.link.waits = [] → Runs .rtcTimeRead s fun t =>
    let w := s.rtc.sec * 65536 + b2n s.rtc.valid * 32768 + s.rtc.sub
    t.link.rtcReply = le 8 w ∧ t.link.rstat = 0xA5 ∧ t.link.rdata = le 4 (w % 2 ^ 32) ++ le 4 (w / 2 ^ 32) ∧
    t.link.waits = [] ∧ Only [.link] s t) ∧
  (∀ s : State, hcRun s = true → s.clk.rtcOsc = false → Runs .rtcTimeRead s fun t =>
    t.link.waits = s.link.waits ++ [⟨false, none, (0x30, 8), false⟩] ∧ t.link.rstat = 0xF0 ∧
    t.link.rtcReply = s.link.rtcReply ∧ Only [.link] s t) ∧
  (∀ (s : State) (bus : Bool) (w : Option (Nat × List Byte)) (r : Nat × Nat), s.link.waits = [⟨bus, w, r, false⟩] →
    Runs (.frameAbandoned bus) s fun t =>
      t.link.waits = [⟨bus, w, r, true⟩] ∧ t.link.hlStatus.getLsbD 15 = true ∧
      t.link.hlStatus.getLsbD 8 = (w.isSome || s.link.hlStatus.getLsbD 8) ∧
      t.link.hlStatus.getLsbD 13 = bus ∧ t.link.hlStatus.getLsbD 14 = !bus ∧ t.link.irq.getLsbD 11 = true ∧ Only [.link] s t) ∧
  (∀ (s : State) (r : Nat × Nat), s.link.waits = [⟨false, none, r, true⟩] → hcRun s = true → s.clk.rtcOsc = true →
    Runs (.pendingAccessComplete false) s fun t => t.link = { s.link with waits := [] } ∧ Only [.link] s t) ∧
  (∀ (s : State) (a : Nat) (d : List Byte) (r : Nat × Nat) (gone : Bool), s.link.waits = [⟨true, some (a, d), r, gone⟩] →
    hcRun s = true → s.clk.busRun = true → s.link.staged = none → writable s a = true →
    Runs (.pendingAccessComplete true) s fun t =>
      t.link.waits = [] ∧ t.link.staged = some (a, d) ∧ t.link.ack = (if gone then s.link.ack else 0xA5) ∧
      Only [.link] s t) ∧
  ∀ s : State, hcRun s = true → Runs .hcsNEarlyRise s fun t =>
    t.link.hlStatus.getLsbD 8 = true ∧ t.link.irq.getLsbD 11 = true ∧ t.link.staged = s.link.staged ∧ Only [.link] s t

/-- The requests of channel c with the opcode, the channels (a bit each) and the lengths of their command cards (27 Table
IX-1). -/
def requestRows (c : Nat) (pass : Bool) (blown : Nat) : List (Instr × Nat × Nat × (Nat → Bool)) :=
  [(.tableLoad c, 0x0010, 0xFF, fun k => decide (20 ≤ k)), (.tableInfo c, 0x0011, 0xFF, len 4),
   (.linkEcho c, 0x0101, 0xFF, fun k => decide (k ≤ 2032)), (.notifyRoute c, 0x0102, 0x3F, len 8),
   (.bootInfo c, 0x0201, 0xFF, len 0), (.frontEndStatus c, 0x0301, 0xFF, len 0), (.pathHold c, 0x0302, 0xFF, len 8),
   (.readPort c, 0x0303, 0xFF, len 4), (.readGroup c, 0x0304, 0xFF, len 4), (.readHarmonics c, 0x0305, 0xFF, len 4),
   (.pulseSelect c, 0x0306, 0xFF, len 4), (.energyRead c, 0x0307, 0xFF, len 8), (.calRead c, 0x0401, 0xFF, len 4),
   (.calStage c, 0x0402, 0xFF, len 32), (.calCommit c, 0x0403, 0xFF, len 4), (.calDiscard c, 0x0404, 0xFF, len 4),
   (.calPulse c, 0x0405, 0xFF, len 4), (.portStatus c, 0x0501, 0xFF, len 4), (.cpMode c, 0x0502, 0xFF, len 4),
   (.portAvail c, 0x0503, 0xFF, len 4), (.portLock c, 0x0504, 0xFF, len 4), (.cpWake c, 0x0505, 0xFF, len 4),
   (.lintelStatus c, 0x0601, 0xFF, len 0), (.lintelSet c, 0x0602, 0xFF, len 4)] ++
  [(.rcStatus c, 0x0701, 0xFF, len 4), (.rcClear c, 0x0702, 0xFF, len 4), (.safeStop c, 0x0801, 0xFF, len 8),
   (.safetyStatus c, 0x0802, 0xFF, len 0), (.tariffStatus c, 0x0901, 0xFF, len 0),
   (.demandRead c, 0x0902, 0xFF, len 4), (.billingRead c, 0x0903, 0xFF, len 8), (.timeSet c, 0x0904, 0xFF, len 36),
   (.tariffActivate c, 0x0905, 0xFF, len 4), (.accountRead c, 0x0A01, 0xFF, len 4),
   (.accountSet c, 0x0A02, 0xFF, len 64), (.tokenApply c, 0x0A03, 0xFF, len 32),
   (.sessionStart c, 0x0A04, 0xFF, len 8), (.sessionEnd c, 0x0A05, 0xFF, len 4),
   (.sessionStatus c, 0x0A06, 0xFF, len 4), (.cairnRead c, 0x0B01, 0xFF, len 12),
   (.cairnStatus c, 0x0B02, 0xFF, len 0), (.nfStatus c, 0x0C01, 0xFF, len 0), (.cardDataStage c, 0x0C02, 0xFF, len 40),
   (.plStatus c, 0x0D01, 0xFF, len 0), (.plSend c, 0x0D02, 0x3F, fun k => decide (4 ≤ k ∧ k ≤ 259)),
   (.quarryStatus c, 0x0E01, 0xFF, len 0), (.profileRead c, 0x0E02, 0xFF, len 12),
   (.sessionLogRead c, 0x0E03, 0xFF, len 8)] ++
  [(.keyUpdate c, 0x0F01, 0xFF, len 80), (.drupeStatus c, 0x0F02, 0xFF, len 0), (.rindStatus c, 0x0F03, 0xFF, len 0),
   (.updateStage c, 0x1001, 0x3F, len 324), (.updateData c, 0x1002, 0x3F, fun k => decide (8 ≤ k ∧ k ≤ 2008)),
   (.updateActivate c, 0x1003, 0x3F, len 4), (.updateCommit c blown, 0x1004, 0x3F, len 4),
   (.updateAbort c, 0x1005, 0x3F, len 4), (.updateStatus c, 0x1006, 0xFF, len 0), (.evrecRead c, 0x1101, 0xFF, len 12),
   (.evrecClear c, 0x1102, 0xFF, len 8), (.evrecStatus c, 0x1103, 0xFF, len 0), (.lsSet c, 0x1201, 0xFF, len 4),
   (.lsStatus c, 0x1202, 0xFF, len 0), (.lsClear c, 0x1203, 0xFF, len 4), (.lsSenseSelect c, 0x1204, 0xFF, len 4),
   (.dispStatus c, 0x1301, 0xFF, len 0), (.dispControl c, 0x1302, 0xFF, len 4),
   (.dispWrite c, 0x1303, 0xFF, fun k => decide (9 ≤ k ∧ k ≤ 2008)), (.psEnter c, 0x1401, 0x3F, len 20),
   (.psStatus c, 0x1402, 0xFF, len 0), (.fenceRequest c, 0x1501, 0x3F, len 4),
   (.fenceLift c pass, 0x1502, 0x3F, len 4), (.sparesStatus c, 0x1503, 0xFF, len 0)] ++
  [(.availRead c, 0x1504, 0xFF, len 4)]

/-- The checks of Table HL-16 in their order (04 R116): at the first that fails every request command answers with the
received TAG and OPCODE, LENGTH 0 and the status of the table, and does nothing else. -/
def Obligations.RequestChecks : Prop :=
  ∀ (s : State) (c : Nat) (pass : Bool) (blown : Nat), canServe s c = true →
    let rows := requestRows c pass blown
    let crcOk := crc16 (memReadBytes s.link.mem (reqBase c) 14) = reqField s c 14 2
    let chanOk := reqField s c 0 1 = c
    let tagOk := reqTag s c ≠ 0 ∧ reqField s c 1 1 = 0
    let lenOk := reqLen s c ≤ 2032
    let opOk := ∃ r ∈ rows, r.2.1 = reqOp s c
    (¬crcOk → ∀ r ∈ rows, exec r.1 s = .next (answer c 0x0101 [] s)) ∧
    (crcOk → ¬chanOk → ∀ r ∈ rows, exec r.1 s = .next (answer c 0x0105 [] s)) ∧
    (crcOk → chanOk → ¬tagOk → ∀ r ∈ rows, exec r.1 s = .next (answer c 0x0106 [] s)) ∧
    (crcOk → chanOk → tagOk → ¬lenOk → ∀ r ∈ rows, exec r.1 s = .next (answer c 0x0104 [] s)) ∧
    (crcOk → chanOk → tagOk → lenOk → ¬opOk → ∀ r ∈ rows, exec r.1 s = .next (answer c 0x0102 [] s)) ∧
    (crcOk → chanOk → tagOk → lenOk → ∀ r ∈ rows, r.2.1 = reqOp s c → r.2.2.1.testBit c = false →
      exec r.1 s = .next (answer c 0x0103 [] s)) ∧
    (crcOk → chanOk → tagOk → lenOk → ∀ r ∈ rows, r.2.1 = reqOp s c → r.2.2.1.testBit c = true →
      r.2.2.2 (reqLen s c) = false → exec r.1 s = .next (answer c 0x0104 [] s)) ∧
    (memWf s.link.mem = true → c < s.link.chans.length → ∀ st : Nat,
      memReadBytes (answer c st [] s).link.mem (respBase c) 16 = message c 0 (reqTag s c) (reqOp s c) st [] ∧
      Only [.link, .hostMem] s (answer c st [] s))

/-- What a response is (04 R114, R115): the message stands in the response buffer, the channel is RESP_READY, MBX_RESP of
channels 0 to 5 sets, and nothing else changes. -/
def Obligations.ResponseDelivered : Prop :=
  ∀ (s : State) (c status : Nat) (pl : List Byte), memWf s.link.mem = true → c < s.link.chans.length →
    pl.length ≤ 6128 →
    let t := answer c status pl s
    (chan t c).st = .respReady ∧ (c < 6 → t.link.irq.getLsbD c = true) ∧
    memReadBytes t.link.mem (respBase c) (16 + pl.length) = message c 0 (reqTag s c) (reqOp s c) status pl ∧
    (∀ d, d ≠ c → chan t d = chan s d) ∧
    (∀ b, b < respBase c ∨ respBase c + 16 + pl.length ≤ b → memRead t.link.mem b = memRead s.link.mem b) ∧
    Only [.link, .hostMem] s t

/-- Link commands (04 Tables HL-23, HL-24, 03 Table PU-20): LINK_ECHO returns the payload, NOTIFY_ROUTE the old route and
holds the new one of that channel until its response is released, BOOT_INFO 284 bytes. -/
def Obligations.LinkCommands : Prop :=
  (∀ (s : State) (c : Nat), Asked s c 0x0101 (fun k => k ≤ 2032) →
    exec (.linkEcho c) s = .next (answer c 0x0100 (reqPayload s c) s)) ∧
  (∀ (s : State) (c : Nat), Asked s c 0x0102 (len 8) → (1 ≤ asks s c 0 1 ∧ asks s c 0 1 ≤ 5) ∨ asks s c 0 1 = 0xFF →
    AnswersWith (.notifyRoute c) s c 0x0100 8 (fun pl => fld pl 0 1 = s.link.noteCh % 256)
      fun u => u = { s with link := { s.link with
        routes := (s.link.routes.filter fun r => r.1 != c) ++ [(c, asks s c 0 1, asks s c 4 4)] } }) ∧
  ∀ (s : State) (c : Nat), Asked s c 0x0201 (len 0) →
    Answers (.bootInfo c) s c 0x0200 284

/-! Clocks, tick, watchdog (02). -/

/-- Loss and return of a source (02 R48, R49, R69, R71, Table TK-1): the entry CLOCK_EVENT is offered to the event recorder
and the run bits follow: RTC_RUN clears with RTC_STOP_SEEN once the monitor has seen the stop, BUS_RUN with PLLB, AP_CLK_RUN
with PLLA, after which AP warm restarts; a source that is not running is not lost again. PLLA and PLLN relock with
PLL_RELOCK_SEEN, outside STANDBY; the RTC oscillator restarts; the third failed relock of PLLN fences both front-ends, that
of PLLP the display. Outside its condition an event row changes nothing (log 1). -/
def Obligations.ClockLossAndReturn : Prop :=
  (∀ (s : State) (k : Clock), clockOn s.clk k = true → (k = .rtc → s.clk.rtcRun = true) → Runs (.clockLoss ⟨k, true⟩) s fun t =>
    clockOn t.clk k = false ∧ ⟨0, 0x0002, 5, 0xFF, padTo 16 [byteOf (clockCode k), 0]⟩ ∈ t.ev.queue ∧
    (k = .rtc → t.clk.rtcRun = false ∧ t.clk.rtcStopSeen = true ∧ t.link.irq.getLsbD 12 = true) ∧
    (k = .plla → t.clk.apRun = false ∧ t.boot = { s.boot with apDue := s.boot.apDue || imgActive s 1 }) ∧
    (k = .pllb → t.clk.busRun = false) ∧ (k = .pllp → t.clk.pixRun = false) ∧
    t.clk.tick = s.clk.tick ∧ t.clk.wdArmed = s.clk.wdArmed ∧ (k ≠ .plla → t.boot = s.boot) ∧
    (k ≠ .plln → t.nf = s.nf ∧ t.pw = s.pw) ∧ Only [.clk, .boot, .link, .ev, .nf, .pw] s t) ∧
  (∀ s : State, s.clk.rtcOsc = true → Runs (.clockLoss ⟨.rtc, false⟩) s fun t =>
    t.clk = { s.clk with rtcOsc := false } ∧ Only [.clk] s t) ∧
  (∀ (s : State) (k : Clock) (seen : Bool), k ≠ .rtc → clockOn s.clk k = false → exec (.clockLoss ⟨k, seen⟩) s = .next s) ∧
  (∀ s : State, s.clk.plla = false → s.clk.xref = true → s.boot.phase ≠ .reset → s.pw.mode ≠ 2 →
    Runs (.pllRelock .plla) s fun t =>
      t.clk = { s.clk with plla := true, apRun := (s.pw.mode == 0), relockSeen := true } ∧
      t.link.irq.getLsbD 12 = true ∧ Only [.clk, .link, .ev] s t) ∧
  (∀ s : State, s.clk.plln = false → s.clk.xref = true → s.boot.phase ≠ .reset → s.pw.mode ≠ 2 →
    Runs (.pllRelock .plln) s fun t =>
    t.clk = { s.clk with plln := true, nfRun := true, pllnFails := 0, relockSeen := true } ∧
    t.link.irq.getLsbD 12 = true ∧ Only [.clk, .link, .ev] s t) ∧
  (∀ s : State, s.clk.rtcRun = false → s.clk.rtcOsc = false → Runs .rtcOscillatorRestart s fun t =>
    t.clk = { s.clk with rtcOsc := true, rtcRun := true } ∧ t.link.irq.getLsbD 12 = true ∧ Only [.clk, .link] s t) ∧
  (∀ s : State, s.clk.pllp = false → s.clk.pllpFails < 2 → Runs (.relockFailed .pllp) s fun t =>
    t.clk = { s.clk with pllpFails := s.clk.pllpFails + 1 } ∧ Only [.clk] s t) ∧
  ∀ s : State, s.clk.plln = false → s.clk.pllnFails = 2 → Runs (.relockFailed .plln) s fun t =>
    fencedB t 4 0 = true ∧ fencedB t 4 1 = true ∧ rdy t rNF = false ∧ rdy t (rNF + 1) = false ∧
    t.clk = { s.clk with pllnFails := 3 } ∧ Only [.clk, .boot, .link, .tabs, .ev, .ports, .fences, .pw] s t

/-- One tick (02 R54, R55, 15 R362): the counter advances by one and SEAL_N is sampled; fuses, buffers of the display and
the queue of commands stay. Without XREF or PLLC the tick stands still; in reset all does but the tamper envelope (19 R459). -/
def Obligations.TickAdvances : Prop :=
  (∀ (s : State) (i : TickIn), s.boot.phase ≠ .reset → s.clk.xref = true → s.clk.pllc = true → setWaits s = false →
    Runs (.tick i) s fun t =>
      t.clk.tick = s.clk.tick + 1 ∧ t.sealIn.level = i.sealLow ∧
      t.sealIn.run = (if i.sealLow = s.sealIn.level then min 127 (s.sealIn.run + 1) else 1) ∧
      t.sealIn.open_ = s.sealIn.open_ ∧ Part.same s t .otp ∧ Part.same s t .pending ∧ Part.same s t .frameMem) ∧
  (∀ (s : State) (i : TickIn), s.boot.phase ≠ .reset → s.clk.xref = false ∨ s.clk.pllc = false →
    exec (.tick i) s = .next s) ∧
  ∀ (s : State) (i : TickIn), s.boot.phase = .reset → Runs (.tick i) s fun t =>
    t = { s with rind := rindHeld i s.rind }

/-! Reset, boot and the boot window (03). -/

/-- What a full reset leaves (03 R74 to R76, R78, 12 R310): PHASE RESET with the cause, every image EMPTY, READY_MAP 0,
every contactor switch open, the buffers cleared; OTP, RTC, fences' map, energy registers and the Cairn log stand. -/
def resetLeaves (cause : Nat) (s t : State) : Prop :=
  t.boot.phase = .reset ∧ t.boot.cause = cause ∧ (∀ g ∈ t.boot.imgs, g.st = .empty) ∧ t.boot.ready = 0 ∧
  (∀ q ∈ t.ports, q.ct.chs = false ∧ q.ct.cls = false ∧ q.hs.permit = false) ∧ t.ports.length = s.ports.length ∧
  t.link.mem = [] ∧ t.clk.tick = 0 ∧ t.otp = s.otp ∧ t.rtc = s.rtc ∧ t.fences.map = s.fences.map ∧
  t.eg.regs = s.eg.regs ∧ t.eg.slots = s.eg.slots ∧ t.cairn.ring = s.cairn.ring ∧ t.cairn.queue = [] ∧
  t.safety.recs = s.safety.recs ∧ t.pending = s.pending

/-- The events that reset the device and the recorded cause (03 R75, R76, 02 R50, 12 R289, 25 R539): of several causes the
lowest, but for a release from OFF-HOLD, which records 0x6 whatever happened while the device was held. -/
def Obligations.FullResets : Prop :=
  (∀ (s : State) (c : Nat) (torn : Bool), 1 ≤ c → c ≤ 8 → c ≠ 6 → s.boot.phase ≠ .reset →
    Runs (.fullReset [c] torn) s (resetLeaves c s)) ∧
  (∀ (s : State) (cs : List Nat) (c : Nat) (torn : Bool), c ∈ cs → 1 ≤ c → (∀ d ∈ cs, c ≤ d ∧ d ≤ 8 ∧ d ≠ 6) →
    s.boot.phase ≠ .reset → Runs (.fullReset cs torn) s (resetLeaves c s)) ∧
  (∀ s : State, s.clk.wdArmed = true → 2 ≤ s.clk.wdMissed → s.boot.phase ≠ .reset →
    Runs .watchdogExpiry s (resetLeaves 4 s)) ∧
  (∀ s : State, ksRun s = true → s.boot.phase ≠ .reset → Runs .lockstepDivergence s (resetLeaves 3 s)) ∧
  (∀ (s : State) (row ch : Nat), s.boot.phase ≠ .reset → Runs (.sramEccError 14 row true false ch) s (resetLeaves 8 s)) ∧
  (∀ (s : State) (cs : List Nat) (torn : Bool), s.pw.mode = 3 → s.boot.phase = .reset → s.boot.cause = 6 →
    Runs (.fullReset cs torn) s fun t => t.boot.cause = 6 ∧ t.pw = s.pw ∧ Only [.boot] s t) ∧
  ∀ s : State, s.pw.mode = 3 → Runs .offHoldRelease s fun t =>
    t.pw.mode = 0 ∧ t.boot.cause = 6 ∧ Only [.boot, .pw] s t

/-- SRAM errors that do not reset (25 R539, Table SP-1): a first corrected error is counted, a second of the same row
within 24 h takes a spare row. -/
def Obligations.SramCorrected : Prop :=
  (∀ (s : State) (bank row ch : Nat) (image : Bool), s.boot.phase ≠ .reset → bank < 16 → s.fences.rowErrs = [] →
    Runs (.sramEccError bank row false image ch) s fun t =>
      t.fences.corrected = min (s.fences.corrected + 1) 0xFFFFFFFF ∧ t.fences.rowErrs = [(bank, row, now s)] ∧
      t.fences.repair = s.fences.repair ∧ t.fences.rows = s.fences.rows ∧ Only [.fences] s t) ∧
  ∀ (s : State) (bank row ch n : Nat) (image : Bool), s.boot.phase ≠ .reset → bank < 16 →
    s.fences.rowErrs = [(bank, row, n)] → now s < n + 691200000 → (bank, row) ∉ s.fences.repair →
    nth s.fences.rows bank 0 ≠ 0 →
    Runs (.sramEccError bank row false image ch) s fun t =>
      (bank, row) ∈ t.fences.repair ∧ nth t.fences.rows bank 0 = nth s.fences.rows bank 0 - 1 ∧ Only [.fences] s t

/-- Boot phases (03 R80 to R82, R93): RESET_RELEASE starts SELFTEST with the tick at 0 and XREF running, a journal slot of
MRAM that no longer reads being no slot any more (08 R204, R207); the tests end in WINDOW_OPEN, in a wait for
BW_CTRL.RELEASE, or in HALTED with SELFTEST in LAST_STATUS. -/
def Obligations.BootPhases : Prop :=
  (∀ (s : State) (b : Bool) (lost : List MramCopy) (errs : List Nat), s.boot.phase = .reset → s.pw.mode ≠ 3 →
    Runs (.resetRelease ⟨b, false, lost⟩ errs) s fun t =>
    t.boot.phase = .selftest ∧ t.boot.bootsel = b ∧ t.clk.tick = 0 ∧ t.clk.xref = true ∧ t.clk.busRun = true ∧
    t.boot.cause = (if s.boot.cause = 0 then 1 else s.boot.cause) ∧
    (∀ k : Nat, nth t.eg.slots k none = if MramCopy.slot k ∈ lost then none else nth s.eg.slots k none) ∧
    Only [.clk, .boot, .link, .ev, .cairn, .ports, .rind, .vault, .cal, .eg, .safety] s t) ∧
  (∀ s : State, s.boot.phase = .selftest → s.sealIn.known = true → s.boot.testmode = false →
    s.boot.bootsel = false ∨ s.boot.released = true → Runs (.selftestDone false) s fun t =>
      t.boot = { s.boot with phase := .windowOpen, waiting := false } ∧ Only [.boot] s t) ∧
  (∀ s : State, s.boot.phase = .selftest → s.sealIn.known = true → s.boot.testmode = false → s.boot.bootsel = true →
    s.boot.released = false → Runs (.selftestDone false) s fun t =>
      t.boot = { s.boot with waiting := true } ∧ Only [.boot] s t) ∧
  (∀ s : State, s.boot.phase = .selftest → Runs (.selftestDone true) s fun t =>
    t.boot = { s.boot with phase := .halted, lastStatus := 0x0211 } ∧ Only [.boot] s t) ∧
  (∀ s : State, s.boot.phase = .selftest → windowReach s = true → s.boot.waiting = true → Runs .bwRelease s fun t =>
    t.boot = { s.boot with released := true, waiting := false, phase := .windowOpen } ∧ Only [.boot] s t) ∧
  ∀ (s : State) (c : Nat), windowReach s = true → (chunkOf s.boot).image = c + 1 → c < s.boot.imgs.length →
    (nth s.boot.imgs c {}).st ≠ .active ∨ s.boot.reopened = false → Runs .bwAbortImage s fun t =>
      nth t.boot.imgs c {} = {} ∧ (∀ d, d ≠ c → nth t.boot.imgs d {} = nth s.boot.imgs d {}) ∧ Only [.boot] s t

/-- The chunk protocol (03 R84 to R88, R99): GO on a FREE buffer queues the chunk and makes the buffer not FREE, on one
that is not FREE it is refused, as it is under HOLD, and outside the window it has no effect; an end chunk that is next
makes its image VERIFYING; base data are appended in order, and the buffer is FREE again with LAST_STATUS OK; an image whose
length or digest does not match at its end fails. -/
def Obligations.ChunkProtocol : Prop :=
  (∀ s : State, windowReach s = true → s.boot.hold = false →
    (if (chunkOf s.boot).buf then s.boot.free1 else s.boot.free0) = true → Runs .bwSubmit s fun t =>
      t.boot.queue = s.boot.queue ++ [chunkOf s.boot] ∧
      (if (chunkOf s.boot).buf then t.boot.free1 else t.boot.free0) = false ∧
      ((∀ k, t.boot.queue.head? = some k → k.kind ≠ 4) → t.boot.imgs = s.boot.imgs) ∧ Only [.boot] s t) ∧
  (∀ s : State, windowReach s = true → s.boot.hold = false → s.boot.queue = [] → (chunkOf s.boot).kind = 4 →
    (if (chunkOf s.boot).buf then s.boot.free1 else s.boot.free0) = true → 1 ≤ (chunkOf s.boot).image →
    (chunkOf s.boot).image ≤ 5 → s.boot.imgs.length = 5 → (getImg s (chunkOf s.boot).image).st = .loading →
    (chunkOf s.boot).seq = (getImg s (chunkOf s.boot).image).seq → Runs .bwSubmit s fun t =>
      (getImg t (chunkOf s.boot).image).st = .verifying ∧ t.boot.queue = [chunkOf s.boot] ∧ Only [.boot] s t) ∧
  (∀ s : State, windowReach s = true → s.boot.hold = false →
    (if (chunkOf s.boot).buf then s.boot.free1 else s.boot.free0) = false → Runs .bwSubmit s fun t =>
      t.boot = { s.boot with lastStatus := 0x0212 } ∧ Only [.boot] s t) ∧
  (∀ s : State, windowReach s = true → s.boot.hold = true → Runs .bwSubmit s fun t =>
    t.boot = { s.boot with lastStatus := 0x0210 } ∧ Only [.boot] s t) ∧
  (∀ s : State, windowReach s = false → exec .bwSubmit s = .next s) ∧
  (∀ (s : State) (k : Chunk) (q : List Chunk) (failed errs : List Nat), s.boot.phase = .windowOpen → s.boot.queue = k :: q →
    1 ≤ k.image → k.image ≤ 5 → s.boot.imgs.length = 5 → k.kind = 1 → 1 ≤ k.len → k.len ≤ 1024 →
    (getImg s k.image).st = .loading → (getImg s k.image).hdr = [] → k.seq = (getImg s k.image).seq →
    Runs (.chunkConsumed ⟨failed, errs⟩) s fun t =>
      (getImg t k.image).out = (getImg s k.image).out ++ chunkBytes s k ∧ (getImg t k.image).seq = k.seq + 1 ∧
      (getImg t k.image).st = (if q.head?.any (fun e => e.kind == 4 && e.image == k.image && e.seq == k.seq + 1)
        then .verifying else .loading) ∧ t.boot.queue = q ∧ t.boot.lastStatus = 0x0200 ∧ t.boot.lastImage = k.image ∧
      (if k.buf then t.boot.free1 else t.boot.free0) = true ∧ t.link.irq.getLsbD 10 = true ∧ Only [.boot, .link] s t) ∧
  (∀ (s : State) (k : Chunk) (q : List Chunk) (failed errs : List Nat), s.boot.phase = .windowOpen → s.boot.queue = k :: q →
    1 ≤ k.image → k.image ≤ 5 → s.boot.imgs.length = 5 → 1 ≤ k.kind → k.kind ≤ 3 → 1 ≤ k.len → k.len ≤ 1024 →
    k.seq ≠ (getImg s k.image).seq → (getImg s k.image).st ≠ .active → Runs (.chunkConsumed ⟨failed, errs⟩) s fun t =>
      (getImg t k.image).st = .failed ∧ t.boot.lastStatus = 0x020C ∧ t.boot.queue = q ∧ Only [.boot, .link] s t) ∧
  ∀ (s : State) (k : Chunk) (q : List Chunk) (failed errs : List Nat), s.boot.phase = .windowOpen → s.boot.queue = k :: q →
    1 ≤ k.image → k.image ≤ 5 → s.boot.imgs.length = 5 → k.kind = 4 → k.len = 0 →
    (getImg s k.image).st = .verifying → k.seq = (getImg s k.image).seq → (getImg s k.image).hdr = [] →
    (getImg s k.image).ins = 0 → (getImg s k.image).part = [] →
    (getImg s k.image).out.length ≠ manLen (getImg s k.image).man →
    Runs (.chunkConsumed ⟨failed, errs⟩) s fun t =>
      (getImg t k.image).st = .failed ∧ t.boot.lastStatus = 0x020F ∧ t.boot.queue = q ∧ Only [.boot, .link] s t

/-- A warm AP restart (03 R77, 04 R118): the stagings of tables and calibration are discarded; an AP image whose digest
matches runs again, and one whose digest no longer matches fails and reopens the window, with AP_RDY clear. Without an AP
image, without PLLA and in STANDBY nothing happens. -/
def Obligations.WarmRestart : Prop :=
  (∀ s : State, imgActive s 1 = true → s.clk.plla = true → s.pw.mode ≠ 2 → s.upd.st = 0 →
    sha256 (getImg s 1).out = manDigest (getImg s 1).man → Runs (.apWarmRestart false) s fun t =>
      t.clk = { s.clk with apRun := true } ∧ t.boot = { s.boot with apDue := false } ∧ t.tabs.owner = none ∧
      t.cal.owner = none ∧ t.cal.blocks = [] ∧ t.tabs.installed = s.tabs.installed ∧
      (∀ c, c < 8 → c < s.link.chans.length → (chan s c).st = .inService → (chan t c).st = .respReady) ∧
      (∀ c, (chan s c).st = .pending → (chan t c).st = .pending) ∧
      Part.same s t .otp ∧ Part.same s t .eg ∧ Part.same s t .safety ∧ Part.same s t .lintel ∧ Part.same s t .rtc) ∧
  (∀ (s : State) (b : Bool), imgActive s 1 = false ∨ s.clk.plla = false ∨ s.pw.mode = 2 →
    exec (.apWarmRestart b) s = .next s) ∧
  ∀ s : State, imgActive s 1 = true → s.boot.imgs.length = 5 → s.upd.st = 0 → s.boot.phase = .running →
    s.clk.plla = true → s.pw.mode ≠ 2 → Runs (.apWarmRestart true) s fun t =>
      (getImg t 1).st = .failed ∧ t.boot.phase = .windowOpen ∧ rdy t rAP = false ∧ t.tabs.owner = none ∧
      (∀ c, c < 8 → c < s.link.chans.length → (chan s c).st = .inService → (chan t c).st = .respReady) ∧
      (∀ c, (chan s c).st = .pending → (chan t c).st = .pending) ∧
      Part.same s t .otp ∧ Part.same s t .eg ∧ Part.same s t .safety ∧ Part.same s t .lintel ∧ Part.same s t .rtc


/-! Parameter tables (04 R123 to R125). -/

/-- TABLE_LOAD (04 R124, Tables HL-20, HL-21): a sealed table while the port is shut is refused SEALED with no effect; the
first segment of several goes to the staging, which the channel then owns; a whole open table that passes every check
waits for its effect and goes to the store; the owner's last segment to a shut port discards its staging; a whole sealed one keeps its channel IN_SERVICE behind its entry
TABLE_CHANGED. That each response carries the 12 bytes of Table HL-21 is the model's reading (log 60). -/
def Obligations.TableLoad : Prop :=
  (∀ (s : State) (c : Nat), Asked s c 0x0010 (fun k => 20 ≤ k) → reqLen s c = 20 + asks s c 16 2 →
    tabKnown (asks s c 0 2) = true → tabSealed (asks s c 0 2) = true → sealPort s = false → s.tabs.owner ≠ some c →
    AnswersWith (.tableLoad c) s c 0x00F2 12 (fun pl => fld pl 0 2 = asks s c 0 2 ∧ fld pl 2 2 = asks s c 2 2) fun u => u = s) ∧
  (∀ (s : State) (c : Nat), Asked s c 0x0010 (fun k => 20 ≤ k) → reqLen s c = 20 + asks s c 16 2 →
    tabKnown (asks s c 0 2) = true → tabSealed (asks s c 0 2) = true → sealPort s = false → s.tabs.owner = some c →
    asks s c 18 2 = 1 → AnswersWith (.tableLoad c) s c 0x00F2 12 (fun pl => fld pl 0 2 = asks s c 0 2 ∧ fld pl 4 4 = 0)
      fun u => u.tabs.owner = none ∧ u.tabs.bytes = [] ∧ u.tabs.installed = s.tabs.installed ∧
        u.tabs.waiting = s.tabs.waiting ∧ Only [.tabs] s u) ∧
  (∀ (s : State) (c : Nat), Asked s c 0x0010 (fun k => 20 ≤ k) → reqLen s c = 20 + asks s c 16 2 →
    tabKnown (asks s c 0 2) = true → tabSealed (asks s c 0 2) = false → s.tabs.owner = none → asks s c 18 2 = 0 →
    asks s c 8 4 = 0 → tabSize (asks s c 0 2) = some (asks s c 4 4) → asks s c 16 2 ≤ asks s c 4 4 →
    openBytes s (asks s c 0 2) (asks s c 4 4) ≤ 3145728 →
    AnswersWith (.tableLoad c) s c 0x0000 12 (fun pl => fld pl 4 4 = asks s c 16 2 ∧ fld pl 8 2 = 0) fun u =>
      u.tabs.owner = some c ∧ u.tabs.id = asks s c 0 2 ∧ u.tabs.version = asks s c 2 2 ∧ u.tabs.total = asks s c 4 4 ∧
      u.tabs.crc = asks s c 12 4 ∧ u.tabs.bytes = (reqPayload s c).drop 20 ∧ u.tabs.last = now s ∧
      u.tabs.installed = s.tabs.installed ∧ Only [.tabs] s u) ∧
  (∀ (s : State) (c : Nat), Asked s c 0x0010 (fun k => 20 ≤ k) → reqLen s c = 20 + asks s c 16 2 →
    tabKnown (asks s c 0 2) = true → tabSealed (asks s c 0 2) = false → s.tabs.owner = none → asks s c 18 2 = 1 →
    asks s c 8 4 = 0 → tabSize (asks s c 0 2) = some (asks s c 4 4) → asks s c 16 2 = asks s c 4 4 →
    openBytes s (asks s c 0 2) (asks s c 4 4) ≤ 3145728 → crc32 ((reqPayload s c).drop 20) = asks s c 12 4 →
    tabCheck (asks s c 0 2) ((reqPayload s c).drop 20) s = none →
    AnswersWith (.tableLoad c) s c 0x0000 12 (fun pl => fld pl 4 4 = asks s c 4 4) fun u =>
      u.tabs.owner = none ∧ u.tabs.installed = s.tabs.installed ∧
      u.tabs.waiting = s.tabs.waiting ++
        [⟨⟨asks s c 0 2, asks s c 2 2, (reqPayload s c).drop 20, asks s c 12 4⟩, 0, none, now s⟩] ∧
      u.qr.asks.length = s.qr.asks.length + 1 ∧ Only [.tabs, .qr] s u) ∧
  (∀ (s : State) (c : Nat), Asked s c 0x0010 (fun k => 20 ≤ k) → reqLen s c = 20 + asks s c 16 2 →
    tabKnown (asks s c 0 2) = true → tabSealed (asks s c 0 2) = true → sealPort s = true → s.tabs.owner = none →
    asks s c 18 2 = 1 → asks s c 8 4 = 0 → tabSize (asks s c 0 2) = some (asks s c 4 4) → asks s c 16 2 = asks s c 4 4 →
    crc32 ((reqPayload s c).drop 20) = asks s c 12 4 → tabNewest s (asks s c 0 2) < asks s c 2 2 →
    tabCheck (asks s c 0 2) ((reqPayload s c).drop 20) s = none → s.cairn.queue = [] → asks s c 4 4 ≤ 16384 →
    Holds (.tableLoad c) s c fun u =>
      u.tabs.installed = s.tabs.installed ∧
      u.tabs.waiting = s.tabs.waiting ++
        [⟨⟨asks s c 0 2, asks s c 2 2, (reqPayload s c).drop 20, asks s c 12 4⟩, s.cairn.next, some c, now s⟩] ∧
      u.cairn.queue = [entryQ s 0 5 0xFF (tabChanged (asks s c 0 2) (tabVersion s (asks s c 0 2)) (asks s c 2 2)
        (tabCrc s (asks s c 0 2)) (asks s c 12 4))] ∧
      Only [.tabs, .cairn] s u)

/-- TABLE_INFO, the staging's timeout of 10 s and the effect of a table at a tick boundary (04 R124, R125, Table HL-22):
the version takes the place of the installed one; a sealed one answers OK once its entry is in MRAM. Outside its condition
an event row changes nothing (log 1). -/
def Obligations.TableEffects : Prop :=
  (∀ (s : State) (c : Nat), Asked s c 0x0011 (len 4) → tabKnown (asks s c 0 2) = true →
    AnswersWith (.tableInfo c) s c 0x0000 16 (fun pl => fld pl 0 2 = asks s c 0 2 ∧
      fld pl 2 2 = tabVersion s (asks s c 0 2) % 65536 ∧ fld pl 13 1 = b2n (tabSealed (asks s c 0 2))) fun u => u = s) ∧
  (∀ (s : State) (c : Nat), s.tabs.owner = some c → s.tabs.last + 80000 ≤ now s → Runs .tableStagingTimeout s fun t =>
    t.tabs.owner = none ∧ t.tabs.bytes = [] ∧ t.tabs.installed = s.tabs.installed ∧ t.tabs.waiting = s.tabs.waiting ∧
    Only [.tabs] s t) ∧
  (∀ s : State, now s < s.tabs.last + 80000 → exec .tableStagingTimeout s = .next s) ∧
  (∀ (s : State) (w : TablePend), s.tabs.waiting = [w] → w.since < now s → cairnDone w.token s = true → w.token = 0 →
    w.ch = none → Runs .tableEffect s fun t =>
      t.tabs.waiting = [] ∧ tabRec t w.tab.id = some w.tab ∧ (∀ i, i ≠ w.tab.id → tabRec t i = tabRec s i) ∧
      (w.tab.id ∉ [0x0601, 0x1201, 0x1301, 0x1302, 0x4301, 0x4302, 0x4303, 0x4401, 0x4501, 0x4601] → Only [.tabs] s t)) ∧
  (∀ (s : State) (w : TablePend) (c : Nat), memWf s.link.mem = true → s.tabs.waiting = [w] → w.since < now s →
    cairnDone w.token s = true → (w.token = 0 ∨ cairnLost w.token s = false) → w.ch = some c → c < s.link.chans.length →
    (chan s c).st = .inService →
    w.tab.id ∉ [0x0601, 0x1201, 0x1301, 0x1302, 0x4301, 0x4302, 0x4303, 0x4401, 0x4501, 0x4601] →
    Runs .tableEffect s fun t =>
      t.tabs.waiting = [] ∧ tabRec t w.tab.id = some w.tab ∧ (∀ i, i ≠ w.tab.id → tabRec t i = tabRec s i) ∧
      (chan t c).st = .respReady ∧ fld (memReadBytes t.link.mem (respBase c) 28) 12 2 = 0x0000 ∧
      Only [.tabs, .link, .hostMem] s t) ∧
  ∀ (s : State) (w : TablePend), s.tabs.waiting = [w] → now s ≤ w.since → exec .tableEffect s = .next s

/-! The seal, the supply, the logs (08, 15, 21, 26). -/

/-- The seal input (15 R363): the first level to hold for 64 samples is the boot state; an opening queues the entry
SEAL_OPENED and leaves the port shut until the tick after the entry is in MRAM; a closing shuts the port at once and
queues SEAL_CLOSED. Outside its condition an event row changes nothing (log 1). -/
def Obligations.SealInput : Prop :=
  (∀ s : State, 64 ≤ s.sealIn.run → s.boot.phase ≠ .reset → s.sealIn.known = false →
    s.sealIn.level = s.cairn.sealState → Runs .sealChange s fun t =>
      t.sealIn = { s.sealIn with known := true, open_ := s.sealIn.level, port := s.sealIn.level } ∧
      t.boot = { s.boot with sealOpen := s.sealIn.level } ∧ Only [.boot, .sealIn] s t) ∧
  (∀ s : State, 64 ≤ s.sealIn.run → s.boot.phase ≠ .reset → s.sealIn.known = true → s.sealIn.level = true →
    s.sealIn.open_ = false → s.eg.pfailTick = none → s.cairn.queue = [] → Runs .sealChange s fun t =>
      t.sealIn = { s.sealIn with open_ := true, opening := some s.cairn.next, openedIn := none } ∧
      t.cairn.queue = [entryQ s 0 1 0xFF (zeros 4)] ∧
      Only [.cairn, .sealIn] s t) ∧
  (∀ s : State, 64 ≤ s.sealIn.run → s.boot.phase ≠ .reset → s.sealIn.known = true → s.sealIn.level = false →
    s.sealIn.open_ = true → s.upd.st = 0 → s.cal.run = none → s.cairn.behind = [] →
    (∀ w ∈ s.tabs.waiting, w.token ≠ s.cairn.next) → Runs .sealChange s fun t =>
      t.sealIn.open_ = false ∧ t.sealIn.port = false ∧ t.cal.blocks = [] ∧ t.cal.owner = none ∧
      (∃ j ∈ t.cairn.queue, j.entry.code = 2) ∧ t.cairn.ring = s.cairn.ring ∧
      Only [.boot, .link, .hostMem, .tabs, .ev, .cairn, .sealIn, .meter, .cal, .ports, .safety, .fences, .pw] s t) ∧
  (∀ s : State, s.sealIn.run < 64 → exec .sealChange s = .next s) ∧
  (∀ (s : State) (n : Nat), s.sealIn.openedIn = some n → n < now s → s.sealIn.open_ = true → s.eg.pfailTick = none →
    Runs .sealPortOpen s fun t => t.sealIn = { s.sealIn with port := true, openedIn := none } ∧ Only [.sealIn] s t) ∧
  ∀ (s : State) (n : Nat), s.sealIn.openedIn = some n → now s ≤ n → exec .sealPortOpen s = .next s

/-- The hold-up supply (26 R555): at each fall the entry HOLDUP_LOW and at each rise HOLDUP_OK is offered to the event
recorder, both with no DATA, and nothing else happens. -/
def Obligations.HoldupInput : Prop :=
  (∀ (s : State) (b : Bool), s.boot.phase ≠ .reset → s.boot.holdupS = !b → Runs (.holdupSChange b) s fun t =>
    t.boot = { s.boot with holdupS := b } ∧
    t.ev.queue = s.ev.queue ++ [⟨0, if b then 0x1403 else 0x1402, 5, 0xFF, zeros 16⟩] ∧ Only [.boot, .ev] s t) ∧
  ∀ (s : State) (b : Bool), s.boot.holdupS = b → exec (.holdupSChange b) s = .next s

/-- The Cairn log (15 R366, R367, R369, R370, R373, Tables SA-6, SA-7): the oldest queued entry is written with the next
SEQ, the RTC time and the link over the entry before; a SEAL_OPENED counts the opening; at most four in a tick; while
1,024 await mirroring the entry is lost and counted. CAIRN_READ returns the entries asked for that are held, 64 bytes
each, CAIRN_STATUS 48 bytes; nothing but the response changes, and the reads of the store that entries outside MRAM take
(01 R32). Outside its condition an event row changes nothing (log 1).
Refusals carry LENGTH 0 (log 31). -/
def Obligations.CairnLog : Prop :=
  (∀ (s : State) (j : CairnJob) (js : List CairnJob), s.cairn.queue = j :: js → s.boot.phase ≠ .reset →
    s.cairn.inTick < 4 → cairnAwait s < 1024 → s.cairn.lost = 0 ∨ j.entry.code = 0x70 → cairnWaits j.entry s = false →
    j.entry.code ≠ 1 → j.entry.code ≠ 2 → s.sealIn.opening ≠ some j.token → Runs .cairnEntryWrite s fun t =>
      t.cairn.queue = js ∧ t.cairn.head = s.cairn.head + 1 ∧ t.cairn.inTick = s.cairn.inTick + 1 ∧
      t.cairn.ring.getLast? = some { j.entry with
        seq := s.cairn.head + 1, time := rtcWord s, data := padTo 24 j.entry.data, link := cairnLink s.cairn } ∧
      t.cairn.openCount = s.cairn.openCount ∧ t.cairn.sealState = s.cairn.sealState ∧ Only [.cairn] s t) ∧
  (∀ (s : State) (j : CairnJob) (js : List CairnJob), s.cairn.queue = j :: js → s.boot.phase ≠ .reset →
    s.cairn.inTick < 4 → cairnAwait s < 1024 → s.cairn.lost = 0 → j.entry.code = 1 → cairnWaits j.entry s = false →
    s.sealIn.opening = some j.token → Runs .cairnEntryWrite s fun t =>
      t.cairn.queue = js ∧ t.cairn.head = s.cairn.head + 1 ∧ t.cairn.openCount = s.cairn.openCount + 1 ∧
      t.cairn.sealState = true ∧ t.cairn.openTick = j.entry.tick ∧ t.sealIn.opening = none ∧
      t.sealIn.openedIn = some (now s) ∧ t.sealIn.port = s.sealIn.port ∧ Only [.cairn, .sealIn] s t) ∧
  (∀ (s : State) (j : CairnJob) (js : List CairnJob), s.cairn.queue = j :: js → s.boot.phase ≠ .reset →
    s.cairn.inTick < 4 → 1024 ≤ cairnAwait s → j.tamper = false → s.sealIn.opening ≠ some j.token →
    Runs .cairnEntryWrite s fun t =>
      t.cairn.lost = s.cairn.lost + 1 ∧ t.cairn.ring = s.cairn.ring ∧ t.cairn.head = s.cairn.head ∧ j ∉ t.cairn.queue ∧
      cairnLost j.token t = (cairnGates j.entry.code || cairnLost j.token s) ∧
      Only [.cairn] s t) ∧
  (∀ s : State, s.boot.phase ≠ .reset → s.cairn.inTick < 4 → cairnAwait s < 1024 → s.cairn.lost ≠ 0 →
    (∀ j, s.cairn.queue.head? = some j → j.entry.code ≠ 0x70) → Runs .cairnEntryWrite s fun t =>
      t.cairn.lost = 0 ∧ t.cairn.head = s.cairn.head + 1 ∧ t.cairn.queue = s.cairn.queue ∧
      t.cairn.ring.getLast?.map (·.code) = some 0x71 ∧ Only [.cairn] s t) ∧
  (∀ s : State, 4 ≤ s.cairn.inTick → exec .cairnEntryWrite s = .next s) ∧
  (∀ (s : State) (j : CairnJob) (js : List CairnJob), s.cairn.queue = j :: js → cairnAwait s < 1024 → s.cairn.lost = 0 →
    cairnWaits j.entry s = true → exec .cairnEntryWrite s = .next s) ∧
  (∀ (s : State) (c : Nat), Asked s c 0x0B01 (len 12) → rdy s rOR = true → 1 ≤ asks s c 8 2 → asks s c 8 2 ≤ 95 →
    asks s c 10 2 = 0 → 1 ≤ asks s c 0 8 → cairnOldest s ≤ asks s c 0 8 → s.cairn.head < 2 ^ 64 →
    (∀ i : Nat, i < min (asks s c 8 2) (s.cairn.head + 1 - asks s c 0 8) →
      (s.cairn.ring.any fun e => e.seq == asks s c 0 8 + i) = true) →
    AnswersWith (.cairnRead c) s c 0x0B00 (16 + 64 * min (asks s c 8 2) (s.cairn.head + 1 - asks s c 0 8))
      (fun pl => fld pl 0 8 = asks s c 0 8 ∧ fld pl 8 2 = min (asks s c 8 2) (s.cairn.head + 1 - asks s c 0 8))
      fun u => u = s) ∧
  (∀ (s : State) (c : Nat), Asked s c 0x0B01 (len 12) → rdy s rOR = true → 1 ≤ asks s c 8 2 → asks s c 8 2 ≤ 95 →
    asks s c 10 2 = 0 → 1 ≤ asks s c 0 8 → cairnOldest s ≤ asks s c 0 8 → rdy s rCairn = true →
    AnswersWith (.cairnRead c) s c 0x0B00 (16 + 64 * min (asks s c 8 2) (s.cairn.head + 1 - asks s c 0 8))
      (fun pl => fld pl 0 8 = asks s c 0 8 ∧ fld pl 8 2 = min (asks s c 8 2) (s.cairn.head + 1 - asks s c 0 8))
      fun u => Only [.qr] s u) ∧
  (∀ (s : State) (c : Nat), Asked s c 0x0B01 (len 12) → rdy s rOR = false → Answers (.cairnRead c) s c 0x0BF0 0) ∧
  (∀ (s : State) (c : Nat), Asked s c 0x0B02 (len 0) → rdy s rOR = true →
    AnswersWith (.cairnStatus c) s c 0x0B00 48 (fun pl =>
      fld pl 0 1 = (if s.sealIn.open_ then (if 960 ≤ cairnAwait s then 2 else 1) else 0) ∧
      fld pl 4 4 = s.cairn.openCount % 2 ^ 32 ∧ fld pl 8 8 = s.cairn.head % 2 ^ 64 ∧
      fld pl 40 8 = s.cairn.lost % 2 ^ 64) fun u => u = s) ∧
  ∀ (s : State) (c : Nat), Asked s c 0x0B02 (len 0) → rdy s rOR = false → Answers (.cairnStatus c) s c 0x0BF0 0

/-- The event recorder (21 R488 to R493, Tables EV-6 to EV-8): the write port takes the next entry under the next SEQ, or
drops and counts it beyond 16 in a tick; 64 unspilled entries are handed to the spill zone as one unit. EVREC_READ returns
32 bytes for each entry, EVREC_CLEAR moves the mark and never back, with an entry CLEARED whose SEQ the response carries,
EVREC_STATUS 48 bytes. -/
def Obligations.EventRecorder : Prop :=
  (∀ (s : State) (e : EvEntry) (es : List EvEntry), s.ev.queue = e :: es → s.boot.phase ≠ .reset → s.ev.inTick < 16 →
    s.ev.dropRun = 0 → e.code ≠ 6 → s.ev.ring.length < 4096 → Runs .evrecWrite s fun t =>
      t.ev.queue = es ∧ t.ev.ring = s.ev.ring ++ [{ e with seq := s.ev.head + 1 }] ∧ t.ev.head = s.ev.head + 1 ∧
      t.ev.inTick = s.ev.inTick + 1 ∧ t.ev.lost = s.ev.lost ∧ Only [.ev] s t) ∧
  (∀ (s : State) (e : EvEntry) (es : List EvEntry), s.ev.queue = e :: es → s.boot.phase ≠ .reset → 16 ≤ s.ev.inTick →
    e.code ≠ 6 → Runs .evrecWrite s fun t =>
      t.ev.queue = es ∧ t.ev.ring = s.ev.ring ∧ t.ev.head = s.ev.head ∧
      t.ev.dropped = min 0xFFFFFFFF (s.ev.dropped + 1) ∧ t.ev.dropRun = s.ev.dropRun + 1 ∧ Only [.ev] s t) ∧
  (∀ (s : State) (e : EvEntry) (es : List EvEntry), s.ev.queue = e :: es → s.boot.phase ≠ .reset → s.ev.inTick < 16 →
    s.ev.dropRun ≠ 0 → s.ev.ring.length < 4096 → Runs .evrecWrite s fun t =>
      t.ev.queue = s.ev.queue ∧ t.ev.dropRun = 0 ∧
      t.ev.ring = s.ev.ring ++ [⟨s.ev.head + 1, 5, 6, 0xFF, padTo 16 (le 4 s.ev.dropRun)⟩] ∧ Only [.ev] s t) ∧
  (∀ (s : State) (es : List EvEntry) (e : EvEntry),
    es = (s.ev.ring.filter fun e => max s.ev.spilled s.ev.spilling < e.seq).take 64 → es.length = 64 →
    es.getLast? = some e → rdy s rSE = true → chipUp s (zoneChip s 0x24) = true → Runs .evrecSpill s fun t =>
      t.ev = { s.ev with spilling := e.seq } ∧
      t.qr.asks = s.qr.asks ++
        [{ cls := 4, kind := 0x24, units := 1, data := es.map evBytes, after := [.spill e.seq] }] ∧ Only [.ev, .qr] s t) ∧
  (∀ (s : State) (c : Nat), Asked s c 0x1101 (len 12) → rdy s rAP = true → 1 ≤ asks s c 8 2 → asks s c 8 2 ≤ 190 →
    asks s c 10 2 = 0 → asks s c 0 8 ≤ s.ev.head → s.ev.zone = [] →
    AnswersWith (.evrecRead c) s c 0x1100
      (32 + 32 * (((evHeld s).filter fun e => max (asks s c 0 8) (firstValid s) ≤ e.2.seq).take (asks s c 8 2)).length)
      (fun pl => fld pl 0 8 = firstValid s % 2 ^ 64 ∧ fld pl 8 8 = s.ev.head % 2 ^ 64 ∧
        fld pl 16 8 = s.ev.cleared % 2 ^ 64) fun u => u = s) ∧
  (∀ (s : State) (c : Nat), Asked s c 0x1102 (len 8) → rdy s rAP = true →
    Holds (.evrecClear c) s c fun u =>
      u.ev.cleared = max s.ev.cleared (min (asks s c 0 8) s.ev.head) ∧
      u.ev.queue = s.ev.queue ++ [⟨0, 6, 6, 0xC0 + c, padTo 16 (le 8 s.ev.cleared ++ le 8 u.ev.cleared)⟩] ∧
      u.ev.ring = s.ev.ring ∧ Only [.ev] s u) ∧
  (∀ (s : State) (e : EvEntry) (c a b : Nat), memWf s.link.mem = true → s.ev.queue = [e] → s.boot.phase ≠ .reset →
    s.ev.inTick < 16 → s.ev.dropRun = 0 → e.code = 6 → e.subject = 0xC0 + c → s.ev.clearing = [(c, a, b)] →
    s.ev.ring.length < 4096 → c < s.link.chans.length → Runs .evrecWrite s fun t =>
      (chan t c).st = .respReady ∧ memReadBytes t.link.mem (respBase c + 16) 24 = le 8 a ++ le 8 b ++ le 8 (s.ev.head + 1) ∧
      t.ev.clearing = [] ∧ Only [.link, .hostMem, .ev] s t) ∧
  ∀ (s : State) (c : Nat), Asked s c 0x1103 (len 0) → rdy s rAP = true →
    AnswersWith (.evrecStatus c) s c 0x1100 48 (fun pl => fld pl 0 8 = s.ev.head % 2 ^ 64 ∧
      fld pl 8 8 = firstValid s % 2 ^ 64 ∧ fld pl 44 4 = s.ev.dropped % 2 ^ 32) fun u => u = s

/-! Commits and boundary ticks (08, 13). -/

/-- A commit (08 R205, R207, R208): each register takes its credit, modulo 96 bits, and every other one keeps its
contents; the slot of the commit's parity holds the commit, the other slot stands; a boundary tick has its own commit, and
the rate of the table holds from then on (13 R319, R322). ENERGY_READ (08 Table EG-8): 16 bytes and 16 for each register,
with its VALUE, RESIDUE and LAST_COMMIT. PFAIL_N confirmed in tick n makes tick n + 1 a forced commit tick, sets HOLD and
cuts the powerline transmission at its next symbol boundary; its rise clears HOLD and queues SUPPLY_RETURN, and a fall after a
rise that waits for the forced commit sets HOLD again (08 R212, R215, 03 R99). Outside its condition an event
row changes nothing (log 1). Refusals carry LENGTH 0 (log 31). -/
def Obligations.EnergyCommits : Prop :=
  (∀ s : State, spWf {} s.eg.regs = true → (∀ e ∈ s.eg.regs, e.2.e < 2 ^ 96) → s.eg.slots.length = 2 → commitDue s = true →
    boundaryDue s = false → orRun s = true → Runs .commitTick s fun t =>
      t.eg.commits = s.eg.commits + 1 ∧ t.eg.doneTick = some (now s) ∧
      (∀ r, (regOf t r).e = ((regOf s r).e + spGet 0 (creditsOf s (forcedDue s)) r) % 2 ^ 96) ∧
      (∃ k, nth t.eg.slots ((s.eg.commits + 1) % 2) none = some k ∧ k.commit = s.eg.commits + 1 ∧ k.tick = now s ∧
        k.time = slotStamp s ∧ slotOk (some k) = true) ∧
      nth t.eg.slots (s.eg.commits % 2) none = nth s.eg.slots (s.eg.commits % 2) none ∧
      Only [.cairn, .meter, .eg, .ports, .safety] s t) ∧
  (∀ s : State, commitDue s = false → exec .commitTick s = .next s) ∧
  (∀ s : State, boundaryDue s = true → setWaits s = false → forcedDue s = false → actDue s = none →
    orRun s = true → Runs .boundaryTick s fun t =>
      t.eg.commits = s.eg.commits + 1 ∧ t.eg.doneTick = some (now s) ∧
      t.tar.rate = (if s.rtc.valid then rateAt (tarTab s) s.rtc.sec else fld (tarTab s) 11 1) ∧
      (boundaryGate s = true → (demandDue s).isSome = true → t.tar.closedAt = some (now s)) ∧
      Only [.link, .tabs, .ev, .cairn, .meter, .eg, .ports, .safety, .tar, .qr, .pw] s t) ∧
  (∀ s : State, boundaryDue s = false → exec .boundaryTick s = .next s) ∧
  (∀ (s : State) (c : Nat), Asked s c 0x0307 (len 8) → rdy s rOR = true → asks s c 4 4 = 0 → 1 ≤ asks s c 2 2 →
    asks s c 2 2 ≤ 380 → asks s c 0 2 + asks s c 2 2 ≤ 2376 →
    AnswersWith (.energyRead c) s c 0x0300 (16 + 16 * asks s c 2 2) (fun pl =>
      fld pl 0 2 = asks s c 0 2 ∧ fld pl 2 2 = asks s c 2 2 ∧ fld pl 8 8 = s.eg.commits % 2 ^ 64 ∧
      ∀ i, i < asks s c 2 2 →
        fld pl (16 + 16 * i) 8 = valOf s (asks s c 0 2 + i) % 2 ^ 64 ∧
        fld pl (24 + 16 * i) 4 = resOfReg s (asks s c 0 2 + i)) fun u => u = s) ∧
  (∀ (s : State) (c : Nat), Asked s c 0x0307 (len 8) → rdy s rOR = true →
    2376 < asks s c 0 2 + asks s c 2 2 → Answers (.energyRead c) s c 0x03F1 0) ∧
  (∀ (s : State) (c : Nat), Asked s c 0x0307 (len 8) → rdy s rOR = false → Answers (.energyRead c) s c 0x03F0 0) ∧
  (∀ s : State, s.boot.phase ≠ .reset → s.eg.pfailTick = none → orRun s = true → s.eg.restored = true →
    Runs .pfailNConfirmed s fun t =>
      t.eg = { s.eg with pfailTick := some (now s), forced := some (now s + 1) } ∧ t.boot.hold = true ∧
      t.boot.pfailN = false ∧ t.pl = plCut s ∧ (∀ q ∈ t.nf.fe.take 2, q.carrier = false) ∧
      Only [.boot, .link, .hostMem, .ev, .eg, .nf, .upd, .pl, .disp, .pw] s t) ∧
  (∀ (s : State) (n r : Nat), s.boot.phase ≠ .reset → s.eg.pfailTick = some n → s.eg.rise = some r → s.eg.again = none →
    Runs .pfailNConfirmed s fun t =>
      t.boot = { s.boot with pfailN := false, hold := true } ∧ t.eg = { s.eg with again := some (now s) } ∧
      Only [.boot, .eg] s t) ∧
  ∀ (s : State) (n : Nat), s.eg.pfailTick = some n → s.eg.forced = none → orRun s = true → s.cairn.queue = [] →
    Runs .pfailNRise s fun t =>
      t.boot = { s.boot with pfailN := true, hold := false } ∧
      t.eg = { s.eg with pfailTick := none, after := false, rise := none, again := none } ∧
      t.cairn.queue = [entryQ s 0 0x31 0xFF (le 4 (min (now s - n) 0xFFFFFFFF))] ∧
      Only [.boot, .cairn, .eg] s t

/-! The vehicle handshake (09). -/

/-- The port commands (09 R238, R239, R241, R244, R245, Tables VH-10 to VH-14): PORT_STATUS returns 24 bytes for the port
asked for or for every fitted one; CP_MODE, PORT_AVAIL, PORT_LOCK and CP_WAKE act on the port named and no other. Refusals
carry LENGTH 0 (log 31). -/
def Obligations.PortCommands : Prop :=
  (∀ (s : State) (c : Nat), Asked s c 0x0501 (len 4) → rdy s rKS = true → fitted s (asks s c 0 1) = true →
    AnswersWith (.portStatus c) s c 0x0500 28 (fun pl => fld pl 0 1 = 1 ∧ fld pl 4 1 = asks s c 0 1 ∧
      fld pl 5 1 = (getPort s (asks s c 0 1)).hs.st % 256) fun u => u = s) ∧
  (∀ (s : State) (c : Nat), Asked s c 0x0501 (len 4) → rdy s rKS = true → asks s c 0 1 = 0xFF →
    AnswersWith (.portStatus c) s c 0x0500 (4 + 24 * ((List.range 24).filter (fitted s)).length)
      (fun pl => fld pl 0 1 = ((List.range 24).filter (fitted s)).length) fun u => u = s) ∧
  (∀ (s : State) (c p : Nat), Asked s c 0x0502 (len 4) → asks s c 0 1 = p → p < s.ports.length → fitted s p = true →
    rdy s p = true → asks s c 1 1 ≤ 2 →
    (asks s c 1 1 = 1 → hlcAllowed s p = true ∧ ((getPort s p).hs.cpMode = 0 → portOn s p = false)) →
    AnswersWith (.cpMode c) s c 0x0500 12 (fun pl => fld pl 0 1 = p ∧ fld pl 1 1 = asks s c 1 1) fun u =>
      (getPort u p).hs = { (getPort s p).hs with cpMode := asks s c 1 1 } ∧ OnPort p [.ports] s u) ∧
  (∀ (s : State) (c p : Nat), Asked s c 0x0503 (len 4) → asks s c 0 1 = p → p < s.ports.length → fitted s p = true →
    rdy s rKS = true → asks s c 1 1 = 1 →
    AnswersWith (.portAvail c) s c 0x0500 12 (fun pl => fld pl 0 1 = p ∧ fld pl 1 1 = 1) fun u =>
      getPort u p = { getPort s p with hs := { (getPort s p).hs with avail := true, availSet := true } } ∧
      OnPort p [.ports] s u) ∧
  (∀ (s : State) (c p : Nat), Asked s c 0x0503 (len 4) → asks s c 0 1 = p → p < s.ports.length → fitted s p = true →
    rdy s rKS = true → asks s c 1 1 = 0 → portOn s p = false →
    AnswersWith (.portAvail c) s c 0x0500 12 (fun pl => fld pl 0 1 = p ∧ fld pl 1 1 = 0) fun u =>
      (getPort u p).hs.avail = false ∧ (getPort u p).hs.permit = false ∧ OnPort p [.ports] s u) ∧
  (∀ (s : State) (c p : Nat), Asked s c 0x0503 (len 4) → asks s c 0 1 = p → fitted s p = true → rdy s rKS = true →
    asks s c 1 1 = 0 → portOn s p = true → Answers (.portAvail c) s c 0x0511 0) ∧
  (∀ (s : State) (c p a : Nat), Asked s c 0x0504 (len 4) → asks s c 0 1 = p → asks s c 1 1 = a → a ≤ 1 →
    p < s.ports.length → fitted s p = true → isSocket s p = true → rdy s p = true → rdy s rLS = true →
    (a = 1 → 3 ≤ (getPort s p).hs.st ∧ (getPort s p).hs.st ≤ 8) →
    AnswersWith (.portLock c) s c 0x0500 4 (fun pl => fld pl 0 1 = p ∧ fld pl 1 1 = (getPort s p).hs.lock % 256 ∧
      (fld pl 2 1 = 1 ↔ (a = 0 ∨ ((getPort s p).hs.relWait = true ∧ (getPort s p).hs.lock = 3)) ∧
        ((getPort s p).ct.cfb ≠ 4 ∨ (getPort s p).ct.welded = true ∨ (getPort s p).ct.mirror = true))) fun u =>
      (getPort u p).hs = { (getPort s p).hs with
        lockReq := a == 1, relWait := a == 0 || ((getPort s p).hs.relWait && (getPort s p).hs.lock == 3)
        relClear := a == 0 || ((getPort s p).hs.relClear && (getPort s p).hs.lock == 3) } ∧ OnPort p [.ports] s u) ∧
  ∀ (s : State) (c p : Nat), Asked s c 0x0505 (len 4) → asks s c 0 1 = p → p < s.ports.length → fitted s p = true →
    rdy s p = true → (getPort s p).hs.wake = none → (getPort s p).hs.st = 3 ∨ (getPort s p).hs.st = 4 →
    portOn s p = false →
    AnswersWith (.cpWake c) s c 0x0500 20 (fun pl => fld pl 0 1 = p ∧ fld pl 4 8 = nextEdge (now s + 1) p % 2 ^ 64) fun u =>
      (getPort u p).hs = { (getPort s p).hs with
        wake := some (nextEdge (now s + 1) p, nextEdge (now s + 1) p + 8 * cpTab s p 46 2) } ∧ OnPort p [.ports] s u

/-- The pilot's events (09 R224, R228, R229, R231, R235, R236, R243, R244, Table VH-6): the edge latches the mode and duty
in force; a period counts its class; a class held for its debounce becomes the state; state E vetoes and ends the permit;
a cable lost under a permit vetoes; an overdraw starts a safe stop with cause 0x05. -/
def Obligations.PilotEvents : Prop :=
  (∀ (s : State) (p : Nat), p < 24 → p < s.ports.length → (getPort s p).hs.edgeDue = true → tickRun s = true →
    Runs (.pwmRisingEdge p) s fun t =>
    (getPort t p).hs.cur.mode = (getPort s p).hs.mode ∧ (getPort t p).hs.prev = (getPort s p).hs.cur ∧
    (getPort t p).hs.cur.start = edgeTime (now s) p ∧ (getPort t p).hs.edgeDue = false ∧
    ((getPort s p).hs.mode ≠ 3 → (getPort s p).hs.probe = false ∨ (getPort s p).hs.mode ≠ 1 →
      (getPort t p).hs.cur.duty = (getPort s p).hs.duty) ∧
    ((getPort s p).hs.mode = 3 → (getPort t p).hs.cur.duty = tf s 0x4501 34 2) ∧
    ((getPort s p).hs.mode = 1 → (getPort s p).hs.probe = true →
      (getPort t p).hs.cur.duty = min (getPort s p).hs.duty (tf s 0x4501 36 2) ∧
      (getPort t p).hs.probes = min 0xFFFF ((getPort s p).hs.probes + 1)) ∧
    ((getPort s p).hs.mode = 1 → (getPort t p).hs.limit = decoded (getPort s p).hs.duty) ∧
    OnPort p [.link, .ports, .pw] s t) ∧
  (∀ (s : State) (p k : Nat), p < 24 → p < s.ports.length → (getPort s p).hs.endDue = true → (getPort s p).hs.seen = true →
    (getPort s p).hs.fresh = false → classify s p (getPort s p).hs.past.mode (meanCode (getPort s p).hs.done.1 (getPort s p).hs.done.2.1)
      (meanCode (getPort s p).hs.done.2.2.1 (getPort s p).hs.done.2.2.2) = (k, false) → k ≠ 0 →
    tickRun s = true → Runs (.pwmPeriodEnd p) s fun t =>
      (getPort t p).hs.endDue = false ∧ (getPort t p).hs.cls = k ∧
      (getPort t p).hs.clsN = (if k = (getPort s p).hs.cls then (getPort s p).hs.clsN + 1 else 1) ∧
      (getPort t p).hs.diodeN = 0 ∧
      OnPort p [.boot, .link, .tabs, .ev, .ports, .safety, .fences, .pw] s t) ∧
  (∀ (s : State) (p c : Nat), p < 24 → p < s.ports.length → (getPort s p).hs.due = some c → tickRun s = true →
    Runs (.cpStateChange p) s fun t =>
    (1 ≤ c → c ≤ 4 → (getPort t p).hs.st = withSuffix c (getPort s p).hs.past.mode 1) ∧
    (c = 7 → (getPort t p).hs.st = 10) ∧
    (c = 5 ∨ c = 6 ∨ c = 8 ∨ c = 9 → (getPort t p).hs.st = 9 ∧ (getPort t p).hs.eReason = reasonOf c ∧
      (c ≠ 8 → (getPort t p).ct.vE = true) ∧ (getPort t p).hs.permit = false) ∧
    (getPort t p).hs.due = none ∧ OnPort p [.boot, .link, .tabs, .ev, .ports, .safety, .fences, .pw] s t) ∧
  (∀ (s : State) (p : Nat), p < 24 → p < s.ports.length → (getPort s p).hs.ppDue = true → isSocket s p = true →
    tickRun s = true → Runs (.ppStateChange p) s fun t =>
      (getPort t p).hs.ppDue = false ∧ (getPort t p).hs.ppSt = ppStOf s (getPort s p).hs.ppBand ∧
      (getPort t p).hs.ppIn = (getPort s p).hs.ppBand ∧
      (ppStOf s (getPort s p).hs.ppBand ≠ 1 → (getPort s p).hs.permit = true ∨ portOn s p = true →
        (getPort t p).ct.vPp = true ∧ (portOn s p = false → (getPort t p).hs.permit = false)) ∧
      (ppStOf s (getPort s p).hs.ppBand = 1 → (getPort t p).ct.vPp = false) ∧
      OnPort p [.boot, .link, .tabs, .ev, .ports, .safety, .fences, .pw] s t) ∧
  (∀ (s : State) (p : Nat), p < 24 → p < s.ports.length → 3 ≤ (getPort s p).hs.st → (getPort s p).hs.st ≤ 8 →
    (getPort s p).hs.cur.mode = 1 → cpTab s p 38 2 ≤ (getPort s p).hs.noLow → (getPort s p).hs.probe = false →
    (getPort s p).hs.probeAt = none → tickRun s = true → Runs (.diodeProbe p) s fun t =>
      getPort t p = { getPort s p with hs := { (getPort s p).hs with probe := true } } ∧ OnPort p [.ports] s t) ∧
  (∀ (s : State) (p a b : Nat), p < s.ports.length → (getPort s p).hs.wake = some (a, b) → b ≤ now s →
    tickRun s = true → Runs (.cpWakeEnd p) s fun t =>
      getPort t p = { getPort s p with hs := { (getPort s p).hs with
        wake := none, cls := 0, clsN := 0, diodeN := 0, due := none } } ∧ OnPort p [.ports] s t) ∧
  ∀ (s : State) (p : Nat), p < s.ports.length → overPhases s p ≠ [] → portOn s p = true →
    (getPort s p).ss.stage ≠ 1 → (getPort s p).ss.stage ≠ 2 → tickRun s = true → Runs (.overdraw p) s fun t =>
      (getPort t p).hs.overN = [0, 0, 0] ∧ (getPort t p).ss.stage = 1 ∧ (getPort t p).ss.cause = 0x05 ∧
      (getPort t p).ss.start = now s ∧ (getPort t p).ct = (getPort s p).ct ∧ OnPort p [.link, .ports, .pw] s t

/-- The socket lock (09 R237 to R240): a request starts the pull-in at 100 %, which falls to LOCK_HOLD_PCT; ten means in
the window make it LOCKED; a timeout, a fault of the channel or a budget refusal make it FAULT; a release is carried out
once CFB reads OPEN, and a weld or a mirror fault holds the lock (11 Table RC-7). -/
def Obligations.LockEvents : Prop :=
  (∀ (s : State) (p : Nat), p < 24 → p < s.ports.length → (getPort s p).hs.lockReq = true → isSocket s p = true →
    (getPort s p).hs.lock = 0 → lsRole s (lockCh s p) = 4 → (getLs s (lockCh s p)).latched = false →
    lsFenced s (lockCh s p) = false → declaredWith s (lockCh s p) ≤ 4000 → lockCh s p < s.ls.chans.length →
    lsBoth s (lockCh s p) = [lockCh s p] →
    tickRun s = true → Runs (.lockRequest p) s fun t =>
      (getPort t p).hs.lock = 1 ∧ (getPort t p).hs.lockAt = now s ∧ (getPort t p).hs.lockPct = 100 ∧
      (getPort t p).hs.lockReq = false ∧ getLs t (lockCh s p) = { getLs s (lockCh s p) with cmd := true, level := 100 } ∧
      (∀ c, c ≠ lockCh s p → getLs t c = getLs s c) ∧ OnPort p [.link, .ports, .ls, .pw] s t) ∧
  (∀ (s : State) (p : Nat), p < s.ports.length → (getPort s p).hs.lock = 1 → (getPort s p).hs.lockPct = 100 →
    (getPort s p).hs.lockAt + 8 * tf s 0x4502 242 2 ≤ now s → tickRun s = true → Runs (.lockPullEnd p) s fun t =>
      (getPort t p).hs = { (getPort s p).hs with lockPct := tf s 0x4502 244 1, lockGood := 0 } ∧
      OnPort p [.ports, .ls] s t) ∧
  (∀ (s : State) (p : Nat), p < 24 → p < s.ports.length → (getPort s p).hs.lock = 1 → 10 ≤ (getPort s p).hs.lockGood →
    (getPort s p).hs.lockAt + 8 * tf s 0x4502 242 2 ≤ now s → tickRun s = true → Runs (.locked p) s fun t =>
      (getPort t p).hs.lock = 2 ∧ OnPort p [.boot, .link, .tabs, .ev, .ports, .safety, .fences, .pw] s t) ∧
  (∀ (s : State) (p : Nat), p < 24 → p < s.ports.length → (getPort s p).hs.lock = 1 →
    (getPort s p).hs.lockAt + 8 * (tf s 0x4502 242 2 + 50) ≤ now s → tickRun s = true → Runs (.lockTimeout p) s fun t =>
      (getPort t p).hs.lock = 3 ∧ (getPort t p).hs.lockPct = tf s 0x4502 244 1 ∧
      OnPort p [.boot, .link, .tabs, .ev, .ports, .safety, .fences, .ls, .pw] s t) ∧
  (∀ (s : State) (p : Nat) (b : Bool), p < 24 → p < s.ports.length → (getPort s p).hs.lock = 2 →
    (getLs s (lockCh s p)).sense = 0xFFF ∨ 8 * tf s 0x4502 245 1 ≤ (getPort s p).hs.lockBad ∨ b = true →
    tickRun s = true → Runs (.lockLost p b) s fun t =>
      (getPort t p).hs.lock = 3 ∧ (getPort t p).hs.lockPct = tf s 0x4502 244 1 ∧
      OnPort p [.boot, .link, .tabs, .ev, .ports, .safety, .fences, .ls, .pw] s t) ∧
  (∀ (s : State) (p : Nat), (getPort s p).ct.welded = true ∨ (getPort s p).ct.mirror = true →
    exec (.lockRelease p) s = .next s) ∧
  ∀ (s : State) (p : Nat), p < 24 → p < s.ports.length → (getPort s p).hs.relWait = true → (getPort s p).ct.cfb = 4 →
    (getPort s p).ct.welded = false → (getPort s p).ct.mirror = false →
    (getPort s p).hs.lock = 2 → tickRun s = true → Runs (.lockRelease p) s fun t =>
      (getPort t p).hs = { (getPort s p).hs with
        lock := 0, relWait := false, relClear := false, lockPct := 0, lockReq := false } ∧
      OnPort p [.link, .ports, .ls, .pw] s t

/-! Residual current and contactors (11). -/

/-- The closing sequence (11 R275, R276, R280, Table RC-6): it begins when nothing forbids conduction and CFB reads OPEN;
a passed plausibility check stores OFFSET and arms the counters, a failed one waits 10 s; each step drives its switches; a
wrong state in a switch test fences the port with both switches off; CLOSED at the deadline of the pull-in is conduction.
Outside its condition an event row changes nothing (log 1). -/
def Obligations.ClosingSequence : Prop :=
  (∀ (s : State) (p : Nat), p < s.ports.length → mayClose s p = true → (getPort s p).ct.retry = none →
    ksRun s = true → Runs (.closingSequence p) s fun t =>
      (getPort t p).ct.stage = 1 ∧ (getPort t p).ct.step = 1 ∧ (getPort t p).rc.win = [] ∧
      (getPort t p).ct.chs = (getPort s p).ct.chs ∧ (getPort t p).ct.cls = (getPort s p).ct.cls ∧ OnPort p [.ports] s t) ∧
  (∀ (s : State) (p : Nat), p < s.ports.length → (getPort s p).ct.stage = 1 → 512 ≤ (getPort s p).ct.stepN →
    portFenced s p = false → plausOk s p (getPort s p).rc = true → ksRun s = true → Runs (.plausJudge p) s fun t =>
      (getPort t p).ct = { (getPort s p).ct with stage := 2, step := 2, stepN := 0, plausN := 0 } ∧
      (getPort t p).rc.offset = meanMa (getPort s p).rc.win ∧ (getPort t p).rc.armed = true ∧
      (getPort t p).rc.cnt = List.replicate 8 0 ∧ OnPort p [.ports] s t) ∧
  (∀ (s : State) (p : Nat), p < s.ports.length → (getPort s p).ct.stage = 1 → 512 ≤ (getPort s p).ct.stepN →
    portFenced s p = false → plausOk s p (getPort s p).rc = false → (getPort s p).ct.plausN < 2 →
    ksRun s = true → Runs (.plausJudge p) s fun t =>
      (getPort t p).ct.stage = 0 ∧ (getPort t p).ct.step = 0 ∧ (getPort t p).ct.fault = 3 ∧
      (getPort t p).ct.plausN = (getPort s p).ct.plausN + 1 ∧ (getPort t p).ct.retry = some (now s + 80000) ∧
      (getPort t p).rc.armed = (getPort s p).rc.armed ∧ OnPort p [.link, .ev, .ports, .pw] s t) ∧
  (∀ (s : State) (p n : Nat), p < s.ports.length → (getPort s p).ct.stage = 2 → (getPort s p).ct.stepBad = false →
    stopping (getPort s p) = false → portFenced s p = false ∨ n ≤ 5 → (getPort s p).ct.step = n → 2 ≤ n → n ≤ 6 → stepLen s p n ≤ (getPort s p).ct.stepN →
    ksRun s = true → Runs (.closingStepTimer p) s fun t =>
      (getPort t p).ct.step = n + 1 ∧ (getPort t p).ct.stepN = 0 ∧ (getPort t p).ct.stage = (if n = 6 then 3 else 2) ∧
      (getPort t p).ct.chs = (n == 4 || n == 6) ∧ (getPort t p).ct.cls = (n == 2 || n == 6) ∧
      OnPort p [.ports, .safety] s t) ∧
  (∀ (s : State) (p : Nat), p < 24 → p < s.ports.length → (getPort s p).ct.stage = 2 → (getPort s p).ct.stepBad = true →
    stopping (getPort s p) = false → ksRun s = true → Runs (.closingStepTimer p) s fun t =>
      (getPort t p).ct.chs = false ∧ (getPort t p).ct.cls = false ∧ (getPort t p).ct.fault = 4 ∧ fencedB t 0 p = true ∧
      (getPort t p).hs.permit = false ∧ OnPort p [.boot, .link, .tabs, .ev, .ports, .safety, .fences, .pw] s t) ∧
  (∀ (s : State) (p : Nat), p < s.ports.length → (getPort s p).ct.stage = 3 → 8 * rcTab s p 56 2 ≤ (getPort s p).ct.stepN →
    (getPort s p).ct.cfb = 3 → ksRun s = true → Runs (.pullInDeadline p) s fun t =>
      (getPort t p).ct = { (getPort s p).ct with stage := 4, step := 0, stepN := 0, closeN := 0, incH := 0, incL := 0 } ∧
      OnPort p [.ports] s t) ∧
  (∀ (s : State) (p : Nat), p < s.ports.length → (getPort s p).ct.stage = 3 → 8 * rcTab s p 56 2 ≤ (getPort s p).ct.stepN →
    (getPort s p).ct.cfb ≠ 3 → (getPort s p).ct.closeN + 1 < rcTab s p 72 1 → ksRun s = true →
      Runs (.pullInDeadline p) s fun t =>
      (getPort t p).ct.chs = false ∧ (getPort t p).ct.cls = false ∧ (getPort t p).ct.fault = 5 ∧
      (getPort t p).ct.closeN = (getPort s p).ct.closeN + 1 ∧ (getPort t p).ct.retry = some (now s + 80000) ∧
      OnPort p [.link, .ev, .ports, .safety, .pw] s t) ∧
  (∀ (s : State) (p n : Nat), p < s.ports.length → (getPort s p).ct.retry = some n → n ≤ now s → mayClose s p = true →
    ksRun s = true → Runs (.closeRetry p) s fun t =>
      (getPort t p).ct.stage = 1 ∧ (getPort t p).ct.step = 1 ∧ (getPort t p).ct.retry = none ∧ OnPort p [.ports] s t) ∧
  ∀ (s : State) (p n : Nat), (getPort s p).ct.retry = some n → now s < n → exec (.closeRetry p) s = .next s

/-- Trips, proofs, faults and openings (11 R273, R282 to R286, Tables RC-7, RC-8): a trip opens both switches in the tick
and vetoes; a passed proof counts; in the tick in which the request ends both switches go off in place of a pulse; a switch that does not open, a feedback that stays at a fault pattern and a welded
contact are faults with their stop and fence; an opening on low current, or at its deadline under load. Outside its
condition an event row changes nothing (log 1). -/
def Obligations.ContactorFaults : Prop :=
  (∀ (s : State) (p k : Nat), p < s.ports.length → newTrips s p (getPort s p).rc = [k] → (getPort s p).rc.first = false →
    portOn s p = true → (getPort s p).ss.stage ≠ 2 → ksRun s = true → Runs (.rcTrip p) s fun t =>
      (getPort t p).ct.chs = false ∧ (getPort t p).ct.cls = false ∧
      (getPort t p).rc.trip = (if k < 4 then 1 else 2) ∧ (getPort t p).ss.stage = 2 ∧ (getPort t p).ss.cause = 0x10 ∧
      vetoed t p = true ∧ OnPort p [.link, .ev, .ports, .safety, .pw] s t) ∧
  (∀ (s : State) (p d : Nat), p < 24 → p < s.ports.length → (getPort s p).ct.pulse = 0 → (getPort s p).ct.stage = 4 →
    (getPort s p).ct.chs = true → (getPort s p).ct.cls = true → (getPort s p).ss.stage ≠ 2 → pulseSide s p = some d →
    (getPort s p).hs.reqOff ≠ some (now s) → ksRun s = true → Runs (.switchProofPulse p) s fun t =>
      (getPort t p).ct = { (getPort s p).ct with
        pulse := d, pulseTick := now s, pulseQ := [], pulseAfter := [], pulseDue := false } ∧ OnPort p [.ports] s t) ∧
  (∀ (s : State) (p d : Nat), p < 24 → p < s.ports.length → (getPort s p).ct.pulse = 0 → (getPort s p).ct.stage = 4 →
    (getPort s p).ct.chs = true → (getPort s p).ct.cls = true → (getPort s p).ss.stage ≠ 2 → pulseSide s p = some d →
    (getPort s p).hs.reqOff = some (now s) → ksRun s = true → Runs (.switchProofPulse p) s fun t =>
      (getPort t p).ct.chs = false ∧ (getPort t p).ct.cls = false ∧ (getPort t p).ct.pulse = 0 ∧
      OnPort p [.link, .ev, .ports, .safety, .pw] s t) ∧
  (∀ (s : State) (p : Nat), p < s.ports.length → (getPort s p).ct.pulse = 1 → (getPort s p).ct.pulseDue = true →
    3 ≤ (getPort s p).ct.pulseQ.length → (∀ v ∈ (getPort s p).ct.pulseQ, v = 1) →
    (∀ v ∈ (getPort s p).ct.pulseAfter, v = 3) → ksRun s = true → Runs (.switchProofPulse p) s fun t =>
      (getPort t p).ct = { (getPort s p).ct with
        pulse := 0, pulseDue := false, pulseQ := [], pulseAfter := []
        proofs := min 0xFFFFFFFF ((getPort s p).ct.proofs + 1), incH := 0 } ∧ OnPort p [.ports] s t) ∧
  (∀ (s : State) (p : Nat), p < s.ports.length → (getPort s p).ct.pulse = 1 → (getPort s p).ct.pulseDue = true →
    0 < (getPort s p).ct.pulseQ.length → (∀ v ∈ (getPort s p).ct.pulseQ, v = 3) → (getPort s p).ct.pulseAfter = [] →
    (getPort s p).ct.vFault = false → portOn s p = true → (getPort s p).ss.stage ≠ 2 →
    ksRun s = true → Runs (.switchProofPulse p) s fun t =>
      (getPort t p).ct.fault = 6 ∧ (getPort t p).ct.vFault = true ∧ (getPort t p).ct.chs = false ∧
      (getPort t p).ct.cls = false ∧ (getPort t p).ss.stage = 2 ∧ (getPort t p).ss.cause = 0x11 ∧
      OnPort p [.link, .ev, .ports, .safety, .pw] s t) ∧
  (∀ (s : State) (p : Nat), p < 24 → p < s.ports.length → (getPort s p).ct.stage = 4 → portOn s p = true →
    (getPort s p).ct.cfb = 0 ∨ ((getPort s p).ct.cfb ≤ 2 ∧ (getPort s p).ct.pulse = 0) → (getPort s p).ss.stage = 0 → ksRun s = true →
      Runs (.cfbFaultDetect p) s fun t =>
      (getPort t p).ct.fault = 9 ∧ (getPort t p).ss.stage = 1 ∧ (getPort t p).ss.cause = 0x0B ∧
      (getPort t p).ss.fence = some (1, 9, false) ∧ OnPort p [.link, .ev, .ports, .pw] s t) ∧
  (∀ (s : State) (p : Nat), p < 24 → p < s.ports.length → portOn s p = false →
    (getPort s p).ct.cmdTick + 8 * rcTab s p 58 2 ≤ now s → (getPort s p).ct.welded = false →
    (∃ k ∈ (getPort s p).ct.weldN, rcTab s p 70 1 ≤ k) → (getPort s p).ss.stage ≠ 2 → ksRun s = true →
      Runs (.weldCheck p) s fun t =>
      (getPort t p).ct.welded = true ∧ (getPort t p).ct.vFault = true ∧ (getPort t p).ct.fault = 0x0C ∧
      fencedB t 0 p = true ∧ (getPort t p).hs.permit = false ∧
      OnPort p [.boot, .link, .tabs, .ev, .ports, .fences, .pw] s t) ∧
  (∀ (s : State) (p n : Nat), p < s.ports.length → (getPort s p).ct.opening = some n → allLow s p = true →
    ksRun s = true → Runs (.openOnLowCurrent p) s fun t =>
      (getPort t p).ct.chs = false ∧ (getPort t p).ct.cls = false ∧ (getPort t p).ct.opening = none ∧
      OnPort p [.ports, .safety] s t) ∧
  (∀ (s : State) (p n : Nat), p < s.ports.length → (getPort s p).ct.opening = some n → n + 8 * rcTab s p 66 2 ≤ now s →
    ksRun s = true → Runs (.openUnderLoad p) s fun t =>
      (getPort t p).ct.chs = false ∧ (getPort t p).ct.cls = false ∧ (getPort t p).ct.opening = none ∧
      (getPort t p).ct.fault = 0x0F ∧ OnPort p [.link, .ev, .ports, .safety, .pw] s t) ∧
  ∀ (s : State) (p : Nat), (getPort s p).ct.opening = none →
    exec (.openOnLowCurrent p) s = .next s ∧ exec (.openUnderLoad p) s = .next s

/-- RC_STATUS and RC_CLEAR (11 R274, Tables RC-10, RC-11): 28 bytes for each port named; the veto of a trip ends at the
next tick where the values have been low for 10 s and the count of 24 h allows it. Refusals carry LENGTH 0 (log 31). -/
def Obligations.ResidualCommands : Prop :=
  (∀ (s : State) (c : Nat), Asked s c 0x0701 (len 4) → rdy s rKS = true → fitted s (asks s c 0 1) = true →
    AnswersWith (.rcStatus c) s c 0x0700 32 (fun pl => fld pl 0 1 = 1 ∧ fld pl 4 1 = asks s c 0 1 ∧
      fld pl 6 1 = (getPort s (asks s c 0 1)).ct.cfb % 256) fun u => u = s) ∧
  (∀ (s : State) (c p : Nat), Asked s c 0x0702 (len 4) → asks s c 0 1 = p → p < s.ports.length → fitted s p = true →
    rdy s rKS = true → (getPort s p).rc.trip ≠ 0 → (getPort s p).rc.clearing = false →
    (clears24 s (getPort s p).rc).length < rcTab s p 49 1 → 80000 ≤ (getPort s p).rc.calm →
    AnswersWith (.rcClear c) s c 0x0700 4
      (fun pl => fld pl 1 1 = (rcTab s p 49 1 - (clears24 s (getPort s p).rc).length - 1) % 256) fun u =>
        (getPort u p).rc = { (getPort s p).rc with
          clearing := true, clears := now s :: clears24 s (getPort s p).rc } ∧ OnPort p [.ports] s u) ∧
  (∀ (s : State) (c p : Nat), Asked s c 0x0702 (len 4) → asks s c 0 1 = p → fitted s p = true → rdy s rKS = true →
    (getPort s p).rc.trip = 0 ∨ (getPort s p).rc.clearing = true → Answers (.rcClear c) s c 0x0711 0) ∧
  (∀ (s : State) (c p : Nat), Asked s c 0x0702 (len 4) → asks s c 0 1 = p → fitted s p = true → rdy s rKS = true →
    (getPort s p).rc.trip ≠ 0 → (getPort s p).rc.clearing = false →
    (clears24 s (getPort s p).rc).length < rcTab s p 49 1 → (getPort s p).rc.calm < 80000 →
    Answers (.rcClear c) s c 0x0713 0) ∧
  ∀ (s : State) (c p : Nat), Asked s c 0x0702 (len 4) → asks s c 0 1 = p → fitted s p = true → rdy s rKS = true →
    (getPort s p).rc.trip ≠ 0 → (getPort s p).rc.clearing = false →
    rcTab s p 49 1 ≤ (clears24 s (getPort s p).rc).length → Answers (.rcClear c) s c 0x0712 0

/-! Safety functions (12). -/

/-- SAFE_STOP, SAFETY_STATUS and the ends of a ramp-down and of a safe stop (12 R300 to R302, R308, Tables SF-14, SF-15):
a conducting port named gets the cause 0x01 for the next tick, another loses its permit, a port not named is untouched.
LOW comes before ENVELOPE before DEADLINE, both switches low in the tick; a safe port is in stage 3 without permit,
override and hold. Outside its condition an event row changes nothing (log 1). Refusals carry LENGTH 0 (log 31). -/
def Obligations.SafeStops : Prop :=
  (∀ (s : State) (c : Nat), Asked s c 0x0801 (len 8) → rdy s rKS = true → asks s c 0 4 < 2 ^ 24 → 24 ≤ s.ports.length →
    (∀ p, p < 24 → (asks s c 0 4).testBit p = true → fitted s p = true) →
    AnswersWith (.safeStop c) s c 0x0800 8 (fun _ => True) fun u =>
      (∀ p, p < 24 → (asks s c 0 4).testBit p = true → portOn s p = true → stopping (getPort s p) = false →
        getPort u p = { getPort s p with ss := { (getPort s p).ss with pend := (getPort s p).ss.pend ++ [1] } }) ∧
      (∀ p, p < 24 → (asks s c 0 4).testBit p = true → portOn s p = false → stopping (getPort s p) = false →
        (getPort u p).hs.permit = false) ∧
      (∀ p, (asks s c 0 4).testBit p = false → getPort u p = getPort s p) ∧ Only [.ports, .safety] s u) ∧
  (∀ (s : State) (c : Nat), Asked s c 0x0801 (len 8) → rdy s rKS = true → asks s c 0 4 < 2 ^ 24 →
    (∃ p, p < 24 ∧ (asks s c 0 4).testBit p = true ∧ fitted s p = false) →
    Answers (.safeStop c) s c 0x0810 0) ∧
  (∀ (s : State) (c : Nat), Asked s c 0x0802 (len 0) → rdy s rKS = true ∨ scanWithholds s = true →
    AnswersWith (.safetyStatus c) s c 0x0800 208 (fun pl => fld pl 4 2 = s.safety.word % 65536 ∧
      fld pl 2 1 = (if s.safety.sokFault then 2 else b2n s.safety.sok) ∧ fld pl 10 2 = deadlineMs s) fun u => u = s) ∧
  (∀ (s : State) (p : Nat), p < s.ports.length → (getPort s p).ss.stage = 1 → (getPort s p).ss.start < now s →
    fld (getPort s p).ss.tbl 65 1 ≤ (getPort s p).ss.low ∨ fld (getPort s p).ss.tbl 64 1 ≤ (getPort s p).ss.overN ∨
      8 * deadlineMs s ≤ (getPort s p).ss.ticks →
    ksRun s = true → Runs (.energyRemoval p) s fun t =>
      (getPort t p).ct.chs = false ∧ (getPort t p).ct.cls = false ∧ (getPort t p).ss.stage = 2 ∧
      (getPort t p).ss.cause = (getPort s p).ss.cause ∧ (getPort t p).ss.override = some 0 ∧
      (getPort t p).ss.result = (if fld (getPort s p).ss.tbl 65 1 ≤ (getPort s p).ss.low then 1
        else if fld (getPort s p).ss.tbl 64 1 ≤ (getPort s p).ss.overN then 2 else 3) ∧
      OnPort p [.link, .ports, .safety, .pw] s t) ∧
  (∀ (s : State) (p : Nat), (getPort s p).ss.stage ≠ 1 → exec (.energyRemoval p) s = .next s) ∧
  (∀ (s : State) (p : Nat), p < 24 → p < s.ports.length → (getPort s p).ss.stage = 2 → portSafe s p = true →
    ksRun s = true → Runs (.safeStopEnd p) s fun t =>
      (getPort t p).ss.stage = 3 ∧ (getPort t p).ss.override = none ∧ (getPort t p).ss.fence = none ∧
      (getPort t p).li.kept = false ∧ (getPort t p).li.forced = false ∧ (getPort t p).hs.permit = false ∧
      OnPort p [.boot, .link, .tabs, .ev, .ports, .fences, .pw] s t) ∧
  (∀ (s : State) (p c d : Nat) (r : Bool), p < 24 → p < s.ports.length → (getPort s p).ss.stage = 2 →
    portSafe s p = true → (getPort s p).ss.fence = some (c, d, r) → ksRun s = true →
      Runs (.safeStopEnd p) s fun t => fencedB t 0 p = true) ∧
  ∀ (s : State) (p : Nat), (getPort s p).ss.stage ≠ 2 → exec (.safeStopEnd p) s = .next s

/-- The safety inputs, SOK and the sealed switches (12 R294 to R298, R307): SIN takes the energy, SSR starts safe stops,
both veto until RESTART_S after the input is healthy; a changed switch word is logged and not taken into force. Outside
its condition an event row changes nothing (log 1). -/
def Obligations.SafetyInputs : Prop :=
  (∀ s : State, rdy s rKS = true → sinDemand s = true → s.safety.sin.taken = false → 24 ≤ s.ports.length →
    (∀ p, p < 24 → (getPort s p).ss.stage ≠ 2) → ksRun s = true → Runs .sinDemand s fun t =>
      t.safety.sin = { s.safety.sin with taken := true, veto := true } ∧
      (∀ p, p < 24 → (getPort t p).ct.chs = false ∧ (getPort t p).ct.cls = false ∧ (getPort t p).hs.permit = false ∧
        vetoed t p = true ∧ (portOn s p = true → (getPort t p).ss.stage = 2 ∧ (getPort t p).ss.cause = 0x13)) ∧
      Only [.boot, .link, .tabs, .ev, .ports, .safety, .fences, .pw] s t) ∧
  (∀ s : State, rdy s rKS = true → ssrDemand s = true → s.safety.ssr.taken = false →
    24 ≤ s.ports.length → ksRun s = true → Runs .ssrDemand s fun t =>
      t.safety.ssr = { s.safety.ssr with taken := true, veto := true } ∧
      (∀ p, p < 24 → (getPort t p).hs.permit = false ∧ vetoed t p = true ∧
        (portOn s p = true → stopping (getPort s p) = false →
          (getPort t p).ss.cause = (if sinDemand s then 0x13 else 0x0C) ∧
          (sw s 2 = false → sinDemand s = false → (getPort t p).ss.stage = 1 ∧ (getPort t p).ct = (getPort s p).ct) ∧
          (sw s 2 = true ∨ sinDemand s = true → (getPort t p).ss.stage = 2 ∧ (getPort t p).ct.chs = false ∧
            (getPort t p).ct.cls = false))) ∧
      Only [.boot, .link, .tabs, .ev, .ports, .safety, .fences, .pw] s t) ∧
  (∀ (s : State) (r : Bool), inFitted s r = true → (getIn s r).okDue = true → ksRun s = true →
    Runs (.safetyInputHealthy r) s fun t =>
    t.safety = (updIn r (fun q => { q with okDue := false }) s).safety ∧ Only [.link, .safety, .pw] s t) ∧
  (∀ (s : State) (r : Bool), inFitted s r = true → (getIn s r).a.on ≠ (getIn s r).b.on → (getIn s r).dis = false →
    discTicks s ≤ (getIn s r).disN → ksRun s = true → Runs (.discrepancy r) s fun t =>
      t.safety = (updIn r (fun q => { q with dis := true, disBoth := false }) s).safety ∧ Only [.link, .safety, .pw] s t) ∧
  (∀ (s : State) (r : Bool) (n : Nat), (getIn s r).since = some n → n + restartTicks s ≤ now s →
    (getIn s r).veto = true → (getIn s r).dis = false → r = true ∨ sw s 3 = false → ksRun s = true →
      Runs (.restartTimer r) s fun t =>
      t.safety = (updIn r (fun q => { q with veto := false }) s).safety ∧ Only [.safety] s t) ∧
  (∀ (s : State) (r : Bool), (getIn s r).since = none → exec (.restartTimer r) s = .next s) ∧
  (∀ s : State, s.safety.sokFault = false → 2 ≤ s.safety.sokA ∨ 2 ≤ s.safety.sokB →
    ksRun s = true → Runs .sokFault s fun t =>
      t.safety = { s.safety with sokFault := true, sok := false } ∧ Only [.link, .safety, .pw] s t) ∧
  (∀ (s : State) (w : Nat), s.safety.wordOk = true → s.safety.scanAt + 8000 ≤ now s → w < 65536 →
    w ≠ s.safety.word → s.safety.logged ≠ some w → s.cairn.queue = [] → ksRun s = true →
      Runs (.sealSwitchScan w w) s fun t =>
      t.safety = { s.safety with scanAt := now s, last := w, scan := 2, disSec := 0, logged := some w } ∧
      t.cairn.queue = [entryQ s 1 0x50 0xFF (le 2 s.safety.word ++ le 2 w)] ∧ Only [.link, .cairn, .safety, .pw] s t) ∧
  (∀ (s : State) (v w : Nat), s.safety.wordOk = true → s.safety.scanAt + 8000 ≤ now s → v < 65536 →
    w < 65536 → v ≠ w → s.safety.disSec = 2 → s.cairn.queue = [] → ksRun s = true → Runs (.sealSwitchScan v w) s fun t =>
      t.safety = { s.safety with scanAt := now s, last := v, scan := 1, disSec := 3 } ∧
      t.cairn.queue = [entryQ s 1 0x51 0xFF (le 2 v ++ le 2 w)] ∧ Only [.ev, .cairn, .safety] s t) ∧
  ∀ (s : State) (v w : Nat), s.safety.wordOk = true → s.safety.scanAt + 8000 ≤ now s → v < 65536 →
    w < 65536 → v ≠ w → s.safety.disSec < 2 → ksRun s = true → Runs (.sealSwitchScan v w) s fun t =>
      t.safety = { s.safety with scanAt := now s, last := v, scan := 1, disSec := s.safety.disSec + 1 } ∧
      t.ev.queue = s.ev.queue ++ [⟨0, 0x0801, 1, 0xFF, padTo 16 (le 2 v ++ le 2 w)⟩] ∧ Only [.ev, .safety] s t

/-! Lintel (10). -/

/-- LINTEL_STATUS and LINTEL_SET (10 R266, Tables HA-7, HA-8): 16 bytes for each port and 8 for each line; priority and
host maximum of one port are in force at once, 0xFF and 0xFFFF leave theirs. Where Lintel's computation of the tick still
waits, it is made first (10 R248, log 139). Refusals carry LENGTH 0 (log 31). -/
def Obligations.LintelCommands : Prop :=
  (∀ (s : State) (c : Nat), s.lintel.passDue = true →
    exec (.lintelStatus c) s = exec (.lintelStatus c) (lintelTick s) ∧
    exec (.lintelSet c) s = exec (.lintelSet c) (lintelTick s)) ∧
  (∀ (s : State) (c : Nat), s.lintel.passDue = false → Asked s c 0x0601 (len 0) → rdy s rKS = true →
    AnswersWith (.lintelStatus c) s c 0x0600 496 (fun pl =>
      (∀ p, p < 24 → fld pl (16 * p) 1 = p ∧ fld pl (16 * p + 4) 2 = (getPort s p).li.cap % 65536 ∧
        fld pl (16 * p + 10) 2 = (getPort s p).li.alloc % 65536) ∧
      (∀ k, k < 12 → fld pl (384 + 8 * k) 2 = limitInForce s (k / 3) (k % 3) % 65536) ∧
      ∀ l, l < 3 → fld pl (484 + 2 * l) 2 = siteShare s l % 65536) fun u => u = s) ∧
  (∀ (s : State) (c p pr hm : Nat), s.lintel.passDue = false → Asked s c 0x0602 (len 4) → rdy s rKS = true → fitted s p = true →
    p < s.ports.length → asks s c 0 1 = p → asks s c 1 1 = pr → asks s c 2 2 = hm → pr ≤ 7 ∨ pr = 0xFF →
    hm ≤ 800 ∨ hm = 0xFFFF → AnswersWith (.lintelSet c) s c 0x0600 8 (fun pl => fld pl 0 1 = p) fun u =>
      (getPort u p).li = { (getPort s p).li with
        prio := if pr = 0xFF then (getPort s p).li.prio else pr
        hostMax := if hm = 0xFFFF then (getPort s p).li.hostMax else hm } ∧ OnPort p [.ports] s u) ∧
  (∀ (s : State) (c p : Nat), s.lintel.passDue = false → Asked s c 0x0602 (len 4) → rdy s rKS = true →
    asks s c 0 1 = p → p < 24 → fitted s p = false → asks s c 1 1 ≤ 7 ∨ asks s c 1 1 = 0xFF →
    asks s c 2 2 ≤ 800 ∨ asks s c 2 2 = 0xFFFF →
    Answers (.lintelSet c) s c 0x0610 0) ∧
  ∀ (s : State) (c : Nat), s.lintel.passDue = false → Asked s c 0x0602 (len 4) → rdy s rKS = true →
    23 < asks s c 0 1 ∨ (7 < asks s c 1 1 ∧ asks s c 1 1 < 0xFF) ∨ (800 < asks s c 2 2 ∧ asks s c 2 2 < 0xFFFF) →
    Answers (.lintelSet c) s c 0x06F1 0

/-- What the allocation procedure gives (10 R252, R253): no target above its port's demand, none below 6.0 A but zero, and
on each line of a group and of the site the targets of the ports that draw on it together within what is available. -/
def Obligations.AllocationWithinLimits : Prop :=
  ∀ s : State,
    (∀ e ∈ (allocate s).1, takesPart s e.1 = true ∧ e.2 ≤ (getPort s e.1).li.demand ∧ (e.2 = 0 ∨ 60 ≤ e.2)) ∧
    ((∀ p, p < 24 → (portRes s p).Nodup) → ∀ k, k < 15 →
      (((allocate s).1.filter fun e => (portRes s e.1).contains k).map Prod.snd).sum ≤ nth (available s) k 0)

/-- Overload of a feeder, holds and rotation (10 R254 to R258): the warning from 0.5 until 0; at 1 the front of the order
that reaches the excess is stopped with cause 0x04 and its share kept; a hold ends when the current has come down. Where
Lintel's computation of the tick still waits, it is made first (10 R248, log 139). Outside its condition an event row
changes nothing (log 1). -/
def Obligations.FeederProtection : Prop :=
  (∀ (s : State) (g l : Nat), s.lintel.passDue = true → tickRun s = true →
    exec (.overloadWarning g l) s = exec (.overloadWarning g l) (lintelTick s) ∧
    exec (.feederOverloadStop g l) s = exec (.feederOverloadStop g l) (lintelTick s) ∧
    exec .rotatePointer s = exec .rotatePointer (lintelTick s)) ∧
  (∀ (s : State) (g l : Nat) (k : LineSt), s.lintel.passDue = false → g < 4 → l < 3 → 3 * g + l < s.lintel.lines.length →
    nth s.lintel.lines (3 * g + l) {} = k → k.warn = false → 1 / 2 ≤ k.acc → tickRun s = true →
      Runs (.overloadWarning g l) s fun t =>
      t.lintel = { s.lintel with lines := s.lintel.lines.set (3 * g + l) { k with warn := true } } ∧
      limitInForce t g l = groupLimit s g l * (100 - stopMargin s) / 100 ∧ Only [.link, .lintel, .pw] s t) ∧
  (∀ (s : State) (g l : Nat), s.lintel.passDue = false → g < 4 → l < 3 → 3 * g + l < s.lintel.lines.length →
    (nth s.lintel.lines (3 * g + l) {}).warn = true → (nth s.lintel.lines (3 * g + l) {}).acc = 0 →
    tickRun s = true → Runs (.overloadWarning g l) s fun t =>
      limitInForce t g l = groupLimit s g l ∧ (nth t.lintel.lines (3 * g + l) {}).warn = false ∧
      Only [.link, .lintel, .pw] s t) ∧
  (∀ (s : State) (g l : Nat), s.lintel.passDue = false → (nth s.lintel.lines (3 * g + l) {}).warn = true →
    0 < (nth s.lintel.lines (3 * g + l) {}).acc → exec (.overloadWarning g l) s = .next s) ∧
  (∀ (s : State) (g l : Nat), s.lintel.passDue = false → g < 4 → l < 3 → 3 * g + l < s.lintel.lines.length →
    s.ports.length = 24 →
    1 ≤ (nth s.lintel.lines (3 * g + l) {}).acc → (nth s.lintel.lines (3 * g + l) {}).sel = [] →
    tickRun s = true → Runs (.feederOverloadStop g l) s fun t =>
      let sel := (nth t.lintel.lines (3 * g + l) {}).sel
      sel = (stopOrder s g l).take sel.length ∧
      ((nth s.lintel.lines (3 * g + l) {}).meas - groupLimit s g l * (100 - stopMargin s) * 10 ≤
          (sel.map fun p => toMa10 (fastI2 s p (phaseOn s p l))).sum ∨ sel = stopOrder s g l) ∧
      (stopOrder s g l ≠ [] → sel ≠ []) ∧
      (∀ n, n < sel.length → 0 < n → ((sel.take n).map fun p => toMa10 (fastI2 s p (phaseOn s p l))).sum <
        (nth s.lintel.lines (3 * g + l) {}).meas - groupLimit s g l * (100 - stopMargin s) * 10) ∧
      (∀ p ∈ sel, (getPort t p).ss = { (getPort s p).ss with pend := if (getPort s p).ss.pend.contains 4
          then (getPort s p).ss.pend else (getPort s p).ss.pend ++ [4] } ∧
        (getPort t p).li.kept = true ∧ (getPort t p).li.alloc = (getPort s p).li.alloc) ∧
      (∀ p, p ∉ sel → getPort t p = getPort s p) ∧ Only [.link, .ports, .lintel, .pw] s t) ∧
  (∀ (s : State) (g l : Nat), s.lintel.passDue = false → (nth s.lintel.lines (3 * g + l) {}).sel ≠ [] →
    exec (.feederOverloadStop g l) s = .next s) ∧
  (∀ (s : State) (p : Nat), p < s.ports.length → (getPort s p).li.hold ≠ 0 →
    highCyc s p ≤ da2 ((getPort s p).li.alloc + 10) → tickRun s = true → Runs (.holdEnd p) s fun t =>
      (getPort t p).li = { (getPort s p).li with hold := 0, holdEdge := none } ∧ OnPort p [.ports] s t) ∧
  (∀ (s : State) (p : Nat), da2 ((getPort s p).li.alloc + 10) < highCyc s p → (getPort s p).li.holdEdge = none →
    exec (.holdEnd p) s = .next s) ∧
  (∀ (s : State) (cls : Nat), s.lintel.passDue = false → rotateS s ≠ 0 → s.lintel.rotAt + 8000 * rotateS s ≤ now s → cls < 8 →
    tickRun s = true → Runs .rotatePointer s fun t =>
      nth t.lintel.ptr cls 0 = (match nth s.lintel.lastAdm cls none with
        | some p => (p + 1) % 24
        | none => nth s.lintel.ptr cls 0) ∧ t.lintel.rotAt = now s ∧ Only [.lintel] s t) ∧
  ∀ s : State, s.lintel.passDue = false → rotateS s = 0 → tickRun s = true → Runs .rotatePointer s fun t =>
    t.lintel = { s.lintel with ptr := List.replicate 8 0 } ∧ Only [.lintel] s t

/-- The site budget at a superframe boundary (10 R262 to R265, 17 R420): a member takes its grant, under mixed epochs
never a higher one; the master's grants of a line never exceed SITE_LIMIT; four superframes without a grant, or a HUB_ID
above 12, leave FALLBACK. Outside its condition an event row changes nothing (log 1). -/
def Obligations.SiteBudget : Prop :=
  (∀ (s : State) (g : List Nat), s.lintel.due = true → budgetRole s = 1 → s.lintel.grant = some g →
    tickRun s = true → Runs .superframeStart s fun t =>
      t.lintel.share = takeGrant s g ∧ t.lintel.source = (if s.lintel.mixed then 2 else 1) ∧
      t.lintel.grant = none ∧ t.lintel.last = some g ∧ t.lintel.since = 0 ∧ t.lintel.due = false ∧
      (s.lintel.mixed = false → t.lintel.share = g) ∧
      (s.lintel.mixed = true → ∀ l, l < 3 → nth t.lintel.share l 0 ≤ nth s.lintel.share l 0) ∧
      Only [.link, .lintel, .pw] s t) ∧
  (∀ s : State, s.lintel.due = true → budgetRole s = 2 → s.lintel.conflict = 0 → hubId s ≤ 12 → 0 < hubId s →
    tickRun s = true → Runs .superframeStart s fun t =>
      (∀ l, l < 3 → ((List.range 32).map fun h => nth ((nth t.lintel.grants h none).getD []) l 0).sum ≤ siteLimit s) ∧
      t.lintel.grant = nth t.lintel.grants (hubId s - 1) none ∧ t.lintel.due = false ∧
      (∀ e ∈ t.lintel.demands, e.1 = false) ∧ Only [.link, .lintel, .pw] s t) ∧
  (∀ s : State, s.lintel.due = true → budgetRole s = 0 → tickRun s = true → Runs .superframeStart s fun t =>
    t.lintel.share = s.lintel.share ∧ t.lintel.superframe = s.lintel.superframe + 1 ∧ Only [.lintel] s t) ∧
  (∀ s : State, s.lintel.due = false → exec .superframeStart s = .next s) ∧
  (∀ s : State, s.lintel.source ≠ 3 →
    (budgetRole s = 1 ∧ 4 ≤ s.lintel.since ∧ (s.lintel.mixed = false ∨ s.lintel.last = none)) ∨
      (budgetRole s ≠ 0 ∧ 12 < hubId s) ∨ (budgetRole s = 2 ∧ s.lintel.conflict ≠ 0) →
    tickRun s = true → Runs .grantFallback s fun t =>
      t.lintel = { s.lintel with source := 3 } ∧ (∀ l, siteShare t l = fallbackDa s) ∧ Only [.link, .lintel, .pw] s t) ∧
  (∀ s : State, budgetRole s = 1 → hubId s ≤ 12 → s.lintel.mixed = true → s.lintel.last ≠ none →
    exec .grantFallback s = .next s) ∧
  (∀ s : State, budgetRole s = 1 → s.lintel.since < 4 → hubId s ≤ 12 → exec .grantFallback s = .next s) ∧
  (∀ (s : State) (e n : Nat), s.lintel.mixed = true → s.lintel.lowHeard = some (e, n) → 4 ≤ n → tickRun s = true →
    Runs .epochMixEnd s fun t =>
    t.lintel = { s.lintel with
      mixed := false, lowHeard := none, source := if s.lintel.source = 2 then 1 else s.lintel.source } ∧ Only [.link, .lintel, .pw] s t) ∧
  ∀ (s : State) (e n : Nat), s.lintel.lowHeard = some (e, n) → n < 4 → exec .epochMixEnd s = .next s

/-! Load switches (22). -/

/-- LS_SET, LS_STATUS, LS_CLEAR and LS_SENSE_SELECT (22 R494, R500, Tables LS-5 to LS-10): both halves of a pair follow; a
sum above 4.0 A, a latched, fenced or follower channel is refused. Refusals carry LENGTH 0 (log 31). -/
def Obligations.LoadSwitchCommands : Prop :=
  (∀ (s : State) (c k on lv : Nat), Asked s c 0x1201 (len 4) → rdy s rLS = true → asks s c 0 1 = k → asks s c 1 1 = on →
    asks s c 2 1 = lv → k < 16 → on ≤ 1 → lv ≤ 100 → lsRole s k ≠ 0 → lsRole s k ≠ 4 → lsLead s k = k →
    lsFenced s k = false → on = 1 → (getLs s k).latched = false → declaredWith s k ≤ 4000 → s.ls.chans.length = 16 →
    AnswersWith (.lsSet c) s c 0x1200 8 (fun pl => fld pl 0 1 = k ∧ fld pl 1 1 = on) fun u =>
      (∀ j ∈ lsBoth s k, getLs u j = { getLs s j with cmd := true, level := lv }) ∧
      (∀ j, j ∉ lsBoth s k → getLs u j = getLs s j) ∧ Only [.ls] s u) ∧
  (∀ (s : State) (c k : Nat), Asked s c 0x1201 (len 4) → rdy s rLS = true → asks s c 0 1 = k → asks s c 1 1 = 0 →
    asks s c 2 1 ≤ 100 → k < 16 → lsRole s k ≠ 0 → lsRole s k ≠ 4 → lsLead s k = k → lsFenced s k = false →
    s.ls.chans.length = 16 → AnswersWith (.lsSet c) s c 0x1200 8 (fun pl => fld pl 1 1 = 0) fun u =>
      (∀ j ∈ lsBoth s k, (getLs u j).cmd = false ∧ (getLs u j).latched = (getLs s j).latched) ∧ Only [.ls] s u) ∧
  (∀ (s : State) (c k : Nat), Asked s c 0x1201 (len 4) → rdy s rLS = true → asks s c 0 1 = k → asks s c 1 1 = 1 →
    asks s c 2 1 ≤ 100 → k < 16 → lsRole s k ≠ 0 → lsRole s k ≠ 4 → lsLead s k = k →
    (lsFenced s k = true → Answers (.lsSet c) s c 0x12F4 0) ∧
    (lsFenced s k = false → (getLs s k).latched = true → Answers (.lsSet c) s c 0x1212 0) ∧
    (lsFenced s k = false → (getLs s k).latched = false → 4000 < declaredWith s k → Answers (.lsSet c) s c 0x1210 0)) ∧
  (∀ (s : State) (c k : Nat), Asked s c 0x1201 (len 4) → rdy s rLS = true → asks s c 0 1 = k → asks s c 1 1 ≤ 1 →
    asks s c 2 1 ≤ 100 → k < 16 → lsRole s k = 0 ∨ lsRole s k = 4 ∨ lsLead s k ≠ k → Answers (.lsSet c) s c 0x1211 0) ∧
  (∀ (s : State) (c : Nat), Asked s c 0x1202 (len 0) → rdy s rLS = true →
    AnswersWith (.lsStatus c) s c 0x1200 200 (fun pl => fld pl 0 2 = vauxNow s % 65536 ∧
      fld pl 4 2 = declaredOn s % 65536 ∧ ∀ k, k < 16 → fld pl (8 + 12 * k) 1 = k ∧
        fld pl (11 + 12 * k) 1 = lsOut s k ∧ fld pl (14 + 12 * k) 2 = (getLs s k).sense % 65536) fun u => u = s) ∧
  (∀ (s : State) (c k : Nat), Asked s c 0x1203 (len 4) → asks s c 0 1 = k → k < 16 → lsFenced s k = false →
    (getLs s k).latched = true → s.ls.chans.length = 16 → AnswersWith (.lsClear c) s c 0x1200 4 (fun pl => fld pl 0 1 = k)
      fun u => (∀ j ∈ lsBoth s k, (getLs u j).latched = false ∧ (getLs u j).cmd = false ∧
          (getLs u j).out = (getLs s j).out) ∧ (∀ j, j ∉ lsBoth s k → getLs u j = getLs s j) ∧ Only [.ls] s u) ∧
  (∀ (s : State) (c k : Nat), Asked s c 0x1203 (len 4) → asks s c 0 1 = k → k < 16 → lsFenced s k = false →
    (getLs s k).latched = false → Answers (.lsClear c) s c 0x1213 0) ∧
  ∀ (s : State) (c k : Nat), Asked s c 0x1204 (len 4) → asks s c 0 1 = k → k < 16 ∨ k = 0xFF →
    AnswersWith (.lsSenseSelect c) s c 0x1200 4 (fun pl => fld pl 0 1 = k ∧ fld pl 1 1 = s.ls.sel % 256) fun u =>
      u.ls = { s.ls with sel := k } ∧ Only [.ls] s u

/-- What load channels do by themselves (22 R497 to R506): the latch outside a window, the fold-back of one channel above
4.0 A and its end below 3.8 A, open load after three readings, hold-down on a dip and the return one channel each 1 ms.
Outside its condition an event row changes nothing (log 1). -/
def Obligations.LoadSwitchEvents : Prop :=
  (∀ (s : State) (c cause ma : Nat), c < 16 → (getLs s c).out = true → (getLs s c).latched = false →
    cause = 2 ∨ (cause = 1 ∧ (getLs s c).win = none) → s.ls.chans.length = 16 → Runs (.lsLatch c cause ma) s fun t =>
      (∀ j ∈ lsBoth s c, getLs t j = { getLs s j with
        latched := true, out := false, win := none, fold := none, sense := 0xFFF
        latches := satAdd 0xFF (getLs s j).latches 1 }) ∧
      (∀ j, j ∉ lsBoth s c → getLs t j = getLs s j) ∧
      t.ev.queue = s.ev.queue ++ [⟨0, 0x1201, 5, 0xFF, padTo 16 ([1] ++ le 2 cause ++ le 4 ma)⟩] ∧
      Only [.link, .ev, .ls, .pw] s t) ∧
  (∀ (s : State) (c ma : Nat), (getLs s c).win ≠ none → exec (.lsLatch c 1 ma) s = .next s) ∧
  (∀ (s : State) (ma : List Nat) (c lim : Nat), 4000 < ma.foldl (· + ·) 0 → foldChoice s ma = some (c, lim) →
    c < s.ls.chans.length → Runs (.globalFoldback ma) s fun t =>
      getLs t c = { getLs s c with fold := some lim } ∧ (∀ j, j ≠ c → getLs t j = getLs s j) ∧
      Only [.link, .ev, .ls, .pw] s t) ∧
  (∀ (s : State) (ma : List Nat), ma.foldl (· + ·) 0 ≤ 4000 → exec (.globalFoldback ma) s = .next s) ∧
  (∀ (s : State) (sum : Nat), sum < 3800 → s.ls.chans.length = 16 → Runs (.foldbackEnd sum) s fun t =>
    (∀ c, c < 16 → getLs t c = { getLs s c with fold := none }) ∧ t.ls = { s.ls with chans := t.ls.chans } ∧
    Only [.link, .ev, .ls, .pw] s t) ∧
  (∀ (s : State) (sum : Nat), 3800 ≤ sum → exec (.foldbackEnd sum) s = .next s) ∧
  (∀ (s : State) (c e : Nat), c < s.ls.chans.length → (getLs s c).win = some e → e ≤ now s →
    Runs (.inrushWindowEnd c) s fun t =>
      t.ls = { s.ls with chans := s.ls.chans.set c { getLs s c with win := none } } ∧ Only [.ls] s t) ∧
  (∀ (s : State) (c : Nat), c < 16 → s.ls.chans.length = 16 → lsLead s c = c → now s % 16 = c →
    (getLs s c).held = false ∨ rdy s rLS = true → s.clk.busRun = true → Runs (.lsPeriodStart c) s fun t =>
      (∀ j ∈ lsBoth s c, (getLs t j).duty = (if (getLs s j).out then (lsDuty s c).1 else 0) ∧
        (getLs t j).out = (getLs s j).out ∧ (getLs t j).cmd = (getLs s j).cmd) ∧
      (∀ j, j ∉ lsBoth s c → getLs t j = getLs s j) ∧ Only [.ls] s t) ∧
  (∀ (s : State) (c : Nat), now s % 16 ≠ c % 16 → lsLead s c = c → exec (.lsPeriodStart c) s = .next s) ∧
  (∀ (s : State) (c : Nat) (b : Bool), c < 16 → c < s.ls.chans.length → lsFlag s c 2 = true → (getLs s c).out = false →
    (getLs s c).latched = false → s.clk.busRun = true → Runs (.openLoadCheck c b) s fun t =>
      (getLs t c).openLoad = (if 2 ≤ (getLs s c).openN then b else (getLs s c).openLoad) ∧
      (getLs t c).openN = (if b ≠ (getLs s c).openLoad ∧ (getLs s c).openN < 2 then (getLs s c).openN + 1 else 0) ∧
      (∀ j, j ≠ c → getLs t j = getLs s j) ∧ Only [.link, .ev, .ls, .pw] s t) ∧
  (∀ (s : State) (mv : Nat), s.ls.hold = false → Runs (.vauxDip mv) s fun t =>
    t.ls.hold = true ∧ t.ls.resume = [] ∧ (∀ q ∈ t.ls.chans, q.out = false ∧ q.win = none ∧ q.fold = none) ∧
    t.ls.chans.map LsCh.cmd = s.ls.chans.map LsCh.cmd ∧ Only [.link, .ev, .ls, .pw] s t) ∧
  (∀ (s : State) (mv : Nat), s.ls.hold = true → Runs (.holdDownEnd mv) s fun t =>
    t.ls = { s.ls with
      hold := false, resumeAt := now s, resume := (List.range 16).filter fun c => (getLs s c).cmd } ∧
    Only [.link, .ev, .ls, .pw] s t) ∧
  (∀ (s : State) (c : Nat) (cs : List Nat), s.ls.resume = c :: cs → c ∉ cs → s.ls.resumeAt ≤ now s → s.ls.hold = false →
    c < 16 → c < s.ls.chans.length → (getLs s c).cmd = true → (getLs s c).latched = false → (getLs s c).parked = false →
    lsFenced s c = false → Runs .lsResume s fun t =>
      t.ls.resume = cs ∧ t.ls.resumeAt = now s + 8 ∧ (getLs t c).out = true ∧
      (∀ j, j ≠ c → getLs t j = getLs s j) ∧ Only [.ls] s t) ∧
  (∀ (s : State) (c d : Nat), c < 16 → c < s.ls.chans.length → (getLs s c).tested = false → fencedB s 6 c = false →
    d ≠ c → d < s.ls.chans.length → (getLs s d).tested = false → (getLs s d).held = false →
    s.clk.busRun = true → Runs (.lsStartupTest c true) s fun t =>
      t.ls = { s.ls with chans := s.ls.chans.set c { getLs s c with tested := true } } ∧ Only [.ls] s t) ∧
  (∀ (s : State) (c : Nat), c < 16 → (getLs s c).tested = false → fencedB s 6 c = false →
    s.clk.busRun = true → Runs (.lsStartupTest c false) s fun t =>
      fencedB t 6 c = true ∧ requestedB t 6 c = false ∧ (c < s.ls.chans.length → (getLs t c).sense = 0xFFF) ∧
      Only [.boot, .link, .ev, .fences, .ls, .pw] s t) ∧
  ∀ (s : State) (c : Nat), c < 16 → s.ls.chans.length = 16 → (getLs s c).tested = false → fencedB s 6 c = false →
    (∀ d, d < 16 → d ≠ c → (getLs s d).tested = true ∨ (getLs s d).held = true) → s.boot.phase ≠ .reset →
    rdy s rLS = false → tabLoaded s 0x1201 = true → s.clk.busRun = true → Runs (.lsStartupTest c true) s fun t =>
      rdy t rLS = true ∧ (∀ d, d < 16 → (getLs t d).cmd = (getLs s d).held) ∧ Only [.boot, .link, .ls] s t

/-! Fences, spares and availability (25). -/

/-- The fencing commands (25 R541, R542, R545, R546, Tables SP-5 to SP-9): a conducting port first stops, cause 0x01; a
port that does not conduct is fenced at once, by request; only a requested fence of Keystone's domains is lifted. Outside
its condition an event row changes nothing (log 1). Refusals carry LENGTH 0 (log 31). -/
def Obligations.FenceCommands : Prop :=
  (∀ (s : State) (c p : Nat), Asked s c 0x1501 (len 4) → asks s c 0 1 = 0 → asks s c 1 1 = p → asks s c 2 2 = 0 →
    p < 24 → p < s.ports.length → rdy s rKS = true → anyOn (getPort s p) = true → portOn s p = true →
    (getPort s p).ss.stage = 0 →
    AnswersWith (.fenceRequest c) s c 0x1500 4 (fun pl => fld pl 0 1 = 0 ∧ fld pl 1 1 = p ∧ fld pl 2 1 = 1) fun u =>
      (getPort u p).ss.stage = 1 ∧ (getPort u p).ss.cause = 1 ∧ (getPort u p).ss.fence = some (0, 0, true) ∧
      (getPort u p).ct = (getPort s p).ct ∧ u.fences = s.fences ∧ OnPort p [.link, .ev, .ports, .pw] s u) ∧
  (∀ (s : State) (c d i : Nat), Asked s c 0x1501 (len 4) → asks s c 0 1 = d → asks s c 1 1 = i → asks s c 2 2 = 0 →
    d = 5 ∨ d = 7 ∨ d = 8 ∨ d = 9 → i < fenceCnt d → fencedB s d i = false →
    AnswersWith (.fenceRequest c) s c 0x1500 4 (fun pl => fld pl 0 1 = d ∧ fld pl 1 1 = i ∧ fld pl 2 1 = 0) fun u =>
      fencedB u d i = true ∧ requestedB u d i = true ∧
      (∀ b, b ≠ fenceOff d + i → u.fences.map.getLsbD b = s.fences.map.getLsbD b) ∧
      u.ports = s.ports ∧ Only [.boot, .link, .ev, .fences, .pw] s u) ∧
  (∀ (s : State) (c : Nat), Asked s c 0x1501 (len 4) →
    (asks s c 0 1 = 11 ∨ (asks s c 0 1 = 10 ∧ asks s c 1 1 = c) → Answers (.fenceRequest c) s c 0x1513 0) ∧
    (asks s c 0 1 < 10 → fenceCnt (asks s c 0 1) ≤ asks s c 1 1 → Answers (.fenceRequest c) s c 0x15F1 0)) ∧
  (∀ (s : State) (c p : Nat), Asked s c 0x1502 (len 4) → asks s c 0 1 = 0 → asks s c 1 1 = p → asks s c 2 2 = 0 →
    p < 24 → p < s.ports.length → fencedB s 0 p = true → requestedB s 0 p = true → (getPort s p).byGroup = false →
    AnswersWith (.fenceLift c true) s c 0x1500 12 (fun pl => fld pl 1 1 = p ∧ fld pl 4 8 = now s % 2 ^ 64) fun u =>
      fencedB u 0 p = false ∧ requestedB u 0 p = false ∧ (getPort u p).fenceBy = none ∧
      (∀ b, b ≠ p → u.fences.map.getLsbD b = s.fences.map.getLsbD b) ∧
      OnPort p [.link, .ev, .ports, .fences, .pw] s u) ∧
  (∀ (s : State) (c d i : Nat) (ok : Bool), Asked s c 0x1502 (len 4) → asks s c 0 1 = d → asks s c 1 1 = i →
    asks s c 2 2 = 0 → d ≤ 11 → i < fenceCnt d →
    (fencedB s d i = false → Answers (.fenceLift c ok) s c 0x1512 0) ∧
    (fencedB s d i = true → d < 4 → requestedB s d i = false → Answers (.fenceLift c ok) s c 0x1510 0) ∧
    (fencedB s d i = true → 3 < d → ok = false ∨ d = 11 → Answers (.fenceLift c ok) s c 0x1511 0)) ∧
  (∀ (s : State) (c : Nat), Asked s c 0x1503 (len 0) → rdy s rAP = true → s.meter.lanes.map.length = 28 →
    s.fences.rows.length = 16 → AnswersWith (.sparesStatus c) s c 0x1500 96 (fun pl =>
      (∀ l, l < 28 → fld pl l 1 = nth s.meter.lanes.map l 0 % 256) ∧ fld pl 28 1 = (freeLanes s).length ∧
      fld pl 48 4 = s.fences.corrected % 2 ^ 32 ∧ fld pl 64 32 = s.fences.requested.toNat) fun u => u = s) ∧
  (∀ (s : State) (c cls : Nat), Asked s c 0x1504 (len 4) → rdy s rAP = true → asks s c 0 1 = cls → cls ≤ 1 →
    s.ports.length = 24 → AnswersWith (.availRead c) s c 0x1500 976 (fun pl =>
      fld pl 0 1 = cls ∧ ∀ p, p < 24 →
        let a := if cls = 0 then (getPort s p).year else (getPort s p).life
        fld pl (16 + 40 * p) 8 = a.mains % 2 ^ 64 ∧ fld pl (24 + 40 * p) 8 = a.unavail % 2 ^ 64) fun u => u = s) ∧
  (∀ s : State, s.rtc.valid = true → yearOf s.fences.yearStart < yearOf s.rtc.sec → Runs .availYearRestart s fun t =>
    t.fences = { s.fences with yearStart := s.rtc.sec } ∧ t.ports = s.ports.map (fun q => { q with year := {} }) ∧
    Only [.ports, .fences] s t) ∧
  ∀ s : State, s.rtc.valid = false → exec .availYearRestart s = .next s

/-- Spares (01 R26 to R31, 05 R157, 25 R542, R543): the spare converter takes over a failed slot list; a lane that alone
gives a wrong known answer is withdrawn and its spare carries the port; Keystone lifts its fence by its conditions.
Outside its condition an event row changes nothing (log 1). -/
def Obligations.SpareTakeover : Prop :=
  (∀ (s : State) (k : Nat), k < 5 → s.meter.sars.length = 6 → (getSar s k).role = 0 → (getSar s k).carries = k →
    2 ≤ (getSar s k).run → (getSar s 5).role = 1 → fencedB s 2 k = false → tickRun s = true →
      Runs (.sarSpareTakeover k) s fun t =>
      (getSar t 5).role = 2 ∧ (getSar t 5).carries = k ∧ (getSar t k).role = 3 ∧ fencedB t 2 k = true ∧
      (∀ p, (getPort t p).ss = (getPort s p).ss) ∧ Only [.link, .ev, .meter, .ports, .fences, .pw] s t) ∧
  (∀ (s : State) (k : Nat), (getSar s k).run < 2 → exec (.sarSpareTakeover k) s = .next s) ∧
  (∀ s : State, s.meter.sars.length = 6 → (getSar s 5).role = 1 → (getSar s 5).carries = 0xFF → 2 ≤ (getSar s 5).run →
    fencedB s 2 5 = false → tickRun s = true → Runs .sar5Fail s fun t =>
      (getSar t 5).role = 3 ∧ fencedB t 2 5 = true ∧ (∀ p, (getPort t p).ss = (getPort s p).ss) ∧
      Only [.link, .ev, .meter, .ports, .fences, .pw] s t) ∧
  (∀ (s : State) (l sp p : Nat), l < 28 → sp < 28 → l ≠ sp → s.meter.lanes.map.length = 28 →
    s.meter.lanes.withdrawn.length = 28 → nth s.meter.lanes.map l 0xFF = p → p ≠ 0xFF → laneFree s sp = true →
    nth s.meter.lanes.shadow sp 0xFF = l → fencedB s 3 l = false →
    orRun s = true → Runs (.laneMismatch l sp false true) s fun t =>
      nth t.meter.lanes.map sp 0xFF = p ∧ nth t.meter.lanes.map l 0xFF = 0xFF ∧ fencedB t 3 l = true ∧
      nth t.meter.lanes.withdrawn l 0 = nth s.meter.lanes.withdrawn l 0 + 1 ∧ (∀ q, (getPort t q).ss = (getPort s q).ss) ∧
      Only [.link, .ev, .meter, .ports, .fences, .pw] s t) ∧
  (∀ (s : State) (l sp p : Nat), l < 28 → sp < 28 → nth s.meter.lanes.map l 0xFF = p → p ≠ 0xFF → laneFree s sp = true →
    nth s.meter.lanes.shadow sp 0xFF = l → orRun s = true → Runs (.laneMismatch l sp true true) s fun t =>
      t.ev.queue = s.ev.queue ++ [⟨0, 0x0302, 2, p, padTo 16 [byteOf l, byteOf sp]⟩] ∧ Only [.ev] s t) ∧
  (∀ s : State, freeLanes s ≠ [] → activeLanes s ≠ [] → s.meter.lanes.rotTick + 8000 ≤ now s →
    orRun s = true → Runs .laneShadowRotate s fun t =>
      t.meter.lanes.map = s.meter.lanes.map ∧ t.meter.lanes.rotTick = now s ∧ Only [.meter] s t) ∧
  (∀ (s : State) (f : List Nat), freeLanes s = [] → s.meter.lanes.rotTick + 8000 ≤ now s →
    (∀ l ∈ activeLanes s, l ∉ f) → orRun s = true → Runs (.laneSelfCheck f) s fun t =>
      t.meter = { s.meter with lanes := { s.meter.lanes with rotTick := now s } } ∧ Only [.meter] s t) ∧
  (∀ (s : State) (p : Nat), p < 24 → p < s.ports.length → portLift s p = true → ksRun s = true →
    Runs (.fenceLiftAuto 0 p) s fun t =>
    fencedB t 0 p = false ∧ (getPort t p).fenceBy = none ∧ (getPort t p).ct.welded = false ∧
    OnPort p [.link, .ev, .ports, .fences, .pw] s t) ∧
  ∀ (s : State) (p : Nat), requestedB s 0 p = true → exec (.fenceLiftAuto 0 p) s = .next s

/-! Metering front end and quantities (05, 06). -/

/-- The reading commands, PATH_HOLD and PULSE_SELECT (05 R159, 06 R180, R181, Tables MF-14, MF-15, MQ-12 to MQ-15): what
is read is that of the state; a hold waits for the next crossing; a selection waits for the next tick. Refusals carry
LENGTH 0 (log 31). -/
def Obligations.MeterCommands : Prop :=
  (∀ (s : State) (c : Nat), Asked s c 0x0301 (len 0) → rdy s rOR = true → s.meter.sars.length = 6 →
    s.meter.lanes.map.length = 28 → s.meter.grps.length = 4 → s.meter.phs.length = 72 →
    AnswersWith (.frontEndStatus c) s c 0x0300 792 (fun pl => ∀ k, k < 112 →
      fld pl (4 * k) 1 = streamState s k ∧ fld pl (4 * k + 2) 2 = (getStream s k).subst % 65536) fun u => u = s) ∧
  (∀ (s : State) (c p x m d : Nat), Asked s c 0x0302 (len 8) → asks s c 0 1 = p → asks s c 1 1 = x → asks s c 2 1 = m →
    asks s c 4 4 = d → p ≤ 23 → x ≤ 3 → m ≤ 2 → m = 0 ∨ (1 ≤ d ∧ d ≤ 3600) → rdy s p = true →
    (sealPort s = true → s.meter.phs.length = 72 →
      AnswersWith (.pathHold c) s c 0x0300 8 (fun pl => fld pl 0 1 = p) fun u =>
        (∀ y, y < 3 → x = 3 ∨ x = y → getPh u p y = { getPh s p y with holdReq := some (m, d) }) ∧
        (∀ q y, y < 3 → q ≠ p ∨ (x ≠ 3 ∧ x ≠ y) → getPh u q y = getPh s q y) ∧
        u.meter = { s.meter with phs := u.meter.phs } ∧ Only [.meter] s u) ∧
    (sealPort s = false → Answers (.pathHold c) s c 0x03F2 0)) ∧
  (∀ (s : State) (c p set : Nat), Asked s c 0x0303 (len 4) → rdy s rOR = true → asks s c 0 1 = p → asks s c 1 1 = set →
    p ≤ 23 → set ≤ 1 →
    (fitted s p = false → Answers (.readPort c) s c 0x0313 0) ∧
    (fitted s p = true → (∃ x, x < 3 ∧ (getPh s p x).vals = none) → Answers (.readPort c) s c 0x0314 0) ∧
    (fitted s p = true → (∀ x, x < 3 → (getPh s p x).vals ≠ none) →
      AnswersWith (.readPort c) s c 0x0300 104 (fun pl => fld pl 0 1 = p ∧ fld pl 1 1 = set ∧
        (fld pl 2 2).testBit 0 = (if set = 0 then s.rind.mag else (getGrp s (groupOf s p)).valMag) ∧
        ∀ x, x < 3 → fld pl (16 + 24 * x) 4 = toMa10 (valsSet s p x set).i2 % 2 ^ 32) fun u => u = s)) ∧
  (∀ (s : State) (c g : Nat), Asked s c 0x0304 (len 4) → asks s c 0 1 = g → g ≤ 3 →
    grpFitted s g = true → rdy s (rVG + g) = true → (getGrp s g).urms ≠ [] →
    AnswersWith (.readGroup c) s c 0x0300 60 (fun pl => fld pl 0 1 = g ∧
      fld pl 1 1 = (if (getGrp s g).sub then 0xFF else (getGrp s g).ref % 256)) fun u => u = s) ∧
  (∀ (s : State) (c : Nat), Asked s c 0x0304 (len 4) → asks s c 0 1 = 0xFF → rdy s rOR = true →
    AnswersWith (.readGroup c) s c 0x0300 60 (fun pl => pl.take 36 = zeros 36) fun u => u = s) ∧
  (∀ (s : State) (c p h : Nat), Asked s c 0x0305 (len 4) → rdy s rOR = true → asks s c 0 1 = p → asks s c 1 1 = h →
    p ≤ 23 → h < 3 → fitted s p = true →
    ((getPh s p h).harm.cycles = 0 → Answers (.readHarmonics c) s c 0x0314 0) ∧
    ((getPh s p h).harm.cycles ≠ 0 → AnswersWith (.readHarmonics c) s c 0x0300 176 (fun pl => fld pl 0 1 = p ∧
      fld pl 2 1 = (getPh s p h).harm.cycles % 256 ∧ (fld pl 3 1).testBit 0 = (getPh s p h).harm.valid) fun u => u = s)) ∧
  (∀ (s : State) (c p l : Nat), Asked s c 0x0305 (len 4) → rdy s rOR = true → asks s c 0 1 = p → asks s c 1 1 = 4 + l →
    l < 3 → fitted s p = true → (nth (getGrp s (groupOf s p)).harms l {}).cycles ≠ 0 →
    AnswersWith (.readHarmonics c) s c 0x0300 176 (fun pl => fld pl 0 1 = p ∧ fld pl 1 1 = 4 + l ∧
      fld pl 2 1 = (nth (getGrp s (groupOf s p)).harms l {}).cycles % 256) fun u => u = s) ∧
  ∀ (s : State) (c o p d : Nat), Asked s c 0x0306 (len 4) → rdy s rPulse = true → asks s c 0 1 = o → asks s c 1 1 = p →
    asks s c 2 1 = d → o ≤ 1 → d ≤ 2 → fitted s p = true ∨ p = 24 ∨ p = 0xFF →
    o < s.meter.pulses.length → s.cairn.queue = [] →
    AnswersWith (.pulseSelect c) s c 0x0300 16 (fun pl => fld pl 4 4 = pulseConst s p % 2 ^ 32 ∧
      fld pl 8 4 = (getPulse s o).pulses % 2 ^ 32) fun u =>
      getPulse u o = { getPulse s o with next := some { source := p, phase := 0xFF, dir := d }, pulses := 0 } ∧
      (∀ k, k ≠ o → getPulse u k = getPulse s k) ∧
      u.cairn.queue = (if (pulseSel (getPulse s o)).phase = 0xFF then []
        else [entryQ s 0 0x16 (pulseSel (getPulse s o)).source [byteOf o, 0xFF, byteOf (pulseSel (getPulse s o)).dir]]) ∧
      Only [.cairn, .meter] s u

/-- What the ends of mains cycles and of windows leave (05 R143, R159, 06 R163, R166, R169, R170, R174): the values of the
ended cycle alone; a cycle without a crossing gives no period; suppression below 15 mA. Outside its condition an event row
changes nothing (log 1). -/
def Obligations.CycleEnds : Prop :=
  (∀ (s : State) (g : Nat) (e : CycEnd), g < 4 → g < s.meter.grps.length → s.meter.phs.length = 72 →
    (getGrp s g).ended = some e → e.kind = 0 → orRun s = true → Runs (.zeroCrossing g) s fun t =>
      (getGrp t g).ended = none ∧ (getGrp t g).urms = cycleUrms s g e ∧ (getGrp t g).valTick = e.tick ∧
      ((refLine s g (cycleUrms s g e)).isSome = true → (getGrp t g).cross = some (crossTime e) ∧
        ∀ c, (getGrp s g).cross = some c →
          (getGrp t g).periods = ((crossTime e - c) :: (getGrp s g).periods).take 8) ∧
      (refLine s g (cycleUrms s g e) = none → (getGrp t g).cross = none ∧ (getGrp t g).periods = [] ∧
        (getGrp t g).freq = 0 ∧ (getGrp t g).sub = true) ∧
      (∀ h, h ≠ g → getGrp t h = getGrp s h) ∧
      (∀ p x, p < 24 → x < 3 → fitted s p = true → groupOf s p = g →
        (getPh t p x).vals ≠ none ∧ (getPh t p x).supp = decide (cycI2 t p x < 150 * 150) ∧
          (getPh t p x).holdReq = none) ∧
      (∀ p, groupOf s p ≠ g → getPort t p = getPort s p) ∧ Only [.cairn, .meter, .cal, .ports] s t) ∧
  (∀ (s : State) (g : Nat) (e : CycEnd), g < 4 → g < s.meter.grps.length → (getGrp s g).ended = some e → e.kind = 1 →
    orRun s = true → Runs (.cycleTimeout g) s fun t =>
      (getGrp t g).ended = none ∧ (getGrp t g).cross = none ∧ (getGrp t g).periods = [] ∧ (getGrp t g).freq = 0 ∧
      (getGrp t g).goodN = 0 ∧ (getGrp t g).win = none ∧ (∀ h, h ≠ g → getGrp t h = getGrp s h) ∧
      Only [.cairn, .meter, .cal, .ports] s t) ∧
  (∀ (s : State) (g : Nat) (e : CycEnd), g < 4 → g < s.meter.grps.length → (getGrp s g).ended = some e → e.kind = 2 →
    orRun s = true → Runs (.substituteCycleEnd g) s fun t =>
      (getGrp t g).ended = none ∧ (getGrp t g).cross = none ∧ (getGrp t g).periods = [] ∧ (getGrp t g).freq = 0 ∧
      (getGrp t g).urms = cycleUrms s g e ∧ (getGrp t g).win = none ∧ (∀ h, h ≠ g → getGrp t h = getGrp s h) ∧
      Only [.cairn, .meter, .cal, .ports] s t) ∧
  (∀ (s : State) (g : Nat), (getGrp s g).ended = none → exec (.zeroCrossing g) s = .next s ∧
    exec (.cycleTimeout g) s = .next s ∧ exec (.substituteCycleEnd g) s = .next s) ∧
  (∀ (s : State) (g : Nat) (w : HWin), g < s.meter.grps.length → s.meter.phs.length = 72 → (getGrp s g).winDone = some w →
    orRun s = true → Runs (.harmonicWindowEnd g) s fun t =>
      (getGrp t g).winDone = none ∧ (getGrp t g).win = (getGrp s g).win ∧
      (∀ p x, p < 24 → x < 3 → fitted s p = true → groupOf s p = g →
        (getPh t p x).harm.cycles = w.cycles ∧ (getPh t p x).harm.endTick = (getGrp s g).valTick ∧
        (getPh t p x).harm.mag = s.rind.mag ∧
        (getPh t p x).harm.valid = (decide (w.hi - w.lo ≤ 5000) && !laneSub s p w)) ∧
      (∀ l, l < 3 → (nth (getGrp t g).harms l {}).cycles = w.cycles ∧
        (nth (getGrp t g).harms l {}).valid = (decide (w.hi - w.lo ≤ 5000) && !w.sub)) ∧
      (∀ h, h ≠ g → getGrp t h = getGrp s h) ∧ Only [.meter] s t) ∧
  ∀ (s : State) (g : Nat), (getGrp s g).winDone = none → exec (.harmonicWindowEnd g) s = .next s

/-- Supply events and stream faults (05 R148 to R150, 06 R174, R177, R178): an event that stops the group vetoes it and
starts safe stop with cause 0x08 on its conducting ports; a failed phase current stops its port with cause 0x0A and fences
it; an overrange of a phase current is an overcurrent. Outside its condition an event row changes nothing (log 1). -/
def Obligations.SupplyAndStreamFaults : Prop :=
  (∀ (s : State) (g ev : Nat) (k : SupEv), g < 4 → g < s.meter.grps.length → s.ports.length = 24 →
    (getGrp s g).evs.zipIdx.find? (fun e => e.1.due != 0) = some (k, ev) → k.due = 1 → s.cairn.queue = [] →
    orRun s = true → Runs (.supplyEventChange g) s fun t =>
      nth (getGrp t g).evs ev {} = { k with on := true, stops := evStops s g ev, due := 0, setN := 0, clrN := 0 } ∧
      (∀ h, h ≠ g → getGrp t h = getGrp s h) ∧
      t.cairn.queue = (if evCairn ev then [entryQ s 0 0x20 (0x80 + g) ([byteOf ev, 1] ++ le 4 0)] else []) ∧
      (evStops s g ev = true → (getGrp t g).veto = true ∧ (getGrp t g).vetoEnd = none ∧
        ∀ p, fitted s p = true → groupOf s p = g → portOn s p = true → (getPort s p).ss.stage = 0 →
          (getPort t p).ss.stage = 1 ∧ (getPort t p).ss.cause = 8) ∧
      (evStops s g ev = false → t.ports = s.ports) ∧
      Only [.link, .ev, .cairn, .meter, .ports, .pw] s t) ∧
  (∀ (s : State) (g ev : Nat) (k : SupEv), g < 4 → g < s.meter.grps.length →
    (getGrp s g).evs.zipIdx.find? (fun e => e.1.due != 0) = some (k, ev) → k.due = 2 → orRun s = true →
      Runs (.supplyEventChange g) s fun t =>
      (nth (getGrp t g).evs ev {}).on = false ∧ (nth (getGrp t g).evs ev {}).due = 0 ∧ t.ports = s.ports ∧
      t.ev.queue = s.ev.queue ++
        [⟨0, 0x0301, 2, 0x80 + g, padTo 16 ([byteOf ev, 0] ++ zeros 2 ++ le 4 (evValue ev k))⟩] ∧
      Only [.link, .ev, .cairn, .meter, .pw] s t) ∧
  (∀ (s : State) (g : Nat), (getGrp s g).evs.zipIdx.find? (fun e => e.1.due != 0) = none →
    exec (.supplyEventChange g) s = .next s) ∧
  (∀ (s : State) (k : Nat), k < s.meter.streams.length → streamFit s k = true → s.clk.xref = true →
    (getStream s k).cond = 0 → tickRun s = true → Runs (.streamFault k 1) s fun t =>
      getStream t k = { getStream s k with cond := 1, clear := 0 } ∧ (∀ j, j ≠ k → getStream t j = getStream s j) ∧
      Only [.meter] s t) ∧
  (∀ (s : State) (k p : Nat), k < 96 → k % 4 ≠ 3 → k / 4 = p → k < s.meter.streams.length → p < s.ports.length →
    streamFit s k = true → s.clk.xref = true → (getStream s k).cond < 2 → anyOn (getPort s p) = true →
    (getPort s p).ss.stage = 0 → tickRun s = true → Runs (.streamFault k 2) s fun t =>
      (getStream t k).cond = 2 ∧ (getPort t p).ct.vOver = true ∧ (getPort t p).ct.chs = false ∧
      (getPort t p).ct.cls = false ∧ (getPort t p).ss.stage = 2 ∧ (getPort t p).ss.cause = 0x14 ∧
      OnPort p [.link, .ev, .meter, .ports, .safety, .pw] s t) ∧
  (∀ (s : State) (k c : Nat), c ≤ (getStream s k).cond → exec (.streamFault k c) s = .next s) ∧
  (∀ (s : State) (k : Nat), k < 96 → k % 4 ≠ 3 → k < s.meter.streams.length → streamFit s k = true →
    (getStream s k).biasDone = false → 512 ≤ (getStream s k).winTicks → (getStream s k).winN ≠ 0 →
    tickRun s = true → Runs (.biasWindowEnd k) s fun t =>
      (getStream t k).biasDone = true ∧ (getStream t k).biasOk = !biasOff (getStream s k) ∧
      (getStream t k).winTicks = 0 ∧ (∀ j, j ≠ k → getStream t j = getStream s j) ∧ Only [.meter] s t) ∧
  (∀ (s : State) (k : Nat), 96 ≤ k ∨ ((getStream s k).biasDone = true ∧ k % 4 ≠ 3) → k < s.meter.streams.length →
    streamFit s k = true → 8000 ≤ (getStream s k).winTicks → (getStream s k).winN ≠ 0 →
    biasOff (getStream s k) = true → tickRun s = true → Runs (.biasWindowEnd k) s fun t =>
      (getStream t k).biasBad = (getStream s k).biasBad + 1 ∧
      (2 ≤ (getStream s k).biasBad → (getStream t k).biasFail = true) ∧
      (∀ j, j ≠ k → getStream t j = getStream s j) ∧ Only [.meter] s t) ∧
  (∀ (s : State) (k p : Nat), k < 96 → k % 4 ≠ 3 → k / 4 = p → k < s.meter.streams.length → p < s.ports.length →
    streamFit s k = true → (getStream s k).failed = false → 8 ≤ (getStream s k).mark → anyOn (getPort s p) = true →
    (getPort s p).ss.stage = 0 → tickRun s = true → Runs (.streamFailed k) s fun t =>
      (getStream t k).failed = true ∧ (getPort t p).ss.stage = 1 ∧ (getPort t p).ss.cause = 0x0A ∧
      (getPort t p).ss.fence = some (2, k, false) ∧ (getPort t p).ct = (getPort s p).ct ∧
      OnPort p [.link, .ev, .meter, .ports, .pw] s t) ∧
  ∀ (s : State) (k : Nat), (getStream s k).mark < 8 → (getStream s k).biasFail = false →
    exec (.streamFailed k) s = .next s

/-! Calibration (07). -/

/-- The calibration commands and the band (07 R192 to R194, R198, R199, R201, Tables CA-6 to CA-11): nothing is staged or
committed with the seal shut or by another channel; a commit is answered with its last record; a discard drops the staged
blocks of a target or all. Outside its condition an
event row changes nothing (log 1). Refusals carry LENGTH 0 (log 31). -/
def Obligations.CalibrationCommands : Prop :=
  (∀ (s : State) (c g : Nat), Asked s c 0x0401 (len 4) → rdy s rOR = true → asks s c 0 1 = g →
    0x80 ≤ g → g ≤ 0x83 → grpFitted s (g - 0x80) = true → AnswersWith (.calRead c) s c 0x0400 (12 + (groupRec s (g - 0x80)).length)
      (fun pl => fld pl 0 1 = g ∧ fld pl 1 1 = calState s g ∧ pl.drop 12 = groupRec s (g - 0x80)) fun u => u = s) ∧
  (∀ (s : State) (c p : Nat), Asked s c 0x0401 (len 4) → rdy s rOR = true → asks s c 0 1 = p →
    p < 24 → fitted s p = true → AnswersWith (.calRead c) s c 0x0400 (60 + (portRec s p).length)
      (fun pl => fld pl 0 1 = p ∧ fld pl 1 1 = calState s p ∧ (pl.drop 12).take (portRec s p).length = portRec s p)
      fun u => u = s) ∧
  (∀ (s : State) (c p x k : Nat), Asked s c 0x0402 (len 32) → rdy s rOR = true → asks s c 0 1 = p → asks s c 1 1 = x →
    asks s c 2 1 = k → p < 24 → x ≤ 2 → k ≤ 1 → fitted s p = true →
    (sealPort s = false → Answers (.calStage c) s c 0x04F2 0) ∧
    (sealPort s = true → (∃ o, s.cal.owner = some o ∧ o ≠ c) → Answers (.calStage c) s c 0x04F3 0) ∧
    (sealPort s = true → s.cal.owner = none ∨ s.cal.owner = some c →
      (blockIn false (bytesAt (reqPayload s c) 4 28) = false → Answers (.calStage c) s c 0x0410 0) ∧
      (blockIn false (bytesAt (reqPayload s c) 4 28) = true → AnswersWith (.calStage c) s c 0x0400 8
        (fun pl => fld pl 0 1 = p ∧ fld pl 1 1 = x ∧ fld pl 2 1 = k) fun u =>
          u.cal = { s.cal with owner := some c, blocks :=
            (s.cal.blocks.filter fun e => !(e.target == p && e.phase == x && e.path == k)) ++
              [⟨p, x, k, bytesAt (reqPayload s c) 4 28⟩] } ∧ Only [.cal] s u))) ∧
  (∀ (s : State) (c g : Nat), Asked s c 0x0402 (len 32) → rdy s rOR = true → asks s c 0 1 = 0x80 + g → asks s c 1 1 = 0 →
    asks s c 2 1 = 0 → allZero (bytesAt (reqPayload s c) 4 28) 16 12 = true → g ≤ 3 → grpFitted s g = true →
    sealPort s = true → s.cal.owner = none ∨ s.cal.owner = some c → blockIn true (bytesAt (reqPayload s c) 4 28) = true →
    AnswersWith (.calStage c) s c 0x0400 8 (fun pl => fld pl 0 1 = 0x80 + g) fun u =>
      u.cal.owner = some c ∧ (⟨0x80 + g, 0, 0, bytesAt (reqPayload s c) 4 28⟩ : CalBlock) ∈ u.cal.blocks ∧
      Only [.cal] s u) ∧
  (∀ (s : State) (c p : Nat), Asked s c 0x0403 (len 4) → rdy s rOR = true → asks s c 0 1 = p →
    calTarget p = true → sealPort s = true → s.cal.owner = some c → s.cal.run = none → (∃ b ∈ s.cal.blocks, b.target = p) →
    (s.boot.pfailN = false → Answers (.calCommit c) s c 0x0413 0) ∧
    (s.boot.pfailN = true → s.cairn.queue = [] → Holds (.calCommit c) s c fun u =>
      u.cal.run = some { ch := c, jobs := [{ target := p, record := newRecord s p, token := s.cairn.next }], done := [] } ∧
      u.cal.blocks = s.cal.blocks.filter (fun b => b.target != p) ∧ u.cal.port = s.cal.port ∧
      u.cairn.queue.length = 1 ∧ Only [.cairn, .cal] s u)) ∧
  (∀ (s : State) (c : Nat), Asked s c 0x0403 (len 4) → rdy s rOR = true → asks s c 0 1 = 0xFF → sealPort s = true →
    s.cal.owner = some c → s.cal.run = none → stagedTargets s ≠ [] → s.boot.pfailN = true →
    Holds (.calCommit c) s c fun u =>
      (∃ r, u.cal.run = some r ∧ r.ch = c ∧ r.jobs.map CalJob.target = stagedTargets s ∧ r.done = []) ∧
      u.cal.blocks = s.cal.blocks.filter (fun b => decide (0x84 ≤ b.target)) ∧ u.cal.port = s.cal.port ∧
      u.cairn.queue.length = s.cairn.queue.length + (stagedTargets s).length ∧ Only [.cairn, .cal] s u) ∧
  (∀ (s : State) (c p : Nat), Asked s c 0x0403 (len 4) → rdy s rOR = true → asks s c 0 1 = p →
    calTarget p = true ∨ p = 0xFF → (sealPort s = false → Answers (.calCommit c) s c 0x04F2 0) ∧
    (sealPort s = true → (∃ o, s.cal.owner = some o ∧ o ≠ c) ∨ s.cal.run ≠ none → Answers (.calCommit c) s c 0x04F3 0)) ∧
  (∀ (s : State) (c p : Nat), Asked s c 0x0403 (len 4) → rdy s rOR = true → asks s c 0 1 = p → calTarget p = true →
    (sealPort s = true → s.cal.owner = none → s.cal.run = none → (∀ b ∈ s.cal.blocks, b.target ≠ p) →
      Answers (.calCommit c) s c 0x0411 0)) ∧
  (∀ (s : State) (c p : Nat), Asked s c 0x0404 (len 4) → asks s c 0 1 = p → calTarget p = true →
    s.cal.owner = some c → (∃ b ∈ s.cal.blocks, b.target = p) → AnswersWith (.calDiscard c) s c 0x0400 4
      (fun pl => fld pl 0 4 = (s.cal.blocks.filter fun b => b.target == p).length % 2 ^ 32) fun u =>
        u.cal.blocks = s.cal.blocks.filter (fun b => b.target != p) ∧ u.cal.port = s.cal.port ∧ Only [.cal] s u) ∧
  (∀ (s : State) (c p : Nat), Asked s c 0x0404 (len 4) → asks s c 0 1 = p → calTarget p = true →
    ((∃ o, s.cal.owner = some o ∧ o ≠ c) → Answers (.calDiscard c) s c 0x04F3 0) ∧
    (s.cal.owner = none ∨ s.cal.owner = some c → (∀ b ∈ s.cal.blocks, b.target ≠ p) →
      Answers (.calDiscard c) s c 0x0411 0)) ∧
  (∀ (s : State) (c o p x d : Nat), Asked s c 0x0405 (len 4) → asks s c 0 1 = o → asks s c 1 1 = p → asks s c 2 1 = x →
    asks s c 3 1 = d → o ≤ 1 → p ≤ 23 → d ≤ 2 → x ≤ 2 → fitted s p = true → rdy s rPulse = true → rdy s p = true →
    sealPort s = true → o < s.meter.pulses.length → (pulseSel (getPulse s o)).phase = 0xFF → s.cairn.queue = [] →
    AnswersWith (.calPulse c) s c 0x0400 16 (fun pl => fld pl 0 1 = o ∧ fld pl 4 4 = tf s 0x4303 0 4) fun u =>
      getPulse u o = { getPulse s o with next := some { source := p, phase := x, dir := d }, pulses := 0 } ∧
      u.cairn.queue = [entryQ s 0 0x16 p [byteOf o, byteOf x, byteOf d]] ∧ Only [.cairn, .meter] s u) ∧
  (∀ (s : State), s.cal.bandSet = true → 8000 ≤ s.cal.secTicks → s.cal.frozen = false →
    (tempMean s.cal.sum0 s.cal.n0 - tempMean s.cal.sum1 s.cal.n1).natAbs ≤ 50 → s.cairn.queue = [] →
    orRun s = true → Runs .tempBandSecond s fun t =>
      t.cal.temp = tempMean (s.cal.sum0 + s.cal.sum1) (s.cal.n0 + s.cal.n1) ∧ t.cal.frozen = false ∧
      t.cal.band = bandNext s t.cal.temp s.cal.band ∧ t.cal.secTicks = 0 ∧ t.cal.farN = 0 ∧
      t.cairn.queue = (if t.cal.band = s.cal.band then []
        else [entryQ s 0 0x13 0xFF ([byteOf s.cal.band, byteOf t.cal.band] ++ leI 2 t.cal.temp)]) ∧
      Only [.cairn, .cal] s t) ∧
  (∀ (s : State), s.cal.bandSet = true → 8000 ≤ s.cal.secTicks → s.cal.frozen = false →
    150 < (tempMean s.cal.sum0 s.cal.n0 - tempMean s.cal.sum1 s.cal.n1).natAbs → 2 ≤ s.cal.farN →
    orRun s = true → Runs .tempBandSecond s fun t =>
      t.cal.frozen = true ∧ t.cal.band = s.cal.band ∧ t.cal.banks = s.cal.banks ∧ Only [.ev, .cairn, .cal] s t) ∧
  ∀ s : State, s.cal.secTicks < 8000 → exec .tempBandSecond s = .next s

/-! Key vault and tamper envelope (19). -/

/-- KEY_UPDATE, DRUPE_STATUS and RIND_STATUS (19 R454 to R456, Tables KV-4, KV-11 to KV-13): an accepted message raises
the counter and writes the decrypted key into its slot; the first check that fails is the status, and nothing but the work
of the AES engine (01 R35) changes. -/
def Obligations.VaultCommands : Prop :=
  (∀ (s : State) (c n : Nat), Asked s c 0x0F01 (len 80) → rdy s rDrupe = true → kuCheck s (reqPayload s c) = 0x0F00 →
    asks s c 1 1 = 1 → asks s c 2 1 = n → s.vault.cells.length = 128 → nth s.vault.map n 0 < 128 →
    (nth s.vault.cells (nth s.vault.map n 0) {}).bad = false → s.vault.kseq.length = 120 → s.rind.zLine = 0 →
    AnswersWith (.keyUpdate c) s c 0x0F00 16 (fun pl => fld pl 0 1 = n ∧ fld pl 8 8 = asks s c 8 8) fun u =>
      u.vault.counter = asks s c 8 8 ∧ s.vault.counter < u.vault.counter ∧
      slotKey u n (asks s c 3 1) = some ((padTo 32 ((xorB (bytesAt (reqPayload s c) 32 32)
        (keyStream (kEnc s) (asks s c 8 8) n (asks s c 3 1))).take (asks s c 4 1))).take (asks s c 4 1)) ∧
      nth u.vault.kseq n 0 = (nth s.vault.kseq n 0 + 1) % 2 ^ 32 ∧ u.vault.map = s.vault.map ∧
      Only [.ev, .vault, .qr] s u) ∧
  (∀ (s : State) (c n : Nat), Asked s c 0x0F01 (len 80) → rdy s rDrupe = true → kuCheck s (reqPayload s c) = 0x0F00 →
    asks s c 1 1 = 2 → asks s c 2 1 = n → s.vault.cells.length = 128 → nth s.vault.map n 0 < 128 →
    AnswersWith (.keyUpdate c) s c 0x0F00 16 (fun pl => fld pl 1 1 = 2) fun u =>
      slotWritten u n = false ∧ u.vault.counter = asks s c 8 8 ∧
      (∀ m, nth s.vault.map m 0 ≠ nth s.vault.map n 0 → slotEntryOf u m = slotEntryOf s m) ∧ Only [.ev, .vault, .qr] s u) ∧
  (∀ (s : State) (c : Nat), Asked s c 0x0F01 (len 80) → rdy s rDrupe = true → kuCheck s (reqPayload s c) = 0x0F00 →
    asks s c 1 1 = 3 → AnswersWith (.keyUpdate c) s c 0x0F00 16 (fun pl => fld pl 1 1 = 3) fun u =>
      (∀ m, slotWritten u m = false) ∧ u.vault.zeroised = true ∧ u.rind.zTick = now s ∧
      Only [.boot, .link, .ev, .nf, .vault, .rind, .qr, .pw] s u) ∧
  (∀ (s : State) (c : Nat), Asked s c 0x0F01 (len 80) → rdy s rDrupe = true → kuCheck s (reqPayload s c) ≠ 0x0F00 →
    AnswersWith (.keyUpdate c) s c (kuCheck s (reqPayload s c)) 0 (fun _ => True) fun u =>
      u.vault = { s.vault with aes := u.vault.aes } ∧ Only [.vault] s u) ∧
  (∀ (s : State) (c : Nat), Asked s c 0x0F02 (len 0) → rdy s rDrupe = true → s.otp.devId.length = 16 →
    AnswersWith (.drupeStatus c) s c 0x0F00 996 (fun pl => pl.take 16 = s.otp.devId ∧
      fld pl 16 8 = s.vault.counter % 2 ^ 64 ∧ ∀ n, n < 120 → fld pl (28 + 8 * n) 1 =
        (if slotWritten s n then 1 else if nth s.vault.lost n false then 2 else 0)) fun u => u = s) ∧
  ∀ (s : State) (c : Nat), Asked s c 0x0F03 (len 0) → rdy s rKS = true →
    AnswersWith (.rindStatus c) s c 0x0F00 24 (fun pl => fld pl 0 1 = b2n s.rind.broken ∧ fld pl 1 1 = b2n s.rind.cover ∧
      fld pl 16 8 = s.rind.zTick % 2 ^ 64) fun u => u = s

/-- Remasking and tamper (19 R451, R452, R460 to R465): a remask changes masks and no key; a broken mesh clears every cell
in its tick; the cover does so only where the device is set so; each event waits in the latch for its entry. Outside its
condition an event row changes nothing (log 1). -/
def Obligations.VaultAndTamper : Prop :=
  (∀ s : State, s.boot.phase ≠ .reset → s.pw.mode ≠ 2 → s.vault.rngBad = false → s.eg.pfailTick = none →
    (∀ n, s.vault.last = some n → n + 480000 ≤ now s) → s.vault.cells.length = 128 → s.vault.map.length = 120 →
    (∀ k ∈ s.vault.map, k < 128) → (∀ k ∈ s.vault.cells, (activeOf k).pat.length = 32 ∧ (activeOf k).mask.length = 32 ∧
      (activeOf k).klen ≤ 32) → Runs (.remask [] []) s fun t =>
      (∀ n a, n < 120 → slotKey t n a = slotKey s n a) ∧ t.vault.map = s.vault.map ∧ t.vault.last = some (now s) ∧
      t.vault.remasks = min 0xFFFFFFFF (s.vault.remasks + 1) ∧ Only [.vault] s t) ∧
  (∀ (s : State) (n : Nat) (b k : List Nat), s.vault.last = some n → now s < n + 480000 → exec (.remask b k) s = .next s) ∧
  (∀ (s : State) (r : Bool), s.vault.rngBad = false → s.boot.phase ≠ .reset → Runs (.rngHealthFail r) s fun t =>
    t.vault = { s.vault with rngBad := true } ∧ Only [.ev, .vault] s t) ∧
  (∀ (s : State) (v : Nat), s.rind.broken = false → Runs (.meshBreak v) s fun t =>
    t.rind.broken = true ∧ t.rind.reading = v % 65536 ∧ (∀ n, slotWritten t n = false) ∧ t.vault.zeroised = true ∧
    (∀ n, (getNf t n).card.ks = [] ∧ (getNf t n).mks.getD [] = []) ∧ t.rind.zCount = (s.rind.zCount + 1) % 2 ^ 32 ∧ t.rind.zTick = now s ∧ rdy t rLedger = false ∧
    t.rind.latch = s.rind.latch ++ [{ code := 0x63, data := le 2 (v % 65536), token := none }] ∧
    t.vault.counter = s.vault.counter ∧ t.vault.aes.run = none ∧ t.vault.aes.out = [] ∧
    Only [.boot, .link, .nf, .vault, .rind, .qr, .pw] s t) ∧
  (∀ (s : State) (v : Nat), s.rind.broken = true → exec (.meshBreak v) s = .next s) ∧
  (∀ s : State, s.rind.cover = false → Runs .coverOpen s fun t =>
    t.rind.cover = true ∧
    t.rind.latch = s.rind.latch ++ [{ code := 0x62, data := [1, byteOf (b2n s.vault.coverBit)], token := none }] ∧
    (s.vault.coverBit = true → ∀ n, slotWritten t n = false) ∧ (s.vault.coverBit = false → t.vault = s.vault) ∧
    Only [.boot, .link, .nf, .vault, .rind, .qr, .pw] s t) ∧
  (∀ s : State, s.rind.cover = true → Runs .coverClosed s fun t =>
    t.rind = { s.rind with
      cover := false, latch := s.rind.latch ++ [{ code := 0x62, data := [0, 0], token := none }] } ∧
    Only [.link, .rind, .pw] s t) ∧
  (∀ s : State, (s.rind.cover = true → exec .coverOpen s = .next s) ∧ (s.rind.cover = false → exec .coverClosed s = .next s)) ∧
  (∀ (s : State) (e : Tamper) (l : List Tamper), s.rind.latch = e :: l → e.token = none → rdy s rKS = true →
    s.cairn.queue = [] → ksRun s = true → Runs .tamperCairnEntry s fun t =>
      t.rind = { s.rind with latch := { e with token := some s.cairn.next } :: l } ∧
      t.cairn.queue = [{ entryQ s 1 e.code 0xFF e.data with tamper := true }] ∧ Only [.cairn, .rind] s t) ∧
  (∀ s : State, s.rind.latch = [] → exec .tamperCairnEntry s = .next s) ∧
  (∀ s : State, s.rind.mag = false → s.rind.fault = false → s.rind.outN < 8000 → s.rind.setN ≠ 0 →
    8 * magTab s 6 ≤ s.rind.setN → s.cairn.queue = [] → ksRun s = true → Runs .magEventStart s fun t =>
      t.rind = { s.rind with mag := true, peak := s.rind.level, start := now s } ∧
      t.cairn.queue = [entryQ s 1 0x60 0xFF (le 2 s.rind.level)] ∧ Only [.link, .cairn, .rind, .pw] s t) ∧
  (∀ s : State, s.rind.mag = true → s.rind.outN < 8000 → exec .magEventStart s = .next s) ∧
  (∀ s : State, s.rind.mag = true → s.rind.fault = false → 8 * magTab s 8 ≤ s.rind.clrN → s.cairn.queue = [] →
    ksRun s = true → Runs .magEventEnd s fun t =>
      t.rind = { s.rind with mag := false } ∧
      t.cairn.queue = [entryQ s 1 0x61 0xFF (le 2 s.rind.peak ++ [0, 0] ++ le 4 ((now s - s.rind.start) / 8000))] ∧
      Only [.link, .cairn, .rind, .pw] s t) ∧
  ∀ s : State, s.rind.mag = false → exec .magEventEnd s = .next s

/-! Tariffs, time, accounts and sessions (13, 14). -/

/-- The tariff and time commands and TIME_INVALID (13 R317, R322, R333, R335, Tables TD-10 to TD-14): a set needs the MAC
and a higher counter; below 1 ms nothing changes, a trim of up to 2 s slews, and a set waits for its boundary. Outside its
condition an event row changes nothing (log 1). Refusals carry LENGTH 0 (log 31). -/
def Obligations.TariffCommands : Prop :=
  (∀ (s : State) (c : Nat), Asked s c 0x0901 (len 0) → rdy s rOR = true →
    AnswersWith (.tariffStatus c) s c 0x0900 56 (fun pl => fld pl 0 8 = s.rtc.sec % 2 ^ 64 ∧ fld pl 8 1 = b2n s.rtc.valid ∧
      fld pl 9 1 = rateInForce s % 256 ∧ fld pl 12 2 = tarVersion s % 65536) fun u => u = s) ∧
  (∀ (s : State) (c k : Nat), Asked s c 0x0902 (len 4) → rdy s rOR = true → asks s c 0 1 = k → k ≤ 24 →
    AnswersWith (.demandRead c) s c 0x0900 44 (fun pl => fld pl 0 1 = 1 ∧ fld pl 4 1 = k ∧
      fld pl 32 8 = valOf s (maxWord k) % 2 ^ 48) fun u => u = s) ∧
  (∀ (s : State) (c : Nat), Asked s c 0x0902 (len 4) → rdy s rOR = true → asks s c 0 1 = 0xFF →
    AnswersWith (.demandRead c) s c 0x0900 (4 + 40 * (((List.range 24).filter (fitted s)).length + 1))
      (fun pl => fld pl 0 1 = ((List.range 24).filter (fitted s)).length + 1) fun u => u = s) ∧
  (∀ (s : State) (c n : Nat) (b : List Byte), Asked s c 0x0903 (len 8) → rdy s rOR = true → asks s c 0 4 = n →
    (n ≠ 0 → n < periodNo s → snapOf s n = some b →
      AnswersWith (.billingRead c) s c 0x0900 b.length (fun pl => pl = b) fun u => u = s) ∧
    (periodNo s ≤ n → Answers (.billingRead c) s c 0x0914 0)) ∧
  (∀ (s : State) (c : Nat) (m : List Byte), Asked s c 0x0904 (len 36) → rdy s rOR = true → reqPayload s c = m →
    631152000 ≤ fld m 0 8 → fld m 0 8 < 2 ^ 48 → fld m 8 2 ≤ 32767 → fld m 10 2 = 0 →
    (macOk s 0 (s.otp.devId ++ le 2 0x0904 ++ m.take 20) (bytesAt m 20 16) = false →
      AnswersWith (.timeSet c) s c 0x09F5 0 (fun _ => True) fun u =>
        u.vault = { s.vault with aes := u.vault.aes } ∧ Only [.vault] s u) ∧
    (macOk s 0 (s.otp.devId ++ le 2 0x0904 ++ m.take 20) (bytesAt m 20 16) = true →
      (fld m 12 8 ≤ s.tar.counter → AnswersWith (.timeSet c) s c 0x0915 0 (fun _ => True) fun u =>
        u.vault = { s.vault with aes := u.vault.aes } ∧ Only [.vault] s u) ∧
      (s.tar.counter < fld m 12 8 → s.rtc.valid = false → AnswersWith (.timeSet c) s c 0x0900 28
        (fun pl => fld pl 16 1 = 0 ∧ fld pl 20 8 = (now s + 1) % 2 ^ 64) fun u =>
          u.tar = { s.tar with
            counter := fld m 12 8, set := some { sec := fld m 0 8, sub := fld m 8 2, source := 0 } } ∧
          u.rtc = s.rtc ∧ Only [.tar, .vault] s u) ∧
      (s.tar.counter < fld m 12 8 → s.rtc.valid = true → fld m 0 8 * 32768 + fld m 8 2 = rtcUnits s →
        AnswersWith (.timeSet c) s c 0x0900 28 (fun pl => fld pl 16 1 = 2) fun u =>
          u.tar = { s.tar with counter := fld m 12 8 } ∧ u.rtc = s.rtc ∧ Only [.tar, .vault, .draws] s u) ∧
      (s.tar.counter < fld m 12 8 → s.rtc.valid = true → s.tar.trims = [] → rtcUnits s + 33 ≤ fld m 0 8 * 32768 + fld m 8 2 →
        fld m 0 8 * 32768 + fld m 8 2 ≤ rtcUnits s + 65536 →
        AnswersWith (.timeSet c) s c 0x0900 28 (fun pl => fld pl 16 1 = 1) fun u =>
          u.tar = { s.tar with
            counter := fld m 12 8, slew := 100000 * ((fld m 0 8 * 32768 + fld m 8 2 : Nat) - (rtcUnits s : Int))
            trims := [(s.rtc.sec, fld m 0 8 * 32768 + fld m 8 2 - rtcUnits s)] } ∧
          u.rtc = s.rtc ∧ Only [.link, .ev, .tar, .vault, .pw, .draws] s u))) ∧
  (∀ (s : State) (c v : Nat), Asked s c 0x0905 (len 4) → rdy s rOR = true → asks s c 0 2 = v →
    (sealPort s = false → Answers (.tariffActivate c) s c 0x09F2 0) ∧
    (sealPort s = true → (passive s).map TableRec.version ≠ some v → Answers (.tariffActivate c) s c 0x0912 0) ∧
    (sealPort s = true → (passive s).map TableRec.version = some v → s.tar.act ≠ none →
      Answers (.tariffActivate c) s c 0x09F3 0) ∧
    (sealPort s = true → (passive s).map TableRec.version = some v → s.tar.act = none →
      (s.rtc.valid = false → Answers (.tariffActivate c) s c 0x0913 0) ∧
      (s.rtc.valid = true → AnswersWith (.tariffActivate c) s c 0x0900 12 (fun pl => fld pl 0 2 = v) fun u =>
        u.tar = { s.tar with act := some (s.rtc.sec + 1) } ∧ Only [.tar] s u))) ∧
  (∀ (s : State) (r : Nat), r = 1 ∨ r = 2 → s.rtc.valid = true → boundaryDue s = false → s.cairn.queue = [] →
    Runs (.timeInvalid r) s fun t =>
    t.rtc = { s.rtc with valid := false } ∧ t.cairn.queue = [entryQ s 0 0x40 0xFF [byteOf r]] ∧
    (s.eg.restored = true → t.tar.tcm = true ∧ t.tar.rate = fld (tarTab s) 11 1 ∧ t.tar.unknown = now s) ∧
    Only [.link, .cairn, .rtc, .tar, .pw] s t) ∧
  ∀ (s : State) (r : Nat), s.rtc.valid = false ∨ 2 < r → exec (.timeInvalid r) s = .next s

/-- The account and session commands (14 R344, R346, R355, R356, R567, Tables PP-2, PP-8, PP-14 to PP-19): a record is
reserved before a permit; a token whose serial is taken is used, and stays used. Refusals carry LENGTH 0 (log 31). -/
def Obligations.SessionCommands : Prop :=
  (∀ (s : State) (c p a : Nat) (r : List Byte), Asked s c 0x0A04 (len 8) → asks s c 0 1 = p →
    asks s c 4 4 = a → a ≤ 262143 → p < 24 → p < s.ports.length →
    portChecks s p = none →
    (ledFetch a s).1 = some r → acctChecks s r = none → Holds (.sessionStart c) s c fun u =>
      (getPort u p).se.stage = 1 ∧ (getPort u p).se.account = a ∧ (getPort u p).se.source = 0 ∧
      (getPort u p).se.balance = recBal r ∧ (getPort u p).se.start = impVals s p ∧ (getPort u p).se.ch = c ∧
      (getPort u p).se.id = u.qr.sessId ∧ (getPort u p).hs = (getPort s p).hs ∧
      u.qr.asks.getLast?.map (fun o => (o.code, o.recs.map Prod.fst)) = some (2, [a]) ∧ OnPort p [.ports, .qr, .vault] s u) ∧
  (∀ (s : State) (c p a st : Nat), Asked s c 0x0A04 (len 8) → asks s c 0 1 = p → asks s c 4 4 = a →
    a ≤ 262143 → p < 24 → portChecks s p = some st → Answers (.sessionStart c) s c st 0) ∧
  (∀ (s : State) (c p : Nat), Asked s c 0x0A05 (len 4) → asks s c 0 1 = p → p < 24 →
    p < s.ports.length → rdy s rAP = true → rdy s rKS = true → fitted s p = true →
    ((getPort s p).se.stage ≠ 2 → Answers (.sessionEnd c) s c 0x0A15 0) ∧
    ((getPort s p).se.stage = 2 → portOn s p = true → AnswersWith (.sessionEnd c) s c 0x0A00 8
      (fun pl => fld pl 0 1 = p ∧ fld pl 1 1 = 1 ∧ fld pl 4 4 = (getPort s p).se.id % 2 ^ 32) fun u =>
        getPort u p = { getPort s p with ss := { (getPort s p).ss with pend := (getPort s p).ss.pend ++ [2] } } ∧
        OnPort p [.ports] s u) ∧
    ((getPort s p).se.stage = 2 → portOn s p = false → (getPort s p).hs.permit = true →
      AnswersWith (.sessionEnd c) s c 0x0A00 8 (fun pl => fld pl 1 1 = 0) fun u =>
        (getPort u p).hs.permit = false ∧ (getPort u p).se.stage = 3 ∧ OnPort p [.ports, .safety] s u)) ∧
  (∀ (s : State) (c p : Nat), Asked s c 0x0A06 (len 4) → asks s c 0 1 = p → p < 24 → rdy s rAP = true →
    ((getPort s p).se.stage ≠ 2 → Answers (.sessionStatus c) s c 0x0A15 0) ∧
    ((getPort s p).se.stage = 2 → AnswersWith (.sessionStatus c) s c 0x0A00 44 (fun pl => fld pl 0 1 = 1 ∧
      fld pl 4 1 = p ∧ fld pl 5 1 = (getPort s p).se.credit % 256 ∧ fld pl 8 4 = (getPort s p).se.id % 2 ^ 32 ∧
      fld pl 28 8 = (getPort s p).se.charge % 2 ^ 64) fun u => u = s)) ∧
  (∀ (s : State) (c a k o : Nat) (r : List Byte), Asked s c 0x0A01 (len 4) → rdy s rLedger = true → asks s c 0 4 = a →
    a ≤ 262143 → pendRec s a = none →
    (ledRead s a = some (k, o, r) → AnswersWith (.accountRead c) s c 0x0A00 (4 + r.length)
      (fun pl => fld pl 0 1 = k % 256 ∧ fld pl 1 1 = o % 256 ∧ pl.drop 4 = r) fun u => Only [.qr, .vault] s u) ∧
    (ledRead s a = none → AnswersWith (.accountRead c) s c 0x0A1E 0 (fun _ => True) fun u =>
      u.ev.queue = s.ev.queue ++ [⟨0, 0x0A02, 4, 0xFF, padTo 16 (le 4 a)⟩] ∧ Only [.ev, .qr, .vault] s u)) ∧
  (∀ (s : State) (c a : Nat) (r : List Byte), Asked s c 0x0A01 (len 4) → rdy s rLedger = true → asks s c 0 4 = a →
    a ≤ 262143 → pendRec s a = some r → Holds (.accountRead c) s c fun u =>
      u.qr.asks.length = s.qr.asks.length ∧ u.qr.ops.length = s.qr.ops.length ∧ pendRec u a = some r ∧
      ((u.qr.ops ++ u.qr.asks).any fun o =>
        o.after.contains (.answer c 0x0A00 ([0, 0, 0, 0] ++ r)) && o.recs.contains (a, r)) = true ∧ Only [.qr] s u) ∧
  (∀ (s : State) (c : Nat), Asked s c 0x0A01 (len 4) → rdy s rLedger = true → 262143 < asks s c 0 4 →
    Answers (.accountRead c) s c 0x0AF1 0) ∧
  (∀ (s : State) (c : Nat) (m : List Byte), Asked s c 0x0A02 (len 64) → rdy s rLedger = true → rdy s rAP = true →
    reqPayload s c = m → acctForm m = true →
    (macOk s 3 (s.otp.devId ++ le 2 0x0A02 ++ m.take 48) (bytesAt m 48 16) = false →
      AnswersWith (.accountSet c) s c 0x0AF5 0 (fun _ => True) fun u =>
        u.vault = { s.vault with aes := u.vault.aes } ∧ Only [.vault] s u) ∧
    (macOk s 3 (s.otp.devId ++ le 2 0x0A02 ++ m.take 48) (bytesAt m 48 16) = true →
      (fld m 40 8 ≤ s.qr.acctCtr → AnswersWith (.accountSet c) s c 0x0A1F 0 (fun _ => True) fun u =>
        u.vault = { s.vault with aes := u.vault.aes } ∧ Only [.vault] s u) ∧
      (s.qr.acctCtr < fld m 40 8 → fld m 20 1 = 0 → fld m 4 1 ≠ 0 → pendRec s (fld m 0 4) = none →
        (ledRead s (fld m 0 4)).any (fun e => inSession e.2.2) = false → Holds (.accountSet c) s c fun u =>
          u.qr.acctCtr = fld m 40 8 ∧
          u.qr.asks.getLast?.map (fun o => (o.code, o.recs.map Prod.fst)) = some (1, [fld m 0 4]) ∧
          u.ports = s.ports ∧ Only [.ev, .qr, .vault] s u))) ∧
  (∀ (s : State) (c st : Nat), Asked s c 0x0A03 (len 32) → rdy s rLedger = true → rdy s rAP = true →
    (tokenCheck (reqPayload s c) s).1 = .inl st →
    (readsPending (reqPayload s c) s = false →
      AnswersWith (.tokenApply c) s c st 0 (fun _ => True) fun u => u = (tokenCheck (reqPayload s c) s).2) ∧
    (readsPending (reqPayload s c) s = true → Holds (.tokenApply c) s c fun u =>
      u = afterWrite (asks s c 4 4) (.answer c st []) (tokenCheck (reqPayload s c) s).2)) ∧
  (∀ (s : State) (c : Nat) (r : List Byte), Asked s c 0x0A03 (len 32) → rdy s rLedger = true → rdy s rAP = true →
    (tokenCheck (reqPayload s c) s).1 = .inr r → Holds (.tokenApply c) s c fun u =>
      u.qr.asks.getLast?.map (fun o => (o.code, o.recs.map Prod.fst)) = some (4, [asks s c 4 4]) ∧
      u.ports = s.ports ∧ Only [.ev, .qr, .vault] s u) ∧
  ∀ (high map n : Nat) (r : Nat × Nat), map < 2 ^ 64 → serialRule high map n = .inr r →
    r.2 < 2 ^ 64 ∧ (serialRule r.1 r.2 n).isLeft = true ∧
    ∀ k, (serialRule high map k).isLeft = true → (serialRule r.1 r.2 k).isLeft = true

/-- What becomes of sessions (14 R346, R352 to R354): Orchard gives the permit where the registers still read as reserved,
else the reservation is made once more, and on no port that still owes the settlement of an earlier session; the end is settled against the account; a checkpoint each 60 s. Outside its
condition an event row changes nothing (log 1). -/
def Obligations.SessionEvents : Prop :=
  (∀ (s : State) (p : Nat), p < s.ports.length →
    ((List.range 24).find? fun p => (getPort s p).se.stage == 5 && (getPort s p).se.at_ < now s) = some p →
    owesSettle s p = false → (getPort s p).se.start = impVals s p → orRun s = true →
    ssrDemand s = false → Runs .reservationAccept s fun t =>
      (getPort t p).hs.permit = true ∧ (getPort t p).se.stage = 2 ∧ (getPort t p).se.at_ = now s ∧
      (getPort t p).ct = (getPort s p).ct ∧ OnPort p [.link, .hostMem, .ports] s t) ∧
  (∀ (s : State) (p : Nat), p < s.ports.length →
    ((List.range 24).find? fun p => (getPort s p).se.stage == 5 && (getPort s p).se.at_ < now s) = some p →
    owesSettle s p = false → (getPort s p).se.start = impVals s p → orRun s = true →
    ssrDemand s = true → Runs .reservationAccept s fun t =>
      (getPort t p).hs.permit = false ∧ (getPort t p).se.stage = 3 ∧ (getPort t p).se.cause = 0x0C ∧
      (getPort t p).ct = (getPort s p).ct ∧ OnPort p [.link, .hostMem, .ports] s t) ∧
  (∀ (s : State) (p : Nat) (r : List Byte), p < s.ports.length →
    ((List.range 24).find? fun p => (getPort s p).se.stage == 5 && (getPort s p).se.at_ < now s) = some p →
    owesSettle s p = false → (getPort s p).se.start ≠ impVals s p → (getPort s p).se.tries = 0 →
    ledView s (getPort s p).se.account = some r → orRun s = true → Runs .reservationAccept s fun t =>
      (getPort t p).se.stage = 1 ∧ (getPort t p).se.tries = 1 ∧ (getPort t p).se.start = impVals s p ∧
      (getPort t p).hs = (getPort s p).hs ∧ OnPort p [.ports, .qr, .vault] s t) ∧
  (∀ s : State, (∀ p, p < 24 → (getPort s p).se.stage ≠ 5) → exec .reservationAccept s = .next s) ∧
  (∀ (s : State) (p : Nat),
    ((List.range 24).find? fun p => (getPort s p).se.stage == 5 && (getPort s p).se.at_ < now s) = some p →
    owesSettle s p = true → exec .reservationAccept s = .next s) ∧
  (∀ (s : State) (p : Nat), p < s.ports.length →
    ((List.range 24).find? fun p => (getPort s p).se.stage == 3 && (getPort s p).se.ended) = some p →
    rdy s rLedger = true → rdy s rAP = true → Runs .sessionSettle s fun t =>
      (getPort t p).se = { (getPort s p).se with stage := 4 } ∧
      t.qr.asks.getLast?.map (fun o => (o.code, o.data.length)) = some (3, 1) ∧ OnPort p [.ev, .ports, .qr, .vault] s t) ∧
  (∀ s : State, (∀ p, p < 24 → (getPort s p).se.stage ≠ 3) → exec .sessionSettle s = .next s) ∧
  (∀ (s : State) (r : List Byte), unsettled s = some r → rdy s rLedger = true → rdy s rOR = true → rdy s rAP = true →
    Runs .restoreSettlement s fun t =>
      t.qr.asks.getLast?.map (fun o => (o.code, o.data.length)) = some (3, 1) ∧ Only [.ev, .qr, .vault] s t) ∧
  (∀ s : State, unsettled s = none → exec .restoreSettlement s = .next s) ∧
  ∀ s : State, s.ports.length = 24 → Runs .sessionCheckpoint s fun t =>
    (∀ p, p < 24 → (getPort s p).se.stage = 2 → (getPort s p).se.ckpt + 480000 ≤ now s →
      (getPort t p).se = { (getPort s p).se with ckpt := now s }) ∧
    (∀ p, (getPort s p).se.stage ≠ 2 ∨ now s < (getPort s p).se.ckpt + 480000 → getPort t p = getPort s p) ∧
    t.qr.sessPend.length = s.qr.sessPend.length + ((List.range 24).filter fun p =>
      (getPort s p).se.stage == 2 && (getPort s p).se.ckpt + 480000 ≤ now s).length ∧ Only [.ports, .qr] s t

/-! External store (18). -/

/-- The reading commands of the store (18 Tables QS-13 to QS-15): what is read is that of the state, records in order.
Refusals carry LENGTH 0 (log 31). -/
def Obligations.StoreCommands : Prop :=
  (∀ (s : State) (c : Nat), Asked s c 0x0E01 (len 0) → rdy s rSE = true →
    AnswersWith (.quarryStatus c) s c 0x0E00 140 (fun pl => fld pl 128 4 = s.qr.gen % 2 ^ 32 ∧
      fld pl 132 1 = ledgerState s ∧ fld pl 138 2 = (s.qr.ops.filter fun o => o.code != 0).length % 65536) fun u => u = s) ∧
  (∀ (s : State) (c f n : Nat), Asked s c 0x0E02 (len 12) → rdy s rSE = true → asks s c 0 8 = f → asks s c 8 2 = n →
    1 ≤ n → n ≤ 11 → zoneReads s 0x21 = true → (nth s.qr.aged 0 0 = 0 ∨ nth s.qr.aged 0 0 < f) →
    AnswersWith (.profileRead c) s c 0x0E00 (8 + ((s.qr.profs.filter fun r => f ≤ fld r 0 8).take n).flatten.length)
      (fun pl => fld pl 0 2 = ((s.qr.profs.filter fun r => f ≤ fld r 0 8).take n).length ∧
        pl.drop 8 = ((s.qr.profs.filter fun r => f ≤ fld r 0 8).take n).flatten) fun u =>
      u.qr = { s.qr with asks := u.qr.asks } ∧ Only [.qr] s u) ∧
  (∀ (s : State) (c n : Nat), Asked s c 0x0E02 (len 12) → rdy s rSE = true → asks s c 8 2 = n →
    (n = 0 ∨ 11 < n → Answers (.profileRead c) s c 0x0EF1 0) ∧
    (1 ≤ n → n ≤ 11 → zoneReads s 0x21 = false → Answers (.profileRead c) s c 0x0E11 0) ∧
    (1 ≤ n → n ≤ 11 → zoneReads s 0x21 = true → nth s.qr.aged 0 0 ≠ 0 → asks s c 0 8 ≤ nth s.qr.aged 0 0 →
      Answers (.profileRead c) s c 0x0E10 0)) ∧
  ∀ (s : State) (c f n : Nat), Asked s c 0x0E03 (len 8) → rdy s rSE = true → asks s c 0 4 = f → asks s c 4 2 = n →
    1 ≤ n → n ≤ 47 → zoneReads s 0x20 = true → (f = 0 ∨ nth s.qr.aged 1 0 < f) →
    AnswersWith (.sessionLogRead c) s c 0x0E00
      (8 + (((sortBy sessBefore s.qr.sess).filter fun r => f ≤ fld r 0 4).take n).flatten.length)
      (fun pl => fld pl 0 2 = (((sortBy sessBefore s.qr.sess).filter fun r => f ≤ fld r 0 4).take n).length ∧
        pl.drop 8 = (((sortBy sessBefore s.qr.sess).filter fun r => f ≤ fld r 0 4).take n).flatten)
      fun u => u.qr = { s.qr with asks := u.qr.asks } ∧ Only [.qr] s u

/-- The store engine (18 R434 to R436, R439 to R444, Tables QS-4, QS-6, QS-11, 01 R32, 25 R541): SE takes the request of
the highest class first, but for the shares of BULK and MAINT (log 142); a failed program retires its block and is repeated; an operation whose last NAND operation is
done leaves; upkeep is asked for once; a third late operation in an hour fences the chip. Outside its condition an event
row changes nothing (log 1). -/
def Obligations.StoreEngine : Prop :=
  (∀ (s : State) (o : SeOp) (i : Nat), seServes s = true → nextAsk s = some (o, i) → Runs .quarryJob s fun t =>
    s.qr.asks[i]? = some o ∧ (∀ e ∈ s.qr.asks, mayTake s e = true → askRank s o ≤ askRank s e) ∧
    t.qr.asks = s.qr.asks.eraseIdx i ∧ t.qr.nextId = (s.qr.nextId + 1) % 2 ^ 32 ∧
    t.qr.ops.map (fun p => { p with steps := [], chans := [] }) =
      s.qr.ops.map (fun p => { p with steps := [], chans := [] }) ++ [{ o with id := s.qr.nextId, steps := [], chans := [] }] ∧
    t.qr.ops.getLast?.map SeOp.steps = some (stepsOf s o) ∧ Only [.qr] s t) ∧
  (∀ s : State, seServes s = false → exec .quarryJob s = .next s) ∧
  (∀ (s : State) (e : CairnEntry), seServes s = true → nextAsk s = none → rdy s rCairn = true → journalTight s = false →
    (s.cairn.ring.find? fun e => e.seq == max s.cairn.mirrorSeq s.cairn.copying + 1) = some e → Runs .quarryJob s fun t =>
      t.cairn = { s.cairn with copying := e.seq } ∧ t.qr.ops.getLast?.map SeOp.data = some [cairnBytes e] ∧
      Only [.cairn, .qr] s t) ∧
  (∀ (s : State) (ch id : Nat) (o : SeOp) (k t1 : NStep) (l : List NStep), nandTurn s ch id = some o →
    o.steps = k :: t1 :: l → k.act = 0 → Runs (.nandOpComplete ch id 0) s fun t =>
      t.qr.ops = s.qr.ops.map (fun p => if p.id = o.id then { o with steps := t1 :: l } else p) ∧ Only [.qr] s t) ∧
  (∀ (s : State) (ch id b : Nat) (o : SeOp) (k : NStep) (l : List NStep), nandTurn s ch id = some o → o.steps = k :: l →
    k.act = 1 → placeBlk s (2 * k.chan + k.chip) k.kind = some b → 2 * k.chan + k.chip < s.qr.chips.length →
    (getBlk (chipOf s (2 * k.chan + k.chip)) b).bad = false → Runs (.nandOpComplete ch id 2) s fun t =>
      (getBlk (chipOf t (2 * k.chan + k.chip)) b).bad = true ∧
      (chipOf t (2 * k.chan + k.chip)).badR = (chipOf s (2 * k.chan + k.chip)).badR + 1 ∧
      t.qr.ops.map SeOp.steps = s.qr.ops.map (fun p => if p.id = o.id then o.steps else p.steps)) ∧
  (∀ (s : State) (ch id : Nat) (o : SeOp) (k : NStep), nandTurn s ch id = some o → o.steps = [k] → k.act ≠ 1 →
    Runs (.nandOpComplete ch id 0) s fun t => ∀ p ∈ t.qr.ops, p.id ≠ o.id) ∧
  (∀ (s : State) (ch id r : Nat), nandTurn s ch id = none → exec (.nandOpComplete ch id r) s = .next s) ∧
  (∀ s : State, rdy s rSE = true → s.qr.ckpt + 512 ≤ s.qr.jseq → askedFor s 11 = false →
    Runs .journalCheckpoint s fun t =>
    t.qr = { s.qr with asks := s.qr.asks ++ [{ code := 11, cls := 5 }] } ∧ Only [.qr] s t) ∧
  (∀ s : State, s.qr.jseq < s.qr.ckpt + 512 ∨ askedFor s 11 = true → exec .journalCheckpoint s = .next s) ∧
  (∀ (s : State) (c b : Nat), c < 2 → rdy s rSE = true → chipUp s (copyChip s c) = true →
    quotaOf s (copyChip s c) (0x10 + c) ≤ (blksOf (chipOf s (copyChip s c)) (0x10 + c)).length + 8 →
    leastBlk (fun n => (liveUnits s (copyChip s c / 2, copyChip s c % 2, n)).length)
      (((blksOf (chipOf s (copyChip s c)) (0x10 + c)).filter fun e => !openBlk s (copyChip s c) e).map (·.1)) = some b →
    Runs .ledgerReclaim s fun t => movePending t (copyChip s c) [5] = true ∧ t.qr.chips = s.qr.chips ∧ Only [.qr] s t) ∧
  (∀ s : State, rdy s rSE = false → exec .ledgerReclaim s = .next s ∧ exec .staticMove s = .next s ∧
    exec .scrub s = .next s ∧ exec .sessionSweep s = .next s) ∧
  (∀ (s : State) (i b : Nat), i < 4 → rdy s rSE = true → chipUp s i = true →
    leastBlk (fun n => (getBlk (chipOf s i) n).erases)
      (((chipOf s i).blks.filter fun e => 2 ≤ e.2.kind && !e.2.units.isEmpty && !e.2.bad).map (·.1)) = some b →
    (getBlk (chipOf s i) b).erases + 500 < ((chipOf s i).blks.map fun e => e.2.erases).foldl max 0 →
    Runs .staticMove s fun t => movePending t i [6] = true ∧ t.qr.chips = s.qr.chips ∧ Only [.qr] s t) ∧
  (∀ (s : State) (i : Nat) (e : Nat × Blk), i < 4 → rdy s rSE = true → chipUp s i = true →
    movePending s i [5, 6, 10] = false → throughPending s i = false → e ∈ (chipOf s i).blks → e.2.units ≠ [] → isVictim s i e.1 = false →
    e.2.bad = false → e.2.weak = true → Runs .scrub s fun t => movePending t i [6] = true ∧ Only [.qr] s t) ∧
  (∀ s : State, rdy s rSE = true → s.qr.sessPend ≠ [] → s.qr.sweepAt + 480000 ≤ now s → Runs .sessionSweep s fun t =>
    t.qr.sweepAt = now s ∧ t.qr.sessPend = s.qr.sessPend ∧
    t.qr.asks.getLast?.map SeOp.data = some (s.qr.sessPend.map Prod.snd) ∧ Only [.qr] s t) ∧
  (∀ (s : State) (ch k a b : Nat), ch < 2 → k < 2 → chipReads s (2 * ch + k) = true → 2 * ch + k < s.qr.chips.length →
    (chipOf s (2 * ch + k)).late = [a, b] → now s < a + 28800000 → now s < b + 28800000 →
    fencedB s 9 (2 * ch + k) = false → Runs (.nandOpTimeout ch k) s fun t =>
      fencedB t 9 (2 * ch + k) = true ∧ requestedB t 9 (2 * ch + k) = false ∧ (chipOf t (2 * ch + k)).st = 3 ∧
      Only [.link, .ev, .fences, .qr, .pw] s t) ∧
  ∀ (s : State) (ch k : Nat), ch < 2 → k < 2 → chipReads s (2 * ch + k) = true → 2 * ch + k < s.qr.chips.length →
    (chipOf s (2 * ch + k)).late = [] → Runs (.nandOpTimeout ch k) s fun t =>
      (chipOf t (2 * ch + k)).late = [now s] ∧ t.fences = s.fences ∧ Only [.qr] s t

/-! Contactless (16). -/

/-- What goes out of a command to the card next: one I-block, chained where more follows (16 Table CL-4). -/
def blockSent (c : CardRun) (cmd : List Byte) : List Byte :=
  iBlock c.bn (!(cmd.drop (c.fsc - 3)).isEmpty) (cmd.take (c.fsc - 3))

/-- The contactless reader and card emulation (16 R378 to R380, R383 to R389, R391 to R394, Tables CL-4, CL-6, CL-11,
CL-14, CL-15): pings and baseline; the steps of a transaction and its blocks; emulation; the maintenance path, whose
envelopes go out with the reader's S(WTX). The baseline is exact and
the bytes drawn are free (logs 2, 3). Outside its condition an event row changes nothing (log 1). Refusals carry LENGTH 0
(log 31). -/
def Obligations.Contactless : Prop :=
  (∀ (s : State) (c : Nat), Asked s c 0x0C01 (len 0) → rdy s rLE = true → s.nf.staged.length ≤ 16 →
    AnswersWith (.nfStatus c) s c 0x0C00 84 (fun pl => fld pl 80 4 = s.nf.staged.length ∧
      ∀ n, n < 2 → fld pl (40 * n) 1 = nfMode (getNf s n) ∧ fld pl (40 * n + 8) 2 = (getNf s n).delta % 65536 ∧
        fld pl (40 * n + 12) 4 = (getNf s n).pings % 2 ^ 32 ∧ fld pl (40 * n + 24) 4 = (getNf s n).cards % 2 ^ 32)
      fun u => u = s) ∧
  (∀ (s : State) (c u l : Nat) (rest : List Staged), Asked s c 0x0C02 (len 40) → rdy s rLE = true → asks s c 0 1 = u →
    u = 4 ∨ u = 7 ∨ u = 10 → asks s c 12 1 = l →
    s.nf.staged.filter (fun g => g.uid != bytesAt (reqPayload s c) 2 u) = rest →
    (l ≤ 26 → rest.length < 16 → AnswersWith (.cardDataStage c) s c 0x0C00 4 (fun pl => fld pl 0 4 = rest.length + 1)
      fun t => t.nf.staged = rest ++
        [{ uid := bytesAt (reqPayload s c) 2 u, data := bytesAt (reqPayload s c) 14 l, at_ := now s }] ∧ Only [.nf] s t) ∧
    (l = 0xFF → rest.length ≤ 16 → AnswersWith (.cardDataStage c) s c 0x0C00 4 (fun pl => fld pl 0 4 = rest.length)
      fun t => t.nf.staged = rest ∧ Only [.nf] s t) ∧
    (l ≤ 26 → rest.length = 16 → Answers (.cardDataStage c) s c 0x0C11 0) ∧
    (26 < l → l ≠ 0xFF → Answers (.cardDataStage c) s c 0x0CF1 0)) ∧
  (∀ (s : State) (n a : Nat) (phi : Int) (q : Nf), nfUp s n = true → s.nf.fe.length = 2 → getNf s n = q → q.ph = 0 →
    nfTab s n = q.cfg → nfMode q = 1 ∨ nfMode q = 2 → q.nextPing ≤ now s → s.clk.plln = true →
    (fieldHolds s q = false → q.based = true → q.rebase = true → Runs (.nfPing n a phi) s fun t =>
      (getNf t n).aBase = a ∧ (getNf t n).phiBase = phi ∧ (getNf t n).rebase = false ∧ (getNf t n).ph = 0 ∧
      (getNf t n).nextPing = now s + 8 * nfOpt q 4 2 ∧ Only [.nf] s t) ∧
    (fieldHolds s q = false → q.based = true → q.rebase = false → (nfOpt q 6 2 : Rat) ≤ deltaOf q a phi →
      Runs (.nfPing n a phi) s fun t =>
        (getNf t n).carrier = true ∧ (getNf t n).tx = [0x26] ∧ (getNf t n).ph = 1 ∧ (getNf t n).reqa = 1 ∧
        (getNf t n).polls = sat32 q.polls ∧ (getNf t n).aBase = q.aBase ∧ getNf t (1 - n) = getNf s (1 - n) ∧
        Only [.boot, .link, .nf] s t) ∧
    (fieldHolds s q = false → q.based = true → q.rebase = false → deltaOf q a phi < (nfOpt q 6 2 : Rat) →
      Runs (.nfPing n a phi) s fun t =>
        (getNf t n).aBase = q.aBase + ((a : Rat) - q.aBase) / (nfOpt q 3 1 : Rat) ∧ (getNf t n).ph = 0 ∧
        (getNf t n).pings = sat32 q.pings ∧ (getNf t n).polls = q.polls ∧
        (getNf t n).nextPing = now s + 8 * nfOpt q 4 2 ∧ Only [.boot, .link, .nf] s t) ∧
    (fieldHolds s q = true → q.rebase = true → Runs (.nfPing n a phi) s fun t =>
      (getNf t n).skipped = sat32 q.skipped ∧ (getNf t n).pings = q.pings ∧ (getNf t n).rebase = true ∧ Only [.nf] s t)) ∧
  (∀ (s : State) (n a : Nat) (phi : Int), fld (nfTab s n) 0 1 = 1 ∨ fld (nfTab s n) 0 1 = 2 →
    now s < (getNf s n).nextPing ∨ (getNf s n).ph ≠ 0 → exec (.nfPing n a phi) s = .next s) ∧
  (∀ (s : State) (n : Nat) (l : List (Nat × Int)), nfUp s n = true → s.nf.fe.length = 2 → (getNf s n).ph = 0 →
    l.length = 16 → (getNf s n).cfg.length = 16 → nfMode (getNf s n) = 1 ∨ nfMode (getNf s n) = 2 →
    (getNf s n).based = false → fieldHolds s (getNf s n) = false → s.clk.plln = true → fencedB s 10 (6 + n) = false →
    Runs (.nfBaseline n l) s fun t =>
      (getNf t n).aBase = ((l.map Prod.fst).sum : Rat) / 16 ∧ (getNf t n).phiBase = ((l.map Prod.snd).sum : Rat) / 16 ∧
      (getNf t n).based = true ∧ rdy t (rNF + n) = true ∧ Only [.boot, .link, .nf] s t) ∧
  (∀ (s : State) (n : Nat) (ans : List Byte) (pos lm : Nat) (q : Nf), nfUp s n = true → s.nf.fe.length = 2 →
    getNf s n = q → q.carrier = true →
    (q.ph = 1 → q.card.known = [] → s.clk.nfRun = true → s.clk.plln = true → Runs (.cardResponse n ans pos lm) s fun t =>
      (getNf t n).tx = [byteOf (0x93 + 2 * q.card.level), 0x20] ∧ (getNf t n).ph = 2 ∧ Only [.nf] s t) ∧
    (q.ph = 2 → q.card.known.length ≤ pos → pos < 40 → ans.length = 5 → s.clk.nfRun = true → s.clk.plln = true →
      Runs (.cardResponse n ans pos lm) s fun t =>
      (getNf t n).card.known =
        q.card.known ++ ((bitsOfBytes ans).drop q.card.known.length).take (pos - q.card.known.length) ++ [true] ∧
      nth (getNf t n).tx 1 0 = byteOf (0x20 + 0x10 * ((pos + 1) / 8) + (pos + 1) % 8) ∧ (getNf t n).ph = 2 ∧
      Only [.nf] s t) ∧
    (q.ph = 2 → q.card.known = [] → pos = 40 → ans.length = 5 →
      nth ans 0 0 ^^^ nth ans 1 0 ^^^ nth ans 2 0 ^^^ nth ans 3 0 = nth ans 4 0 → s.clk.nfRun = true → s.clk.plln = true →
        Runs (.cardResponse n ans pos lm) s fun t =>
        (getNf t n).tx = [byteOf (0x93 + 2 * q.card.level), 0x70] ++ ans ∧ (getNf t n).ph = 3 ∧ Only [.nf] s t) ∧
    (q.ph = 2 → q.card.known = [] → pos = 40 → q.card.restarts < 3 →
      nth ans 0 0 ^^^ nth ans 1 0 ^^^ nth ans 2 0 ^^^ nth ans 3 0 ≠ nth ans 4 0 → ans.length = 5 →
      s.clk.nfRun = true → s.clk.plln = true → Runs (.cardResponse n ans pos lm) s fun t =>
        (getNf t n).card.restarts = q.card.restarts + 1 ∧ (getNf t n).ph = 2 ∧
        (getNf t n).tx = [byteOf (0x93 + 2 * q.card.level), 0x20] ∧ Only [.nf] s t) ∧
    (∀ km inf : List Byte, q.ph = 7 → slotKey s 4 3 = some km → s.vault.rngBad = false → q.card.bn ≤ 1 →
      q.card.acc = [] → ans = byteOf (2 + q.card.bn) :: inf → inf.length = 17 → fld inf 0 1 = 0 →
      s.clk.nfRun = true → s.clk.plln = true → Runs (.cardResponse n ans pos lm) s fun t =>
        (getNf t n).card.ks = cmac (cmac km (padTo 16 q.card.uid)) ([1] ++ (getNf t n).card.rr ++ inf.drop 1) ∧
        (getNf t n).card.bn = 1 - q.card.bn ∧
        (getNf t n).tx = blockSent (getNf t n).card ([0xA2] ++ (getNf t n).card.rr ++
          cmac (getNf t n).card.ks ([0x52] ++ inf.drop 1 ++ (getNf t n).card.rr)) ∧
        (getNf t n).card.ctr = 1 ∧ (getNf t n).ph = 8 ∧ Only [.nf, .vault] s t) ∧
    (∀ inf : List Byte, q.ph = 8 → q.card.part4 = true → q.card.bn ≤ 1 → q.card.acc = [] →
      ans = byteOf (2 + q.card.bn) :: inf → bytesAt inf 1 16 ≠ cmac q.card.ks ([0x43] ++ q.card.rr ++ q.card.rc) →
      (∀ k, oldKeys s q.card = some k → bytesAt inf 1 16 ≠ cmac k.2 ([0x43] ++ q.card.rr ++ q.card.rc)) →
      s.clk.nfRun = true → s.clk.plln = true → Runs (.cardResponse n ans pos lm) s fun t =>
        (getNf t n).tx = [0xC2] ∧ (getNf t n).ph = 18 ∧ t.qr = s.qr ∧ Only [.link, .nf, .vault, .pw] s t) ∧
    (∀ inf : List Byte, q.ph = 9 → q.card.bn ≤ 1 → q.card.acc = [] → ans = byteOf (2 + q.card.bn) :: inf →
      rspOk q.card inf 32 = true → q.card.rcd < 5 → s.clk.nfRun = true → s.clk.plln = true →
      Runs (.cardResponse n ans pos lm) s fun t =>
      (getNf t n).card.recs = q.card.recs ++ [bytesAt inf 1 32] ∧ (getNf t n).card.rcd = q.card.rcd + 1 ∧
      (getNf t n).card.ctr = (q.card.ctr + 1) % 65536 ∧
      (getNf t n).tx = blockSent (getNf t n).card ([0xB0, byteOf (q.card.rcd + 1)] ++ le 2 q.card.ctr ++
        (cmac q.card.ks ([0xB0] ++ le 2 q.card.ctr)).take 8) ∧ Only [.nf, .vault] s t) ∧
    (∀ inf : List Byte, q.ph = 13 ∨ q.ph = 15 → q.card.bn ≤ 1 → q.card.acc = [] → ans = byteOf (2 + q.card.bn) :: inf →
      rspOk q.card inf 32 = true → bytesAt inf 1 32 ≠ q.card.wr → q.card.bad = 1 →
      q.card.part4 = true → s.clk.nfRun = true → s.clk.plln = true → Runs (.cardResponse n ans pos lm) s fun t =>
        (getNf t n).aborts = sat32 q.aborts ∧ (getNf t n).ph = 18 ∧ Only [.link, .nf, .vault, .pw] s t) ∧
    (∀ inf : List Byte, q.ph = 17 → q.card.bn ≤ 1 → q.card.acc = [] → ans = byteOf (2 + q.card.bn) :: inf →
      rspOk q.card inf 32 = true → bytesAt inf 1 32 = q.card.wr → s.clk.nfRun = true → s.clk.plln = true →
      Runs (.cardResponse n ans pos lm) s fun t =>
      t.nf.staged = s.nf.staged.filter (fun g => q.card.prof != some g) ∧ Only [.link, .nf, .vault, .pw] s t) ∧
    (q.ph = 0 ∨ q.ph = 11 → exec (.cardResponse n ans pos lm) s = .next s) ∧
    (∀ m : Byte, 6 ≤ q.ph ∧ q.ph ≤ 17 ∧ q.ph ≠ 11 → ans = [0xF2, m] → s.clk.nfRun = true → s.clk.plln = true →
      Runs (.cardResponse n ans pos lm) s fun t =>
      (getNf t n).tx = [0xF2, byteOf (m.toNat % 64)] ∧ (getNf t n).ph = q.ph ∧ Only [.nf] s t) ∧
    (∀ inf : List Byte, 6 ≤ q.ph ∧ q.ph ≤ 17 ∧ q.ph ≠ 11 → q.card.bn ≤ 1 → ans = byteOf (0x12 + q.card.bn) :: inf →
      s.clk.nfRun = true → s.clk.plln = true → Runs (.cardResponse n ans pos lm) s fun t =>
      (getNf t n).tx = [byteOf (0xA3 - q.card.bn)] ∧ (getNf t n).card.acc = q.card.acc ++ inf ∧
      (getNf t n).card.bn = 1 - q.card.bn ∧ (getNf t n).ph = q.ph ∧ Only [.nf] s t) ∧
    (6 ≤ q.ph ∧ q.ph ≤ 17 ∧ q.ph ≠ 11 → q.card.bn ≤ 1 → q.card.out ≠ [] → ans = [byteOf (0xA2 + q.card.bn)] →
      s.clk.nfRun = true → s.clk.plln = true → Runs (.cardResponse n ans pos lm) s fun t =>
      (getNf t n).tx = blockSent (getNf t n).card q.card.out ∧ (getNf t n).card.bn = 1 - q.card.bn ∧
      (getNf t n).card.out = q.card.out.drop (q.card.fsc - 3) ∧ (getNf t n).ph = q.ph ∧ Only [.nf] s t)) ∧
  (∀ (s : State) (n : Nat) (q : Nf), nfUp s n = true → s.nf.fe.length = 2 → getNf s n = q → q.carrier = true →
    (q.ph = 1 → q.reqa < 3 → s.clk.nfRun = true → s.clk.plln = true → Runs (.cardFrameWaitExpiry n) s fun t =>
      (getNf t n).reqa = q.reqa + 1 ∧ (getNf t n).tx = [0x26] ∧ (getNf t n).carrier = true ∧ Only [.nf] s t) ∧
    (q.ph = 1 → q.reqa = 3 → s.clk.nfRun = true → s.clk.plln = true → Runs (.cardFrameWaitExpiry n) s fun t =>
      (getNf t n).carrier = false ∧ (getNf t n).ph = 0 ∧ (getNf t n).rebase = true ∧
      (getNf t n).nextPing = now s + 80 ∧ Only [.nf] s t) ∧
    (q.ph = 10 ∨ (12 ≤ q.ph ∧ q.ph ≤ 15) → s.clk.nfRun = true → s.clk.plln = true → Runs (.cardFrameWaitExpiry n) s fun t =>
      (getNf t n).aborts = sat32 q.aborts ∧ (getNf t n).tx = [0x26] ∧ Only [.link, .nf, .pw] s t)) ∧
  (∀ (s : State) (n : Nat), n < 2 → s.nf.fe.length = 2 → (getNf s n).cfg.length = 16 →
    nfMode (getNf s n) = 2 ∨ nfMode (getNf s n) = 3 → (getNf s n).carrier = false → (getNf s n).field = false →
    fencedB s 4 n = false → s.boot.phase ≠ .reset ∨ s.pw.mode = 3 → s.vault.rngBad = false → Runs (.fieldDetect n) s fun t =>
      (getNf t n).field = true ∧ (getNf t n).wake = true ∧ fdWake t = true ∧ (getNf t n).emuUid.length = 4 ∧
      (getNf t n).emuUid.head? = some 0x08 ∧ (getNf t n).emu = 0 ∧ t.clk = { s.clk with nfSrc := true, nfRun := true } ∧
      Only [.clk, .nf, .vault, .pw] s t) ∧
  (∀ (s : State) (n : Nat), n < 2 → s.nf.fe.length = 2 → modeOf s n = 2 ∨ modeOf s n = 3 → (getNf s n).carrier = false →
    (getNf s n).field = false → fencedB s 4 n = false → s.boot.phase ≠ .reset → s.vault.rngBad = true →
    Runs (.fieldDetect n) s fun t =>
      (getNf t n).field = true ∧ (getNf t n).wake = true ∧ (getNf t n).emuUid = [] ∧ Only [.clk, .link, .nf, .pw] s t) ∧
  (∀ (s : State) (n : Nat), n < 2 → s.nf.fe.length = 2 → (getNf s n).field = true → Runs (.fieldEnd n) s fun t =>
    (getNf t n).field = false ∧ (getNf t n).ended = some (now s) ∧ (getNf t n).mks = none ∧
    Only [.clk, .link, .nf, .pw] s t) ∧
  (∀ (s : State) (n : Nat), (getNf s n).field = false → exec (.fieldEnd n) s = .next s) ∧
  (∀ (s : State) (n : Nat) (f : List Byte), (getNf s n).field = false ∨ (getNf s n).emuUid = [] →
    exec (.emulationFrame n f) s = .next s) ∧
  (∀ (s : State) (n : Nat), n < 2 → s.nf.fe.length = 2 → (getNf s n).field = true → fencedB s 4 n = false →
    modeOf s n = 2 ∨ modeOf s n = 3 → (getNf s n).carrier = false → (getNf s n).emuUid ≠ [] → s.clk.nfRun = true →
    ((getNf s n).emu = 0 → Runs (.emulationFrame n [0x26]) s fun t =>
      (getNf t n).tx = [0x04, 0x00] ∧ (getNf t n).emu = 1 ∧ Only [.nf] s t) ∧
    ((getNf s n).emu = 3 →
      Runs (.emulationFrame n [0x26]) s fun t => (getNf t n).tx = [] ∧ (getNf t n).emu = 3 ∧ Only [.nf] s t) ∧
    ((getNf s n).emu = 1 → ((getNf s n).emuUid.length = 4) → Runs (.emulationFrame n [0x93, 0x20]) s fun t =>
      (getNf t n).tx = (getNf s n).emuUid ++ [(getNf s n).emuUid.foldl (· ^^^ ·) 0] ∧ Only [.nf] s t) ∧
    ((getNf s n).emu = 2 → Runs (.emulationFrame n [0xE0, 0x80]) s fun t =>
      (getNf t n).tx = [0x05, 0x78, 0x11, 0x80, 0x00] ∧ (getNf t n).emu = 4 ∧ Only [.nf] s t) ∧
    ((getNf s n).emu = 4 → Runs (.emulationFrame n [0xC2]) s fun t =>
      (getNf t n).tx.head? = some 0xC2 ∧ (getNf t n).emu = 3 ∧ (getNf t n).mks = none ∧ Only [.link, .nf, .pw] s t) ∧
    (∀ b inf : List Byte, (getNf s n).emu = 4 → b = [2] ∨ b = [3] → Runs (.emulationFrame n (b ++ inf)) s fun t =>
      (getNf t n).tx = [0xF2, 0x01] ∧ (getNf t n).eout = [] ∧ (getNf t n).ebn = 1 - (getNf s n).ebn ∧ Only [.nf] s t) ∧
    (∀ m : Byte, (getNf s n).emu = 4 → (getNf s n).eout ≠ [] → Runs (.emulationFrame n [0xF2, m]) s fun t =>
      (getNf t n).tx = iBlock (getNf s n).ebn (!((getNf s n).eout.drop ((getNf s n).efsd - 3)).isEmpty)
        ((getNf s n).eout.take ((getNf s n).efsd - 3)) ∧
      (getNf t n).eout = (getNf s n).eout.drop ((getNf s n).efsd - 3) ∧ Only [.nf] s t) ∧
    (∀ m : Byte, (getNf s n).emu = 4 → (getNf s n).eout = [] → Runs (.emulationFrame n [0xF2, m]) s fun t =>
      (getNf t n).tx = [0xF2, 0x01] ∧ (getNf t n).eout = [] ∧ Only [.nf] s t)) ∧
  (∀ (s : State) (n : Nat) (env : List Byte), nfUp s n = true → s.nf.fe.length = 2 → (getNf s n).field = true →
    (getNf s n).emu = 4 → s.clk.nfRun = true →
    (nfOpt (getNf s n) 12 1 = 0 → Runs (.maintEnvelope n env) s fun t =>
      (getNf t n).eout = [0xFF, 0, 0, 0, 0, 0, 4] ∧ Only [.nf] s t) ∧
    (nfOpt (getNf s n) 12 1 = 1 → fld env 0 1 = 1 → s.vault.rngBad = false → Runs (.maintEnvelope n env) s fun t =>
      (getNf t n).rh.length = 16 ∧ (getNf t n).eout = [0x81, 0, 0, 0, 0, 0] ++ (getNf t n).rh ∧ Only [.nf, .vault] s t) ∧
    (∀ km : List Byte, nfOpt (getNf s n) 12 1 = 1 → fld env 0 1 = 2 → slotKey s 5 3 = some km → env.length = 38 →
      (getNf s n).rh.length = 16 →
      env.drop 22 = cmac (cmac km ([1] ++ bytesAt env 6 16 ++ (getNf s n).rh)) ([0x54] ++ (getNf s n).rh ++ bytesAt env 6 16) →
      Runs (.maintEnvelope n env) s fun t =>
        (getNf t n).mks = some (cmac km ([1] ++ bytesAt env 6 16 ++ (getNf s n).rh)) ∧ (getNf t n).wake = false ∧
        (getNf t n).mctr = 0 ∧ Only [.link, .nf, .vault, .pw] s t) ∧
    (∀ ks : List Byte, nfOpt (getNf s n) 12 1 = 1 → fld env 0 1 = 0x10 → (getNf s n).mks = some ks →
      env.length < 14 ∨ ks = [] ∨ (cmac ks (env.take (env.length - 8))).take 8 ≠ env.drop (env.length - 8) → Runs (.maintEnvelope n env) s fun t =>
        (getNf t n).eout = [0xFF, 0, 0, 0, 0, 0, 2] ∧ (getNf t n).mks = some ks ∧ Only [.nf, .vault] s t) ∧
    (∀ ks : List Byte, nfOpt (getNf s n) 12 1 = 1 → fld env 0 1 = 0x10 → (getNf s n).mks = some ks → 14 ≤ env.length →
      env.length ≤ 2062 → ks ≠ [] → (cmac ks (env.take (env.length - 8))).take 8 = env.drop (env.length - 8) →
      (getNf s n).mctr < fld env 2 4 → (chan s (6 + n)).st = .idle → s.link.chans.length = 8 → memWf s.link.mem = true →
      Runs (.maintEnvelope n env) s fun t =>
        (chan t (6 + n)).st = .pending ∧ (getNf t n).mctr = fld env 2 4 ∧ (getNf t n).mBusy = true ∧
        memReadBytes t.link.mem (reqBase (6 + n)) (env.length - 14) = (env.drop 6).take (env.length - 14) ∧
        (∀ k, k ≠ 6 + n → chan t k = chan s k) ∧ Only [.link, .hostMem, .nf, .vault] s t) ∧
    (∀ ks : List Byte, nfOpt (getNf s n) 12 1 = 1 → fld env 0 1 = 0x10 → (getNf s n).mks = some ks → 14 ≤ env.length →
      ks ≠ [] →
      (cmac ks (env.take (env.length - 8))).take 8 = env.drop (env.length - 8) → fld env 2 4 ≤ (getNf s n).mctr →
      Runs (.maintEnvelope n env) s fun t =>
        (getNf t n).eout = [0xFF, 0, 0, 0, 0, 0, 3] ∧ s.link = t.link ∧ Only [.nf, .vault] s t)) ∧
  (∀ (s : State) (n : Nat), n < 2 → s.nf.fe.length = 2 → (getNf s n).mks.isSome = true → (getNf s n).mAt + 480000 ≤ now s →
    Runs (.maintSessionTimeout n) s fun t =>
      (getNf t n).mks = none ∧ getNf t (1 - n) = getNf s (1 - n) ∧ Only [.link, .nf, .pw] s t) ∧
  ∀ s : State, Runs .profileWriteExpiry s fun t =>
    (∀ g ∈ t.nf.staged, g ∈ s.nf.staged ∧ now s < g.at_ + 20736000000) ∧
    (∀ g ∈ s.nf.staged, now s < g.at_ + 20736000000 → g ∈ t.nf.staged) ∧ t.nf.fe = s.nf.fe ∧ Only [.nf] s t

/-! Powerline (17). -/

/-- The powerline link (17 R400, R404, R405, R411 to R413, R415 to R417, R419, R424, Tables PL-10, PL-14, PL-15): its two
commands; zero crossings; what is heard of a frame, its checks, acknowledgement and delivery (after its demodulation,
plReceive); what a slot carries; a retry; the wake detector. The hub pair is drawn freely (log 2). Outside its condition an event row changes nothing (log 1). Refusals carry
LENGTH 0 (log 31). -/
def Obligations.Powerline : Prop :=
  (∀ (s : State) (c : Nat), Asked s c 0x0D01 (len 0) → rdy s rLE = true →
    AnswersWith (.plStatus c) s c 0x0D00 76 (fun pl => fld pl 48 1 = s.pl.src % 256 ∧ fld pl 52 4 = s.pl.fcnt % 2 ^ 32 ∧
      fld pl 56 4 = s.pl.sent % 2 ^ 32 ∧ fld pl 60 4 = s.pl.retries % 2 ^ 32 ∧ fld pl 72 2 = s.pl.beaconAge % 65536 ∧
      ∀ k, k < 3 → fld pl (16 * k + 8) 4 = (getZc s k).frames % 2 ^ 32 ∧ fld pl (16 * k) 1 =
        if fencedB s 5 k then 3 else if !(plSet s).contains k then 0 else if (getZc s k).locked then 1 else 2)
      fun u => u = s) ∧
  (∀ (s : State) (c d fl n : Nat), Asked s c 0x0D02 (fun k => decide (4 ≤ k ∧ k ≤ 259)) → rdy s rLE = true →
    asks s c 0 1 = d → d ≤ 32 ∨ d = 0xFF → asks s c 1 1 = fl → fl ≤ 1 → asks s c 2 1 = n → n ≠ 0 →
    reqLen s c = 4 + n →
    (plUp s = false → Answers (.plSend c) s c 0x0D10 0) ∧
    (plUp s = true → 8 ≤ s.pl.queue.length → Answers (.plSend c) s c 0x0D11 0) ∧
    (plUp s = true → s.pl.queue.length < 8 → (if fl = 1 then 13 else 40) < n → Answers (.plSend c) s c 0x0D12 0) ∧
    (plUp s = true → s.pl.queue.length < 8 → n ≤ (if fl = 1 then 13 else 40) → AnswersWith (.plSend c) s c 0x0D00 8
      (fun pl => fld pl 0 4 = s.pl.fcnt % 2 ^ 32 ∧ fld pl 4 1 = s.pl.queue.length + 1) fun u =>
        u.pl.queue.map TxFrame.mpdu = s.pl.queue.map TxFrame.mpdu ++
          [[byteOf (7 + 16 * b2n (fl == 0 && d != 0xFF)), byteOf (hubId s), byteOf d] ++ le 4 s.pl.fcnt ++
            bytesAt (reqPayload s c) 4 n] ∧
        u.pl.fcnt = s.pl.fcnt + 1 ∧ s.pl.fcnt < u.pl.reserved ∧ Only [.pl, .draws] s u)) ∧
  (∀ (s : State) (c : Nat), Asked s c 0x0D02 (fun k => decide (4 ≤ k ∧ k ≤ 259)) → reqLen s c ≠ 4 + asks s c 2 1 →
    Answers (.plSend c) s c 0x0104 0) ∧
  (∀ (s : State) (k stamp noise t0 p : Nat) (ps : List Nat), (getZc s k).last = some t0 → (getZc s k).periods = p :: ps →
    5 * (zcAt s k stamp - t0) < 3 * p → exec (.zcEdge k stamp noise) s = .next s) ∧
  (∀ (s : State) (k stamp noise t0 : Nat) (ps : List Nat), k < 3 → s.boot.phase ≠ .reset → s.pl.zc.length = 3 →
    (getZc s k).last = some t0 → (getZc s k).periods = ps → 3 * ps.headD 0 ≤ 5 * (zcAt s k stamp - t0) →
    zcPeriodOk (zcAt s k stamp - t0) = true → fencedB s 5 k = false → tickRun s = true →
      Runs (.zcEdge k stamp noise) s fun t =>
      (getZc t k).last = some (zcAt s k stamp) ∧ (getZc t k).periods = ((zcAt s k stamp - t0) :: ps).take 8 ∧
      (getZc t k).locked = zcLocks (getZc t k).periods ∧ (getZc t k).noise = noise ∧
      (∀ j, j < 3 → j ≠ k → getZc t j = getZc s j) ∧
      (∀ n : Nat, (if zcUsed t = some k then
          crossingsTo (refStamp k (zcAt s k stamp) (getZc t k)) (zcMean (getZc t k)) s else 0) = n →
        t.pl.cross = s.pl.cross + n ∧
        (n ≠ 0 → sfPos t = some 0 →
          t.lintel.due = true ∧ t.lintel.sfTick = some (now s) ∧ t.pl.opts = tab s 0x0D01)) ∧
      Only [.clk, .boot, .link, .lintel, .pl, .pw] s t) ∧
  (∀ (s : State) (k : Nat), k < 3 → s.pl.zc.length = 3 → (getZc s k).locked = true → tickRun s = true →
    Runs (.zcLockLost k) s fun t =>
    (getZc t k).locked = false ∧ (getZc t k).periods = [] ∧
    (zcUsed t ≠ none → ∀ j, rdy t j = rdy s j) ∧ (zcUsed t = none → ∀ j, j < 3 → rdy t (rPL + j) = false) ∧
    (∀ j, j < 3 → j ≠ k → getZc t j = getZc s j) ∧
    (zcUsed t = none ∨ zcUsed s ≠ some k → t.pl.start = s.pl.start ∧ t.pl.cross = s.pl.cross) ∧
    (∀ j a : Nat, zcUsed t = some j → zcUsed s = some k → (getZc s j).last = some a →
      t.pl.cross = s.pl.cross + crossingsTo (refStamp j a (getZc s j)) (zcMean (getZc s j)) s) ∧
    Only [.clk, .boot, .link, .lintel, .pl, .pw] s t) ∧
  (∀ (s : State) (k : Nat), (getZc s k).locked = false → exec (.zcLockLost k) s = .next s) ∧
  (∀ (s : State) (robust : Bool) (hdr : Nat) (m : List Byte), plCheck s robust hdr m = 0 →
    hcrc hdr = hdr / 2 ^ 22 % 256 ∧ hdr % 512 = m.length ∧ fld m 1 1 ≠ hubId s ∧
    (fld m 2 1 = hubId s ∨ fld m 2 1 = 0xFF) ∧ macOk s (plSlot m) (m.take (m.length - 8)) (m.drop (m.length - 8)) = true ∧
    nth s.pl.high (fld m 1 1) 0 < fld m 3 4) ∧
  (∀ (s : State) (a b c : List Nat) (mid ago : Nat) (rx : List (List Int)) (robust : Bool) (hdr : Nat) (m : List Byte),
    plRuns s = true → (plWorks s).isEmpty = false → lessMid mid [a, b, c] = rx → decodeFrame ((plWorks s).map (plHear s rx)) = (robust, hdr, m) →
    exec (.plFrameRx a b c mid ago) s = .next (plReceive robust hdr m ago (plCounted rx s))) ∧
  (∀ (s : State) (rx : List (List Int)) (k : Nat), s.pl.zc.length = 3 → k ∈ plWorks s →
    (getZc (plCounted rx s) k).frames = sat32 (getZc s k).frames ∧
    (getZc (plCounted rx s) k).erased = satAdd 0xFFFFFFFF (getZc s k).erased ((plHear s rx k).gone.filter id).length ∧
    Only [.pl] s (plCounted rx s)) ∧
  (∀ (s t : State) (robust : Bool) (hdr ago : Nat) (m body : List Byte), plReceive robust hdr m ago s = t →
    (m.drop 7).take (m.length - 15) = body →
    (hdr.testBit 9 = true → hcrc hdr ≠ hdr / 2 ^ 22 % 256 →
      t.pl = { s.pl with fails := s.pl.fails.modify 0 sat32 } ∧ Only [.pl] s t) ∧
    (hdr.testBit 9 = false → 1 ≤ plCheck s robust hdr m → plCheck s robust hdr m ≤ 6 →
        t.pl.fails = s.pl.fails.modify (plCheck s robust hdr m - 1) sat32 ∧ t.pl.high = s.pl.high ∧ t.pl.ack = s.pl.ack ∧
        Only [.pl, .vault] s t) ∧
    (hdr.testBit 9 = false → plCheck s robust hdr m = 7 →
      t.pl.ack = some (fld m 3 4 % 4096, s.pl.cross - ago + 2) ∧ t.pl.high = s.pl.high ∧ t.pl.fails = s.pl.fails ∧
      Only [.vault, .pl] s t) ∧
    (hdr.testBit 9 = false → plCheck s robust hdr m = 0 → fld m 0 1 = 0x17 → plOpt s 10 = 1 →
      s.link.noteCh ≠ 0xFF → s.link.noteMask.testBit 13 = true → s.link.notes.length < 64 →
        t.pl.high = s.pl.high.set (fld m 1 1) (fld m 3 4) ∧
        t.pl.ack = some (fld m 3 4 % 4096, s.pl.cross - ago + 2) ∧
        t.link.notes = s.link.notes ++ [⟨0x0D80, [1, byteOf (fld m 1 1), byteOf body.length, 0] ++ le 4 (fld m 3 4) ++
          le 8 (now s) ++ padTo 40 body⟩] ∧ Only [.link, .vault, .pl, .pw] s t) ∧
    (∀ j : Nat, hdr.testBit 9 = false → plCheck s robust hdr m = 0 → fld m 0 1 = 1 → budgetRole s = 1 →
      s.pl.beaconSrc = none → fld body 0 2 = s.lintel.epoch →
      (List.range (fld body 3 1)).find? (fun j => fld body (4 + 7 * j) 1 == hubId s) = some j →
        t.lintel = { s.lintel with grant := some ((List.range 3).map fun l => fld body (5 + 7 * j + 2 * l) 2) } ∧
        t.pl.beaconAge = 0 ∧ t.pl.beaconSrc = some (fld m 1 1, 0) ∧ Only [.lintel, .vault, .pl] s t) ∧
    (hdr.testBit 9 = false → plCheck s robust hdr m = 0 → fld m 0 1 = 2 → budgetRole s = 2 →
      fld body 0 2 = s.lintel.epoch → fld body 9 1 = 0 →
        t.lintel.demands = s.lintel.demands.set (fld m 1 1 - 1)
          (true, (List.range 3).map fun l => fld body (2 + 2 * l) 2) ∧ t.lintel.grant = s.lintel.grant ∧
        t.pl.members = s.pl.members.set (fld m 1 1 - 1) true ∧ Only [.lintel, .vault, .pl] s t) ∧
    (∀ (f : TxFrame) (rest : List TxFrame), hdr.testBit 9 = true → hcrc hdr = hdr / 2 ^ 22 % 256 → hdr % 512 = 0 →
      robust = false → s.pl.queue = f :: rest → f.sentAt.isSome = true → f.fcnt % 4096 = hdr / 1024 % 4096 →
        t.pl.queue = rest ∧ t.pl.fails = s.pl.fails ∧ Only [.link, .pl, .pw] s t)) ∧
  (∀ (s : State) (a b c : List Nat) (mid ago : Nat),
    (plRuns s = false → exec (.plFrameRx a b c mid ago) s = .next s) ∧
    (plRuns s = true → (plWorks s).isEmpty = true → exec (.plFrameRx a b c mid ago) s = .next (plUnsettled s))) ∧
  (∀ (s : State) (off : List Bool), sfPos s = none ∨ s.pl.txAt = some s.pl.cross → exec (.plFrameTx off) s = .next s) ∧
  (∀ (s : State) (off : List Bool) (pos : Nat), sfPos s = some pos → plRuns s = true → plUp s = true →
    s.pl.txAt ≠ some s.pl.cross →
    (∀ info : Nat, s.pl.ack = some (info, s.pl.cross) → Runs (.plFrameTx off) s fun t =>
      t.pl.airHdr = plHeader 0 info true ∧ t.pl.air = plAir false (plHeader 0 info true) [] ∧ t.pl.ack = none ∧
      t.pl.paen = true ∧ t.pl.airAt = now s ∧ t.pl.txAt = some s.pl.cross ∧
      t.pl.queue = s.pl.queue ∧ Only [.boot, .link, .tabs, .ev, .ports, .fences, .pl, .pw] s t) ∧
    (∀ (info at_ : Nat), s.pl.ack = some (info, at_) → s.pl.cross < at_ → exec (.plFrameTx off) s = .next s) ∧
    (∀ (f : TxFrame) (rest : List TxFrame) (tg : List Byte), ackDue s s.pl.cross = none →
      hubPair pos = true → s.pl.queue = f :: rest →
      f.sentAt = none → f.skip = 0 → f.ready + 8 ≤ now s → plTag s f.mpdu = some tg → f.ackReq = true →
      Runs (.plFrameTx off) s fun t =>
        t.pl.queue = { f with sent := f.sent + 1, sentAt := some s.pl.cross } :: rest ∧
        t.pl.airHdr = plHeader (f.mpdu.length + 8) (pos / 2) false ∧
        t.pl.air = plAir f.robust t.pl.airHdr (f.mpdu ++ tg) ∧ t.pl.paen = true ∧ t.pl.airAt = now s ∧
        Only [.boot, .link, .tabs, .ev, .ports, .fences, .vault, .pl, .pw] s t) ∧
    (∀ (u : State) (tg : List Byte), superframeStart s = u → ackDue s s.pl.cross = none → pos = 0 → budgetRole s = 2 →
      hubId s ≤ 12 → s.lintel.conflict = 0 →
      plTag s ([1, byteOf (hubId s), 0xFF] ++ le 4 s.pl.fcnt ++ beaconBody u) = some tg →
      Runs (.plFrameTx off) s fun t =>
        t.pl.airHdr = plHeader (15 + (beaconBody u).length) 0 false ∧
        t.pl.air = plAir false t.pl.airHdr ([1, byteOf (hubId s), 0xFF] ++ le 4 s.pl.fcnt ++ beaconBody u ++ tg) ∧
        t.pl.fcnt = s.pl.fcnt + 1 ∧ t.pl.txAt = some s.pl.cross ∧ t.pl.queue = s.pl.queue ∧ t.pl.paen = true ∧
        t.lintel = u.lintel ∧
        Only [.boot, .link, .tabs, .ev, .ports, .lintel, .fences, .vault, .pl, .pw] s t) ∧
    (∀ tg : List Byte, ackDue s s.pl.cross = none → pos = 2 + 2 * hubId s → budgetRole s = 1 → hubId s ≤ 12 → s.pl.src ≠ 0 →
      plTag s ([2, byteOf (hubId s), 0xFF] ++ le 4 s.pl.fcnt ++ demandBody s) = some tg →
      Runs (.plFrameTx off) s fun t =>
        t.pl.airHdr = plHeader 27 (1 + hubId s) false ∧ t.pl.leaving = false ∧ t.pl.fcnt = s.pl.fcnt + 1 ∧ t.pl.paen = true ∧
        Only [.boot, .link, .tabs, .ev, .ports, .fences, .vault, .pl, .pw] s t)) ∧
  (∀ (s : State) (f : TxFrame) (rest : List TxFrame) (n : Nat), s.pl.queue = f :: rest → f.sentAt = some n →
    n + 4 ≤ s.pl.cross →
    (4 ≤ f.sent → Runs .plAckTimeout s fun t =>
      t.pl.queue = rest ∧ t.pl.failed = sat32 s.pl.failed ∧ t.pl.retries = s.pl.retries ∧ Only [.link, .pl, .pw] s t) ∧
    (f.sent < 4 → Runs .plAckTimeout s fun t =>
      t.pl.retries = sat32 s.pl.retries ∧ t.pl.failed = s.pl.failed ∧ t.pl.queue.map TxFrame.fcnt = f.fcnt :: rest.map TxFrame.fcnt ∧
      t.pl.queue.map TxFrame.mpdu = f.mpdu :: rest.map TxFrame.mpdu ∧ (t.pl.queue.all fun g => g.skip < 4 || rest.contains g) = true ∧
      t.pl.queue.head?.map TxFrame.sentAt = some none ∧ Only [.pl, .draws] s t)) ∧
  (∀ (s : State), (s.pl.queue.head?.bind TxFrame.sentAt) = none → exec .plAckTimeout s = .next s) ∧
  (∀ (s : State) (a : List (List Nat)) (mid : Nat) (rx : List (List Int)), lessMid mid a = rx →
    exec (.wakePreamble a mid) s = .next (wakeHeard (wakeDecode s rx) rx s)) ∧
  (∀ (s t : State) (rx : List (List Int)) (hdr : Nat) (m : List Byte), wakeHeard (true, hdr, m) rx s = t → s.pw.mode = 2 →
    s.pl.kept = none → s.clk.plRun = true → s.pl.window ≠ none → (plWorks s).isEmpty = false →
    hcrc hdr = hdr / 2 ^ 22 % 256 → hdr % 512 = 15 → s.pw.last.mask.testBit 3 = true →
    (s.pw.fired.any fun f => f.1 == 3) = false →
      t.pl = { s.pl with kept := some (rx.map fun x => x.take 13107, s.pl.cross) } ∧
      t.pw = { s.pw with fired := s.pw.fired ++ [(3, 0)] } ∧ Only [.pl, .pw] s t) ∧
  ∀ (s : State) (a : List (List Nat)) (mid : Nat) (rx : List (List Int)), lessMid mid a = rx →
    s.pw.mode ≠ 2 ∨ s.pl.kept ≠ none ∨ wakeOpen s = false ∨
      s.pw.last.mask.testBit 3 = false ∨ (wakeDecode s rx).1 = false ∨ (wakeDecode s rx).2.1 % 512 ≠ 15 →
    exec (.wakePreamble a mid) s = .next s

/-! Firmware update (20). -/

/-- The update commands (20 R469, R471 to R479, Tables FU-2, FU-6 to FU-11): staging and its checks; chunks; an activation
with its pause, or its fallback; the floor committed; an abort. The pause and the fuses blown are operands. Outside its
condition an event row changes nothing (log 1). -/
def Obligations.Update : Prop :=
  (∀ (s : State) (ch c : Nat) (m : List Byte), Asked s ch 0x1001 (len 324) → rdy s rAP = true → asks s ch 0 1 = c → 1 ≤ c →
    c ≤ 5 → (reqPayload s ch).drop 4 = m →
    (s.upd.st = 0 ∨ (s.upd.st = 4 ∧ s.upd.image = c) → manCheck s c m (otherImgs s c) = 0x0200 →
      AnswersWith (.updateStage ch) s ch 0x1000 8 (fun pl => fld pl 0 1 = c ∧ fld pl 1 1 = 1 ∧ fld pl 4 4 = 1310720) fun u =>
        u.upd.st = 1 ∧ u.upd.image = c ∧ u.upd.img.man = m ∧ u.upd.img.out = [] ∧ u.upd.img.seq = 1 ∧ Only [.upd] s u) ∧
    (s.upd.st = 0 ∨ (s.upd.st = 4 ∧ s.upd.image = c) → manCheck s c m (otherImgs s c) ≠ 0x0200 →
      AnswersWith (.updateStage ch) s ch 0x1013 8 (fun pl => fld pl 2 2 = manCheck s c m (otherImgs s c) % 65536) fun u =>
        u.upd = { s.upd with lastCode := manCheck s c m (otherImgs s c) } ∧ Only [.upd] s u) ∧
    (1 ≤ s.upd.st → s.upd.st ≤ 3 ∨ s.upd.image ≠ c → Answers (.updateStage ch) s ch 0x1010 0)) ∧
  (∀ (s : State) (ch c n : Nat) (d : List Byte), Asked s ch 0x1002 (fun k => decide (8 ≤ k ∧ k ≤ 2008)) → asks s ch 0 1 = c →
    1 ≤ c → c ≤ 5 → asks s ch 2 2 = n → reqLen s ch = 8 + n → (reqPayload s ch).drop 8 = d → s.upd.image = c →
    (asks s ch 1 1 = 1 → 1 ≤ n → n ≤ 2000 → s.upd.st ≠ 1 → Answers (.updateData ch) s ch 0x1011 0) ∧
    (asks s ch 1 1 = 1 → 1 ≤ n → n ≤ 2000 → s.upd.st = 1 → asks s ch 4 4 ≠ s.upd.img.seq →
      AnswersWith (.updateData ch) s ch 0x1014 8 (fun pl => fld pl 2 2 = 0x020C) fun u =>
        u.upd.st = 0 ∧ u.upd.image = 0 ∧ u.upd.lastCode = 0x020C ∧ Only [.link, .upd, .pw] s u) ∧
    (asks s ch 1 1 = 1 → 1 ≤ n → n ≤ 2000 → s.upd.st = 1 → asks s ch 4 4 = s.upd.img.seq → s.upd.img.hdr = [] →
      s.upd.img.out.length + n ≤ manLen s.upd.img.man → AnswersWith (.updateData ch) s ch 0x1000 8
        (fun pl => fld pl 2 2 = 0x0200 ∧ fld pl 4 4 = s.upd.img.out.length + n) fun u =>
        u.upd.st = 1 ∧ u.upd.img.out = s.upd.img.out ++ d ∧ u.upd.img.seq = s.upd.img.seq + 1 ∧ Only [.upd] s u) ∧
    (asks s ch 1 1 = 1 → 1 ≤ n → n ≤ 2000 → s.upd.st = 1 → asks s ch 4 4 = s.upd.img.seq → s.upd.img.hdr = [] →
      manLen s.upd.img.man < s.upd.img.out.length + n →
      AnswersWith (.updateData ch) s ch 0x1014 8 (fun pl => fld pl 2 2 = 0x0207) fun u =>
        u.upd.st = 0 ∧ Only [.link, .upd, .pw] s u) ∧
    (asks s ch 1 1 = 2 → 1 ≤ n → n ≤ 2000 → s.upd.st = 1 → c = 2 ∨ c = 3 →
      AnswersWith (.updateData ch) s ch 0x1014 8 (fun pl => fld pl 2 2 = 0x020C) fun u =>
        u.upd.st = 0 ∧ Only [.link, .upd, .pw] s u) ∧
    (asks s ch 1 1 = 4 → n = 0 → s.upd.st = 1 → asks s ch 4 4 = s.upd.img.seq → deltaOpen s.upd.img = false →
      s.upd.img.ins = 0 → s.upd.img.part = [] → s.upd.img.out.length = manLen s.upd.img.man →
      AnswersWith (.updateData ch) s ch 0x1000 8 (fun pl => fld pl 2 2 = 0x0200) fun u =>
        u.upd.st = 2 ∧ u.upd.img.out = s.upd.img.out ∧ Only [.link, .upd, .pw] s u)) ∧
  (∀ (s : State) (ch c : Nat), Asked s ch 0x1003 (len 4) → asks s ch 0 1 = c → 1 ≤ c → c ≤ 5 →
    (s.upd.st ≠ 2 → Answers (.updateActivate ch) s ch 0x1011 0) ∧
    (s.upd.st = 2 → s.upd.image = c → c = 2 → ksIdle s = false → Answers (.updateActivate ch) s ch 0x1012 0) ∧
    (s.upd.st = 2 → s.upd.image = c → (c = 2 → ksIdle s = true) → s.eg.pfailTick.isSome = true → Answers (.updateActivate ch) s ch 0x1016 0) ∧
    (s.upd.st = 2 → s.upd.image = c → c = 3 → s.eg.pfailTick = none → sealPort s = false →
      Answers (.updateActivate ch) s ch 0x10F2 0) ∧
    (s.upd.st = 2 → s.upd.image = c → c ≠ 3 → s.eg.pfailTick = none → s.boot.imgs.length = 5 → s.ports.length = 24 →
      c = 2 → ksIdle s = true → updCheck s = 0x0200 → Holds (.updateActivate ch) s ch fun u =>
        u.boot.held = 2 ∧ rdy u rKS = false ∧ rdy u rSafety = false ∧ (∀ p, p < 24 → rdy u p = false) ∧
        u.clk = { s.clk with wdArmed := false, wdMissed := 0 } ∧ (getImg u 2).out = s.upd.img.out ∧ u.upd.st = 4 ∧
        u.safety = { s.safety with sameN := 0, sokTest := 0 } ∧ Only [.clk, .boot, .link, .safety, .upd, .pw] s u) ∧
    (s.upd.st = 2 → s.upd.image = c → c = 1 ∨ c = 4 ∨ c = 5 → s.eg.pfailTick = none → s.boot.imgs.length = 5 →
      (c = 5 → s.qr.ops = []) → (c = 1 → ∀ k, k < 8 → k = ch ∨ (chan s k).st ≠ .inService) →
      (updCheck s = 0x0200 → Holds (.updateActivate ch) s ch fun u =>
        u.boot.held = c ∧ rdy u (imgRdy c) = false ∧ (getImg u c).out = s.upd.img.out ∧ (getImg u c).man = s.upd.img.man ∧
        (getImg u c).st = .active ∧ (∀ k, 1 ≤ k → k ≤ 5 → k ≠ c → getImg u k = getImg s k) ∧ u.upd.st = 4 ∧
        u.upd.ch = some ch ∧ Only [.boot, .link, .nf, .upd, .pl, .pw] s u) ∧
      (updCheck s ≠ 0x0200 → Holds (.updateActivate ch) s ch fun u =>
        u.boot.held = c ∧ rdy u (imgRdy c) = false ∧ u.boot.imgs = s.boot.imgs ∧ u.upd.outcome = 1 ∧
        u.upd.lastCode = updCheck s ∧ u.upd.fallbacks = sat32 s.upd.fallbacks ∧
        Only [.boot, .link, .nf, .upd, .pl, .pw] s u)) ∧
    (s.upd.st = 2 → s.upd.image = c → s.eg.pfailTick = none → (c = 5 ∧ s.qr.ops ≠ []) ∨
      (c = 1 ∧ ∃ k, k < 8 ∧ k ≠ ch ∧ (chan s k).st = .inService) → Holds (.updateActivate ch) s ch fun u =>
        u.boot = s.boot ∧ u.upd = { s.upd with st := 3, quiesce := true, ch := some ch } ∧ Only [.link, .upd, .pw] s u) ∧
    (s.upd.st = 2 → s.upd.image = c → c = 3 → s.eg.pfailTick = none → sealPort s = true → updCheck s ≠ 0x0200 →
      AnswersWith (.updateActivate ch) s ch 0x1015 16 (fun pl => fld pl 1 1 = 1 ∧ fld pl 2 2 = updCheck s % 65536) fun u =>
        u.upd.st = 0 ∧ u.upd.fallbacks = sat32 s.upd.fallbacks ∧ u.upd.lastCode = updCheck s ∧ Only [.link, .upd, .pw] s u) ∧
    (s.upd.st = 2 → s.upd.image = c → c = 3 → s.eg.pfailTick = none → sealPort s = true → s.cairn.queue = [] →
      updCheck s = 0x0200 → Holds (.updateActivate ch) s ch fun u =>
        u.upd.st = 3 ∧ u.boot = s.boot ∧ u.upd.orTok = some s.cairn.next ∧
        u.cairn.queue = [entryQ s 0 4 0xFF (orImageData s s.upd.img.man)] ∧ Only [.link, .cairn, .upd, .pw] s u)) ∧
  (∀ (s : State) (pause ch c : Nat), s.boot.held = c → 1 ≤ c → c ≤ 5 → c ≠ 3 → s.upd.ch = some ch →
    (chan s ch).st = .inService → ch < 8 → (c = 2 → ksReady { s with boot := { s.boot with held := 0 } } = true) →
    (s.upd.outcome = 0 → AnswersWith (.activationPauseEnd pause) s ch 0x1000 16 (fun pl =>
        fld pl 1 1 = 0 ∧ fld pl 4 4 = pause % 2 ^ 32 ∧ fld pl 8 8 = s.upd.swTick % 2 ^ 64) fun u =>
      u.boot.held = 0 ∧ rdy u (imgRdy c) = true ∧ u.upd = { s.upd with ch := none } ∧
      (c = 2 → ∀ p, p < s.ports.length → p < 24 → fitted s p = true →
        (getPort u p).life.other = (getPort s p).life.other + pause / 125) ∧
      (c ≠ 2 → u.ports = s.ports) ∧ Only [.clk, .boot, .link, .ports, .upd, .pw] s u) ∧
    (s.upd.outcome = 1 → AnswersWith (.activationPauseEnd pause) s ch 0x1015 16 (fun pl =>
        fld pl 1 1 = 1 ∧ fld pl 2 2 = s.upd.lastCode % 65536) fun u =>
      u.boot.held = 0 ∧ rdy u (imgRdy c) = true ∧ u.upd.st = 0 ∧ u.boot.imgs = s.boot.imgs ∧
      (c ≠ 2 → u.ports = s.ports) ∧ Only [.clk, .boot, .link, .ports, .upd, .pw] s u)) ∧
  (∀ (s : State) (pause : Nat), s.boot.held = 2 → ksReady { s with boot := { s.boot with held := 0 } } = false →
    exec (.activationPauseEnd pause) s = .next s) ∧
  (∀ (s : State) (pause : Nat), s.boot.held = 0 → exec (.activationPauseEnd pause) s = .next s) ∧
  (∀ (s : State) (ch c before goal blown : Nat), Asked s ch 0x1004 (len 4) → asks s ch 0 1 = c → 1 ≤ c → c ≤ 5 →
    nth s.otp.floors (c - 1) 0 = before → before ≤ 64 → s.otp.floors.length = 5 →
    max before (min 64 (manEpoch (getImg s c).man)) = goal →
    (1 ≤ s.upd.st → s.upd.st ≤ 3 ∨ s.upd.image ≠ c → Answers (.updateCommit ch blown) s ch 0x1010 0) ∧
    (s.upd.st = 0 ∨ (s.upd.st = 4 ∧ s.upd.image = c) → s.eg.pfailTick.isSome = true →
      Answers (.updateCommit ch blown) s ch 0x1016 0) ∧
    (s.upd.st = 0 ∨ (s.upd.st = 4 ∧ s.upd.image = c) → s.eg.pfailTick = none → rdy s (imgRdy c) = true →
      goal ≤ before + blown → AnswersWith (.updateCommit ch blown) s ch 0x1000 4
        (fun pl => pl = [byteOf c, byteOf before, byteOf goal, 0]) fun u =>
        u.otp = { s.otp with floors := s.otp.floors.set (c - 1) goal } ∧ u.upd.st = 0 ∧ u.upd.image = 0 ∧
        Only [.otp, .link, .upd, .pw] s u) ∧
    (s.upd.st = 0 ∨ (s.upd.st = 4 ∧ s.upd.image = c) → s.eg.pfailTick = none → rdy s (imgRdy c) = true →
      before + blown < goal → AnswersWith (.updateCommit ch blown) s ch 0x1018 4
        (fun pl => pl = [byteOf c, byteOf before, byteOf (before + blown), 0]) fun u =>
        u.otp = { s.otp with floors := s.otp.floors.set (c - 1) (before + blown) } ∧ u.upd = s.upd ∧ Only [.otp] s u)) ∧
  (∀ (s : State) (ch c : Nat), Asked s ch 0x1005 (len 4) → asks s ch 0 1 = c →
    (s.upd.st = 0 → Answers (.updateAbort ch) s ch 0x1011 0) ∧
    (1 ≤ s.upd.st → s.upd.image ≠ c → Answers (.updateAbort ch) s ch 0x1011 0) ∧
    (3 ≤ s.upd.st → s.upd.image = c → Answers (.updateAbort ch) s ch 0x1017 0) ∧
    (s.upd.st = 1 ∨ s.upd.st = 2 → s.upd.image = c → AnswersWith (.updateAbort ch) s ch 0x1000 4
      (fun pl => fld pl 0 1 = c) fun u =>
        u.upd.st = 0 ∧ u.upd.image = 0 ∧ u.upd.img = {} ∧ u.boot = s.boot ∧ Only [.link, .upd, .pw] s u)) ∧
  ∀ (s : State) (c : Nat), Asked s c 0x1006 (len 0) → rdy s rAP = true → AnswersWith (.updateStatus c) s c 0x1000 68
    (fun pl => fld pl 0 1 = s.upd.image % 256 ∧ fld pl 1 1 = s.upd.st % 256 ∧ fld pl 2 2 = s.upd.lastCode % 65536 ∧
      (∀ k, k < 5 → fld pl (26 + 8 * k) 1 = nth s.otp.floors k 0 % 256) ∧ fld pl 60 4 = s.upd.activations % 2 ^ 32 ∧
      fld pl 64 4 = s.upd.fallbacks % 2 ^ 32) fun u => u = s

/-! Display (23). -/

/-- The display controller (23 R512, R513, R515 to R519, Tables DC-6, DC-9 to DC-11): its commands; the frame check, the
safe frame and what applies at a frame start; switch-on and the end of a discharge. The tick in the response of
DISP_CONTROL is free (log 2). Outside its condition an event row changes nothing (log 1). Refusals carry LENGTH 0 (log
31). -/
def Obligations.Display : Prop :=
  (∀ (s : State) (c : Nat), Asked s c 0x1301 (len 0) → rdy s rDisp = true ∨ dispFenced s = true →
    AnswersWith (.dispStatus c) s c 0x1300 36 (fun pl => fld pl 0 1 = dispState s ∧ fld pl 4 4 = s.disp.frame % 2 ^ 32 ∧
      fld pl 8 4 = s.disp.refCrc % 2 ^ 32 ∧ fld pl 12 4 = s.disp.lastCrc % 2 ^ 32 ∧
      fld pl 20 4 = s.disp.mismatches % 2 ^ 32 ∧ fld pl 32 4 = s.disp.discharges % 2 ^ 32) fun u => u = s) ∧
  (∀ (s : State) (c a : Nat), Asked s c 0x1302 (len 4) → rdy s rDisp = true → asks s c 0 1 = a → a ≤ 3 →
    (dispFenced s = true → Answers (.dispControl c) s c 0x13F4 0) ∧
    (dispFenced s = false → s.disp.mode = 3 → Answers (.dispControl c) s c 0x1311 0) ∧
    (dispFenced s = false → s.disp.mode ≠ 3 → a = 3 → dispFormat s = 0 → Answers (.dispControl c) s c 0x1310 0) ∧
    (dispFenced s = false → s.disp.mode = 2 → a = 0 ∨ a = 2 ∨ (a = 3 ∧ dispFormat s ≠ 0) →
      AnswersWith (.dispControl c) s c 0x1300 12 (fun pl => fld pl 0 1 = dispState s) fun u =>
        u.disp = { s.disp with act := some a } ∧ Only [.disp, .draws] s u) ∧
    (dispFenced s = false → s.disp.mode = 1 → a = 0 → AnswersWith (.dispControl c) s c 0x1300 12
      (fun pl => fld pl 0 1 = 4) fun u =>
        u.disp.mode = 3 ∧ u.disp.hostOff = true ∧ u.disp.vcom = false ∧ Only [.link, .disp, .pw, .draws] s u) ∧
    (dispFenced s = false → s.disp.mode = 0 → a = 1 → AnswersWith (.dispControl c) s c 0x1300 12
      (fun pl => fld pl 0 1 = 1) fun u =>
        u.disp.mode = 1 ∧ u.disp.vcom = true ∧ u.disp.hostOff = false ∧ u.disp.ref = none ∧ u.clk.pixRun = true ∧
        Only [.clk, .disp, .draws] s u) ∧
    (dispFenced s = false → s.disp.mode ≤ 1 → a = 2 ∨ (a = 3 ∧ dispFormat s ≠ 0) →
      AnswersWith (.dispControl c) s c 0x1300 12 (fun pl => fld pl 0 1 = dispState s ∧ fld pl 1 1 = a - 2) fun u =>
        u.disp.shown = a - 2 ∧ u.disp.written = true ∧ u.disp.mode = s.disp.mode ∧ Only [.disp, .draws] s u) ∧
    (dispFenced s = false → s.disp.mode = 0 → a = 0 → AnswersWith (.dispControl c) s c 0x1300 12
      (fun pl => fld pl 0 1 = 0) fun u => u.disp = { s.disp with hostOff := true } ∧ Only [.disp, .draws] s u) ∧
    (dispFenced s = false → s.disp.mode = 1 ∨ s.disp.mode = 2 → a = 1 → AnswersWith (.dispControl c) s c 0x1300 12
      (fun pl => fld pl 0 1 = dispState s) fun u => Only [.draws] s u)) ∧
  (∀ (s : State) (c : Nat), Asked s c 0x1303 (fun k => decide (9 ≤ k ∧ k ≤ 2008)) → reqLen s c ≠ 8 + asks s c 2 2 →
    Answers (.dispWrite c) s c 0x0104 0) ∧
  (∀ (s : State) (c r n off base size : Nat) (d : List Byte), Asked s c 0x1303 (fun k => decide (9 ≤ k ∧ k ≤ 2008)) →
    dispFenced s = false → rdy s rDisp = true → asks s c 0 1 = r → r ≤ 3 → asks s c 2 2 = n → 1 ≤ n →
    n ≤ 2000 → reqLen s c = 8 + n → asks s c 4 4 = off → dispRegion s r = some (base, size) →
    (reqPayload s c).drop 8 = d →
    (off + n ≤ size → memWf s.disp.mem = true → AnswersWith (.dispWrite c) s c 0x1300 8 (fun pl => fld pl 4 4 = off + n)
      fun u => memReadBytes u.disp.mem (base + off) n = d ∧
        (∀ b, b < base + off ∨ base + off + n ≤ b → memRead u.disp.mem b = memRead s.disp.mem b) ∧
        u.disp.written = (s.disp.written || inScan s (base + off) n) ∧ u.disp.safeMem = s.disp.safeMem ∧
        Only [.disp, .frameMem] s u) ∧
    (size < off + n → Answers (.dispWrite c) s c 0x1310 0)) ∧
  (∀ (s : State) (c n : Nat), Asked s c 0x1303 (fun k => decide (9 ≤ k ∧ k ≤ 2008)) → dispFenced s = false →
    rdy s rDisp = true → asks s c 0 1 = 1 → asks s c 2 2 = n → 1 ≤ n → n ≤ 2000 → reqLen s c = 8 + n →
    dispFormat s = 0 → Answers (.dispWrite c) s c 0x1310 0) ∧
  (∀ (s : State) (up : List (Nat × Byte)), s.disp.mode = 1 → s.clk.pixRun = true → s.clk.busRun = true →
    s.disp.vcomAt + 8 * fld (dispTim s) 32 2 ≤ now s → Runs (.frameStart up) s fun t =>
      t.disp.mode = 2 ∧ t.disp.frame = 0 ∧ t.disp.frameAt = now s ∧ t.disp.goe = goeAt t 0 ∧ t.disp.stv = stvAt t 0 0 ∧
      t.disp.cpv = cpvAt t 0 ∧ t.disp.pol = polAt t 0 0 ∧ t.disp.link = linkWord t 0 0 ∧ Only [.disp, .frameMem] s t) ∧
  (∀ (s : State) (up : List (Nat × Byte)), s.disp.mode = 0 ∨ s.disp.mode = 3 ∨ s.clk.pixRun = false ∨ s.clk.busRun = false →
    exec (.frameStart up) s = .next s) ∧
  (∀ (s : State) (up : List (Nat × Byte)) (c : Nat), s.disp.mode = 2 → s.clk.pixRun = true → s.clk.busRun = true →
    s.disp.timNew = false →
    s.disp.safeLoad = false → frameCrc (dispUpset up s) = c →
    (s.disp.act = none → s.disp.safe = false → s.disp.written = false → s.disp.ref = none →
      Runs (.frameStart up) s fun t =>
        t.disp.ref = some c ∧ t.disp.refCrc = c ∧ t.disp.lastCrc = c ∧ t.disp.frame = (s.disp.frame + 1) % 2 ^ 32 ∧
        t.disp.frameAt = now s ∧ t.disp.link = linkWord t 0 0 ∧
        t.disp.mem = (dispUpset up s).disp.mem ∧ Only [.disp, .frameMem] s t) ∧
    (s.disp.act = none → s.disp.safe = false → s.disp.written = true → Runs (.frameStart up) s fun t =>
      t.disp.ref = none ∧ t.disp.unchecked = sat32 s.disp.unchecked ∧ t.disp.written = false ∧ t.disp.safe = false ∧
      t.disp.mismatches = s.disp.mismatches ∧ Only [.disp, .frameMem] s t) ∧
    (s.disp.act = none → s.disp.safe = false → s.disp.written = false → s.disp.ref = some c → s.disp.lost = 0 →
      Runs (.frameStart up) s fun t =>
        t.disp.mis = 0 ∧ t.disp.mismatches = s.disp.mismatches ∧ t.disp.safe = false ∧ Only [.disp, .frameMem] s t) ∧
    (∀ r : Nat, s.disp.act = none → s.disp.safe = false → s.disp.written = false → s.disp.ref = some r → r ≠ c →
      s.disp.mis = 0 → Runs (.frameStart up) s fun t =>
        t.disp.mis = 1 ∧ t.disp.mismatches = sat32 s.disp.mismatches ∧ t.disp.safe = false ∧
        Only [.disp, .frameMem] s t) ∧
    (∀ r : Nat, s.disp.act = none → s.disp.safe = false → s.disp.written = false → s.disp.ref = some r → r ≠ c →
      s.disp.mis = 1 → s.disp.lost = 0 → Runs (.frameStart up) s fun t =>
        t.disp.safe = true ∧ t.disp.lost = 1 ∧ t.disp.safeShows = sat32 s.disp.safeShows ∧
        t.ev.queue = s.ev.queue ++ [⟨0, 0x1301, 0, 0xFF, padTo 16 (le 4 c ++ le 4 r)⟩] ∧
        Only [.link, .ev, .disp, .frameMem, .pw] s t) ∧
    (s.disp.act = none → s.disp.safe = true → s.disp.safeMis = 0 → s.disp.written = false → s.disp.ref = some c →
      s.disp.lost = 2 → s.disp.hits = 1 → Runs (.frameStart up) s fun t =>
        t.disp.safe = false ∧ t.disp.lost = 0 ∧ Only [.link, .disp, .frameMem, .pw] s t) ∧
    (s.disp.act = some 3 → s.disp.safe = false → s.disp.written = true → Runs (.frameStart up) s fun t =>
      t.disp.shown = 1 ∧ t.disp.act = none ∧ t.disp.written = true ∧ Only [.disp, .frameMem] s t) ∧
    (s.disp.act = some 0 → s.disp.safe = false → s.disp.written = true → Runs (.frameStart up) s fun t =>
      t.disp.mode = 3 ∧ t.disp.pdisch = true ∧ t.disp.pdAt = now s ∧ t.disp.vcom = false ∧ t.disp.goe = true ∧
      t.disp.stv = true ∧ t.disp.again = false ∧ t.disp.hostOff = true ∧ t.disp.discharges = sat32 s.disp.discharges ∧
      t.disp.link = linkBytes (rgbOf (fld (dispTim t) 28 4)) true false false t.disp.pol 0 ∧
      Only [.link, .disp, .frameMem, .pw] s t) ∧
    (s.disp.safe = true → s.disp.safeMis = 1 → s.disp.written = true → fencedB s 7 0 = false →
      crc32 (padTo 48012 (dispUpset up s).disp.safeMem) ≠ s.disp.safeCrc → Runs (.frameStart up) s fun t =>
        fencedB t 7 0 = true ∧ t.disp.mode = 3 ∧ t.disp.pdisch = true ∧ t.disp.vcom = false ∧
        Only [.boot, .link, .ev, .fences, .disp, .frameMem, .pw] s t)) ∧
  (∀ s : State, s.disp.pdisch = true → s.disp.pdAt + 160 ≤ now s → dispFenced s = false →
    (s.disp.again = false → Runs .pdischRelease s fun t =>
      t.disp.mode = 0 ∧ t.disp.pdisch = false ∧ t.disp.goe = s.disp.goe ∧
      t.clk = { s.clk with pllp := false, pixRun := false } ∧ Only [.clk, .link, .disp, .pw] s t) ∧
    (s.disp.again = true → s.eg.pfailTick = none → Runs .pdischRelease s fun t =>
      t.disp.mode = 1 ∧ t.disp.pdisch = false ∧ t.disp.vcom = true ∧ t.disp.vcomAt = now s ∧ t.disp.goe = false ∧
      t.disp.stv = false ∧ t.disp.shown = 0 ∧ t.disp.ref = none ∧ Only [.clk, .link, .disp, .pw] s t)) ∧
  (∀ s : State, s.disp.pdisch = false ∨ now s < s.disp.pdAt + 160 → exec .pdischRelease s = .next s) ∧
  (∀ s : State, rdy s rAP = true → rdy s rDisp = true → s.disp.mode = 0 → s.disp.again = false → s.disp.hostOff = false →
    dispFenced s = false → s.eg.pfailTick = none → s.pw.entry = none → Runs .displaySwitchOn s fun t =>
      t.disp.mode = 1 ∧ t.disp.vcom = true ∧ t.disp.vcomAt = now s ∧ t.disp.goe = false ∧ t.disp.stv = false ∧
      t.disp.tim = tab s 0x1301 ∧ t.disp.frame = 0 ∧ t.disp.mem = s.disp.mem ∧
      t.clk = { s.clk with pllp := true, pixRun := true } ∧ Only [.clk, .disp] s t) ∧
  ∀ s : State, s.disp.mode ≠ 0 ∨ s.disp.hostOff = true ∨ rdy s rAP = false → exec .displaySwitchOn s = .next s

/-! Power states (24). -/

/-- The power states (24 R524 to R530, R535 to R537, R532, Tables PS-2, PS-3, PS-9, PS-10): the two commands; the steps of
an entry and its aborts; a wake, what banks not retained take with them, a false wake; IDLE; a change of operating point.
The condition of an OFF-HOLD is read from the state (log 97). Outside its condition an event row changes nothing (log 1).
-/
def Obligations.PowerStates : Prop :=
  (∀ (s : State) (c ret mask : Nat), Asked s c 0x1401 (len 20) → rdy s rAP = true → asks s c 0 1 = 1 →
    asks s c 4 2 = ret → asks s c 6 2 = mask → mask < 64 →
    (psRefuser c s = 0 → AnswersWith (.psEnter c) s c 0x1400 8
      (fun pl => fld pl 0 1 = 1 ∧ fld pl 1 1 = 0 ∧ fld pl 2 2 = ret ||| 0x7800) fun u =>
        u.pw = { s.pw with fired := [], entry := some ⟨c, now s, ret ||| 0x7800, mask, asks s c 12 8, 0⟩ } ∧
        Only [.pw] s u) ∧
    (psRefuser c s ≠ 0 → AnswersWith (.psEnter c) s c 0x1410 8 (fun pl => fld pl 1 1 = psRefuser c s) fun u =>
        u.pw = { s.pw with refusals := s.pw.refusals.modify (psRefuser c s - 1) sat32 } ∧
        u.ev.queue = s.ev.queue ++ [⟨0, 0x1401, 0, 0xFF, padTo 16 [byteOf (psRefuser c s), 1]⟩] ∧
        Only [.ev, .pw] s u)) ∧
  (∀ (s : State) (c : Nat), (portActive s = true → psRefuser c s = 1) ∧
    (portActive s = false → quarryBusy s = true → psRefuser c s = 2) ∧
    (portActive s = false → quarryBusy s = false → otherBusy s c = true → psRefuser c s = 3) ∧
    (portActive s = false → quarryBusy s = false → otherBusy s c = false → ksVeto s = true → psRefuser c s = 4) ∧
    (portActive s = false → quarryBusy s = false → otherBusy s c = false → ksVeto s = false →
      (s.pw.entry = none → s.disp.mode = 3 → psRefuser c s = 5) ∧
      (s.disp.mode ≠ 3 → 1 ≤ s.upd.st → s.upd.st ≤ 3 → psRefuser c s = 6) ∧
      (s.disp.mode ≠ 3 → s.upd.st = 0 → clockSwitch s = true → psRefuser c s = 7) ∧
      (∀ e : PsEntry, s.disp.mode ≠ 3 → s.upd.st = 0 → clockSwitch s = false → s.pw.entry = some e → wakeSource e s ≠ none →
        psRefuser c s = 8) ∧
      (s.disp.mode ≠ 3 → s.upd.st = 0 → clockSwitch s = false → s.pw.entry = none → s.eg.pfailTick ≠ none →
        psRefuser c s = 9) ∧
      (s.disp.mode ≠ 3 → s.upd.st = 0 → clockSwitch s = false → s.pw.entry = none → s.eg.pfailTick = none →
        psRefuser c s = 0))) ∧
  (∀ (s : State) (c : Nat), Asked s c 0x1402 (len 0) → rdy s rAP = true → s.pw.refusals.length = 9 →
    AnswersWith (.psStatus c) s c 0x1400 84 (fun pl => fld pl 0 1 = s.clk.opp % 256 ∧ fld pl 4 2 = s.pw.retain % 65536 ∧
      fld pl 8 1 = s.pw.lastWake % 256 ∧ fld pl 28 8 = s.pw.standby % 2 ^ 64 ∧
      (∀ k, k < 9 → fld pl (36 + 4 * k) 4 = nth s.pw.refusals k 0 % 2 ^ 32) ∧ fld pl 72 4 = s.pw.entries % 2 ^ 32 ∧
      fld pl 76 4 = s.pw.falseWakes % 2 ^ 32) fun u => u = s) ∧
  (∀ (s : State) (e : PsEntry), s.pw.entry = some e →
    (psRefuser e.ch s ≠ 0 → Runs .standbyEntry s fun t =>
      t.pw.entry = none ∧ t.pw.mode = s.pw.mode ∧ t.pw.refusals = s.pw.refusals.modify (psRefuser e.ch s - 1) sat32 ∧
      t.pl = { s.pl with leaving := false } ∧ Only [.link, .ev, .pl, .pw] s t) ∧
    (psRefuser e.ch s = 0 → e.step = 0 → (chan s e.ch).st = .respReady ∨ (chan s e.ch).st = .inService →
      exec .standbyEntry s = .next s) ∧
    (psRefuser e.ch s = 0 → e.step = 0 → (chan s e.ch).st = .idle → s.disp.mode = 2 → Runs .standbyEntry s fun t =>
      t.disp.mode = 3 ∧ t.disp.pdisch = true ∧ t.disp.again = false ∧ t.pw.entry = some { e with step := 1 } ∧
      Only [.link, .disp, .pw] s t) ∧
    (psRefuser e.ch s = 0 → e.step = 1 → s.disp.mode = 3 → exec .standbyEntry s = .next s) ∧
    (psRefuser e.ch s = 0 → e.step = 1 → s.disp.mode = 0 → s.nf.fe.length = 2 → Runs .standbyEntry s fun t =>
      (getNf t 0).carrier = false ∧ (getNf t 1).carrier = false ∧ t.pl.leaving = canLeave s ∧
      t.pw = { s.pw with entry := some { e with step := 2 } } ∧ Only [.nf, .pl, .pw] s t) ∧
    (psRefuser e.ch s = 0 → e.step = 2 → (s.pl.leaving = true ∧ canLeave s = true) ∨ running s 0 ≠ none ∨ running s 1 ≠ none →
      exec .standbyEntry s = .next s) ∧
    (psRefuser e.ch s = 0 → e.step = 2 → s.pl.leaving = false → running s 0 = none → running s 1 = none → Runs .standbyEntry s fun t =>
      t.pw.mode = 2 ∧ t.pw.entry = none ∧ t.pw.last = e ∧ t.pw.entries = sat32 s.pw.entries ∧ t.pw.entryTick = now s ∧
      t.pw.vsel = 3 ∧ t.clk.opp = 3 ∧ t.clk.busRun = false ∧ t.clk.apRun = false ∧ t.clk.plla = false ∧
      t.clk.plln = false ∧ t.clk.tick = s.clk.tick ∧ (∀ b ∈ standbyBits, rdy t b = false) ∧
      (∀ b, b < 64 → b ∉ standbyBits → rdy t b = rdy s b) ∧ t.boot.imgs = s.boot.imgs ∧
      (∀ k, k < 16 → (nth s.ls.chans k {}).duty = 1000 → nth t.ls.chans k {} = nth s.ls.chans k {}) ∧
      Only [.clk, .boot, .link, .ls, .pl, .pw] s t)) ∧
  (∀ s : State, s.pw.entry = none → exec .standbyEntry s = .next s ∧ exec .mbxPendingTimeout s = .next s) ∧
  (∀ (s : State) (e : PsEntry), s.pw.entry = some e → e.step = 0 → (chan s e.ch).st = .respReady →
    (e.since + 800 ≤ now s → Runs .mbxPendingTimeout s fun t =>
      t.pw.entry = none ∧ t.pw.refusals = s.pw.refusals.modify 2 sat32 ∧ Only [.link, .ev, .pl, .pw] s t) ∧
    (now s < e.since + 800 → exec .mbxPendingTimeout s = .next s)) ∧
  (∀ (s : State) (b v : Nat), s.pw.mode = 2 → wakeSource s.pw.last s = some (b, v) → b ≠ 3 → s.boot.imgs.length = 5 →
    ((List.range 16).all (kept s.pw.last) = true → Runs .standbyWake s fun t =>
      t.pw.mode = 0 ∧ t.pw.lastWake = b ∧ t.pw.wakeTick = now s ∧
      t.pw.standby = s.pw.standby + (now s - s.pw.entryTick) ∧ t.pw.fired = [] ∧ t.clk.busRun = true ∧ t.clk.plla = true ∧
      t.clk.opp = 3 ∧ t.boot.imgs = s.boot.imgs ∧ (imgActive s 1 = true → rdy t rAP = true) ∧
      (imgActive s 5 = true → rdy t rSE = true) ∧ t.upd = s.upd ∧ t.tabs = s.tabs ∧ t.disp.mem = s.disp.mem ∧
      (∀ k, k < 16 → (nth t.ls.chans k {}).parked = false)) ∧
    (kept s.pw.last 9 = false → Runs .standbyWake s fun t =>
      t.pw.mode = 0 ∧ getImg t 4 = {} ∧ t.boot.phase = .windowOpen ∧ t.pl.queue = []) ∧
    (kept s.pw.last 0 = false → Runs .standbyWake s fun t =>
      t.pw.mode = 0 ∧ getImg t 1 = {} ∧ t.boot.phase = .windowOpen ∧ t.clk.apRun = false)) ∧
  (∀ (s : State) (v : Nat), s.pw.mode = 2 → wakeSource s.pw.last s = some (3, v) → (keptFrame s).1 = false →
    Runs .standbyWake s fun t =>
      t.pw.mode = 2 ∧ t.pw.falseWakes = sat32 s.pw.falseWakes ∧ t.pw.entries = s.pw.entries ∧ t.pw.last = s.pw.last ∧
      t.pl = { (keptFrame s).2.pl with kept := none } ∧ Only [.ev, .link, .pl, .pw] s t) ∧
  (∀ s : State, s.pw.mode ≠ 2 ∨ wakeSource s.pw.last s = none → exec .standbyWake s = .next s) ∧
  (∀ s : State, s.pw.mode = 0 → apServing s = true → s.pw.entry = none → otherBusy s 0xFF = false →
    Runs .idleEntry s fun t =>
      t.pw = { s.pw with mode := 1 } ∧ t.clk = { s.clk with apRun := false } ∧ Only [.clk, .pw] s t) ∧
  (∀ s : State, s.pw.mode = 1 → s.clk.plla = true → Runs .idleExit s fun t =>
    t.pw = { s.pw with mode := 0 } ∧ t.clk = { s.clk with apRun := true } ∧ Only [.clk, .pw] s t) ∧
  (∀ s : State, s.pw.mode ≠ 1 → exec .idleExit s = .next s) ∧
  (∀ s : State, s.pw.mode ≠ 2 → s.boot.phase ≠ .reset → s.clk.busRun = true →
    (s.clk.oppBusy = false → s.pw.oppAt = none → oppGoal s < s.clk.opp → Runs .oppChange s fun t =>
      t.pw.vsel = oppGoal s ∧ t.pw.target = oppGoal s ∧ t.clk = { s.clk with oppBusy := true } ∧ Only [.clk, .pw] s t) ∧
    (s.clk.oppBusy = false → s.pw.oppAt = none → s.clk.opp < oppGoal s → Runs .oppChange s fun t =>
      t.pw.vsel = s.pw.vsel ∧ t.clk = { s.clk with oppBusy := true, opp := oppGoal s } ∧ Only [.clk, .pw] s t) ∧
    (s.clk.oppBusy = true → Runs .oppChange s fun t =>
      t.clk = { s.clk with oppBusy := false, opp := s.pw.target } ∧ t.pw.vsel = s.pw.target ∧
      t.pw.oppAt = some (now s) ∧ Only [.clk, .link, .pw] s t) ∧
    (∀ n : Nat, s.clk.oppBusy = false → s.pw.oppAt = some n → now s < n + 80 → oppGoal s ≠ 3 →
      exec .oppChange s = .next s) ∧
    (s.clk.oppBusy = false → oppGoal s = s.clk.opp → exec .oppChange s = .next s)) ∧
  ∀ (s : State) (n d : Nat), s.eg.pfailTick = some n → s.boot.phase ≠ .reset → tf s 0x1401 0 1 = 1 →
    n + 8 * tf s 0x1401 2 2 ≤ now s → s.eg.forced = none → n + 1 < now s → s.eg.doneTick = some d → d < now s →
    noMains s = true → s.cairn.queue = [] →
    Runs .offHoldEntry s fun t => resetLeaves 6 s t ∧ t.pw.mode = 3 ∧ t.pw.offHolds = min (s.pw.offHolds + 1) 0xFFFFFFFF
end

