-- ==== Sys2Proof/Laws/Bytes.lean ====
section
/-!
SUPPORT. Laws of the byte helpers.
-/

namespace Sys2Proof.Machine

/-- A byte step of CRC-32 keeps the register within 32 bits. -/
theorem crc32Byte_lt (c : Nat) (b : Byte) (h : c < 2 ^ 32) : crc32Byte c b < 2 ^ 32 := by
  have hb : b.toNat < 2 ^ 32 := Nat.lt_of_lt_of_le b.isLt (by decide)
  have step : ∀ x : Nat, x < 2 ^ 32 → crc32Bit x < 2 ^ 32 := by
    intro x hx
    have hd : x / 2 < 2 ^ 32 := by omega
    unfold crc32Bit
    split
    · exact Nat.xor_lt_two_pow hd (by decide)
    · exact hd
  have go : ∀ (n x : Nat), x < 2 ^ 32 → iter crc32Bit n x < 2 ^ 32 := by
    intro n
    induction n with
    | zero => exact fun _ hx => hx
    | succ n ih => exact fun x hx => ih _ (step x hx)
  exact go 8 _ (Nat.xor_lt_two_pow h hb)

/-- A CRC-32 is a word of 32 bits. -/
theorem crc32_lt (bs : List Byte) : crc32 bs < 2 ^ 32 := by
  have go : ∀ (l : List Byte) (c : Nat), c < 2 ^ 32 → l.foldl crc32Byte c < 2 ^ 32 := by
    intro l
    induction l with
    | nil => exact fun _ hc => hc
    | cons b l ih => exact fun c hc => ih _ (crc32Byte_lt c b hc)
  exact Nat.xor_lt_two_pow (go bs _ (by decide)) (by decide)

end Sys2Proof.Machine
end

