-- ==== Sys2Proof/Laws/Frame.lean ====
section
/-!
SUPPORT. Frames: how Only composes, and the frame of a state written out field by field.
-/

namespace Sys2Proof.Machine

/-- Nothing differs from itself. -/
theorem Only.refl (l : List Part) (s : State) : Only l s s := fun p _ => by cases p <;> rfl

/-- A part that is the same in each of two steps is the same over both. -/
theorem Part.same_trans {s t u : State} {p : Part} (h : p.same s t) (k : p.same t u) : p.same s u := by
  cases p <;> exact Eq.trans k h

/-- Frames compose. -/
theorem Only.trans {l : List Part} {s t u : State} (h : Only l s t) (k : Only l t u) : Only l s u :=
  fun p hp => Part.same_trans (h p hp) (k p hp)

/-- A frame may name more parts. -/
theorem Only.mono {l m : List Part} {s t : State} (h : Only l s t) (hl : ∀ p ∈ l, p ∈ m) : Only m s t :=
  fun p hp => h p fun hq => hp (hl p hq)

/-- A state written out field by field differs from t only in the parts of the list. -/
theorem Only.mk {l : List Part} {s t : State} {clk boot otp link tabs ev cairn sealIn meter cal eg ports lintel safety rtc tar
    nf fences ls vault rind qr upd pl disp pw draws pending}
    (h1 : Part.clk ∈ l ∨ clk = t.clk) (h2 : Part.boot ∈ l ∨ boot = t.boot) (h3 : Part.otp ∈ l ∨ otp = t.otp)
    (h6 : Part.tabs ∈ l ∨ tabs = t.tabs)
    (h7 : Part.ev ∈ l ∨ ev = t.ev) (h8 : Part.cairn ∈ l ∨ cairn = t.cairn) (h9 : Part.sealIn ∈ l ∨ sealIn = t.sealIn)
    (h10 : Part.meter ∈ l ∨ meter = t.meter) (h11 : Part.cal ∈ l ∨ cal = t.cal) (h12 : Part.eg ∈ l ∨ eg = t.eg)
    (h13 : Part.ports ∈ l ∨ ports = t.ports) (h14 : Part.lintel ∈ l ∨ lintel = t.lintel)
    (h15 : Part.safety ∈ l ∨ safety = t.safety) (h16 : Part.rtc ∈ l ∨ rtc = t.rtc) (h17 : Part.tar ∈ l ∨ tar = t.tar)
    (h18 : Part.nf ∈ l ∨ nf = t.nf) (h19 : Part.fences ∈ l ∨ fences = t.fences) (h20 : Part.ls ∈ l ∨ ls = t.ls)
    (h21 : Part.vault ∈ l ∨ vault = t.vault) (h22 : Part.rind ∈ l ∨ rind = t.rind) (h23 : Part.qr ∈ l ∨ qr = t.qr)
    (h24 : Part.upd ∈ l ∨ upd = t.upd) (h25 : Part.pl ∈ l ∨ pl = t.pl)
    (h28 : Part.pw ∈ l ∨ pw = t.pw) (h29 : Part.draws ∈ l ∨ draws = t.draws) (h30 : Part.pending ∈ l ∨ pending = t.pending)
    (h4 : Part.link ∈ l ∨ { link with mem := [] } = { t.link with mem := [] }) (h5 : Part.hostMem ∈ l ∨ link.mem = t.link.mem)
    (h26 : Part.disp ∈ l ∨ { disp with mem := [] } = { t.disp with mem := [] }) (h27 : Part.frameMem ∈ l ∨ disp.mem = t.disp.mem)
    (h : Only l s t) :
    Only l s ⟨clk, boot, otp, link, tabs, ev, cairn, sealIn, meter, cal, eg, ports, lintel, safety, rtc, tar, nf, fences, ls,
      vault, rind, qr, upd, pl, disp, pw, draws, pending⟩ := by
  refine h.trans fun p hp => ?_
  cases p <;> exact Or.resolve_left (by assumption) hp

/-- Parts of an operation among those of the operation that calls it. -/
theorem sub_of {g m l : List Part} (hl : ∀ p ∈ m, p ∈ l) (h : ∀ p ∈ g, p ∈ m) : ∀ p ∈ g, p ∈ l := fun p hp => hl p (h p hp)

/-- A fold of steps with a frame has that frame. -/
theorem foldl_only {α : Type} {l : List Part} {s t : State} {f : State → α → State} {xs : List α} (h : Only l s t)
    (hf : ∀ u a, Only l s u → Only l s (f u a)) : Only l s (xs.foldl f t) := by
  induction xs generalizing t with
  | nil => exact h
  | cons x xs ih => exact ih (hf _ _ h)

/-- The effect beside a response. -/
theorem ok_only {l : List Part} {s t : State} (st : Nat) (b : List Byte) (h : Only l s t) : Only l s (ok st b t).2 := h

/-- The effect beside a refusal. -/
theorem no_only {l : List Part} {s t : State} (st : Nat) (h : Only l s t) : Only l s (no st t).2 := h

/-- A change of the display controller that leaves the frame memory. -/
theorem updDisp_only {parts : List Part} {s t : State} (f : Disp → Disp) (h : Only parts s t)
    (hl : ∀ p ∈ ([.disp] : List Part), p ∈ parts) (hm : ∀ d, (f d).mem = d.mem) : Only parts s (updDisp f t) := by
  unfold updDisp
  apply Only.mk
  all_goals first | exact Or.inr rfl | exact Or.inr (hm _) | exact Or.inl (hl _ (by decide)) | exact h

/-- Upset bytes lie in the frame memory and the safe frame. -/
theorem dispUpset_only {parts : List Part} {s t : State} (u : List (Nat × Byte)) (h : Only parts s t)
    (hl : ∀ p ∈ ([.disp, .frameMem] : List Part), p ∈ parts) : Only parts s (dispUpset u t) := by
  unfold dispUpset updDisp
  apply Only.mk
  all_goals first | exact Or.inr rfl | exact Or.inl (hl _ (by decide)) | exact h

/-- The same for a step over numbers. -/
theorem foldN_only {l : List Part} {s t : State} {f : Nat → State → State} (n : Nat) (h : Only l s t)
    (hf : ∀ i u, Only l s u → Only l s (f i u)) : Only l s (foldN n f t) :=
  foldl_only h fun u a hu => hf a u hu

/-- The same for a step over the ports. -/
theorem eachPort_only {l : List Part} {s t : State} {f : Nat → State → State} (h : Only l s t)
    (hf : ∀ i u, Only l s u → Only l s (f i u)) : Only l s (eachPort f t) :=
  foldl_only h fun u a hu => hf a u hu

/-- A unit whose domain stands still has no effect. -/
theorem gated_only {l : List Part} {s t : State} {f : State → State} (on : Bool) (h : Only l s t) (hf : Only l s (f t)) :
    Only l s (gated on f t) := by
  unfold gated
  split
  · exact hf
  · exact h

/-- A write of a unit into an area of its own has the effect of the write (01 R20). -/
theorem fwWrite_only {l : List Part} {s t : State} {f : State → State} {u : BusUnit} {a : Area} (n : Nat)
    (hu : mayWrite a u = true) (hf : Only l s (f t)) : Only l s (fwWrite u a n f t) := by
  unfold fwWrite
  rwa [if_pos hu]

/-- A write of a word by its one writer changes at most what the write changes (01 R21). -/
theorem sysWrite_only {l : List Part} {s t : State} {f : Nat → State → State} {u : BusUnit} {w : SysWord} (old new : Nat)
    (hu : sysOwner w = u) (h : Only l s t) (hf : Only l s (f new t)) : Only l s (sysWrite u w old new f t) := by
  unfold sysWrite
  rw [if_neg (by simp [hu])]
  split
  · exact h
  · exact hf

end Sys2Proof.Machine
end

