-- ==== Sys2Proof/Laws/FrameShared.lean ====
section
/-!
SUPPORT. What each operation may change, to be cited in place of unfolding it: the operations that all units share, the mailbox, the load switches and the ports' switches.
-/

namespace Sys2Proof.Machine

/-! Ops -/

/-- What updPort may change. -/
theorem updPort_only {parts : List Part} {s_ s : State} (p : Nat) (f : Port → Port)
    (h : Only parts s_ s)
    (hl : ∀ p ∈ ([.ports] : List Part), p ∈ parts) :
    Only parts s_ (updPort p f s) := by
  unfold updPort
  repeat' (first
  | with_reducible assumption
  | (with_reducible apply Only.mk
     all_goals first | exact Or.inr rfl | exact Or.inl (hl _ (by decide)) | skip))

/-- What updPh may change. -/
theorem updPh_only {parts : List Part} {s_ s : State} (i : Nat) (f : Ph → Ph)
    (h : Only parts s_ s)
    (hl : ∀ p ∈ ([.meter] : List Part), p ∈ parts) :
    Only parts s_ (updPh i f s) := by
  unfold updPh
  repeat' (first
  | with_reducible assumption
  | (with_reducible apply Only.mk
     all_goals first | exact Or.inr rfl | exact Or.inl (hl _ (by decide)) | skip))

/-- What updGrp may change. -/
theorem updGrp_only {parts : List Part} {s_ s : State} (g : Nat) (f : Grp → Grp)
    (h : Only parts s_ s)
    (hl : ∀ p ∈ ([.meter] : List Part), p ∈ parts) :
    Only parts s_ (updGrp g f s) := by
  unfold updGrp
  repeat' (first
  | with_reducible assumption
  | (with_reducible apply Only.mk
     all_goals first | exact Or.inr rfl | exact Or.inl (hl _ (by decide)) | skip))

/-- What updStream may change. -/
theorem updStream_only {parts : List Part} {s_ s : State} (k : Nat) (f : Stream → Stream)
    (h : Only parts s_ s)
    (hl : ∀ p ∈ ([.meter] : List Part), p ∈ parts) :
    Only parts s_ (updStream k f s) := by
  unfold updStream
  repeat' (first
  | with_reducible assumption
  | (with_reducible apply Only.mk
     all_goals first | exact Or.inr rfl | exact Or.inl (hl _ (by decide)) | skip))

/-- What irqSet may change. -/
theorem irqSet_only {parts : List Part} {s_ s : State} (i : Nat)
    (h : Only parts s_ s)
    (hl : ∀ p ∈ ([.link] : List Part), p ∈ parts) :
    Only parts s_ (irqSet i s) := by
  unfold irqSet
  repeat' (first
  | with_reducible assumption
  | (with_reducible apply Only.mk
     all_goals first | exact Or.inr rfl | exact Or.inl (hl _ (by decide)) | skip))

/-- What setReady may change. -/
theorem setReady_only {parts : List Part} {s_ s : State} (b : Nat) (v : Bool)
    (h : Only parts s_ s)
    (hl : ∀ p ∈ ([.boot, .link] : List Part), p ∈ parts) :
    Only parts s_ (setReady b v s) := by
  unfold setReady
  repeat' (first
  | with_reducible assumption
  | exact sub_of hl (by decide)
  | with_reducible apply irqSet_only
  | split
  | (with_reducible apply Only.mk
     all_goals first | exact Or.inr rfl | exact Or.inl (hl _ (by decide)) | skip))

/-- What hlErr may change. -/
theorem hlErr_only {parts : List Part} {s_ s : State} (i : Nat)
    (h : Only parts s_ s)
    (hl : ∀ p ∈ ([.link] : List Part), p ∈ parts) :
    Only parts s_ (hlErr i s) := by
  unfold hlErr
  repeat' (first
  | with_reducible assumption
  | exact sub_of hl (by decide)
  | with_reducible apply irqSet_only
  | (with_reducible apply Only.mk
     all_goals first | exact Or.inr rfl | exact Or.inl (hl _ (by decide)) | skip))

/-- What evrec may change. -/
theorem evrec_only {parts : List Part} {s_ s : State} (code unit subject : Nat) (data : List Byte)
    (h : Only parts s_ s)
    (hl : ∀ p ∈ ([.ev] : List Part), p ∈ parts) :
    Only parts s_ (evrec code unit subject data s) := by
  unfold evrec
  repeat' (first
  | with_reducible assumption
  | (with_reducible apply Only.mk
     all_goals first | exact Or.inr rfl | exact Or.inl (hl _ (by decide)) | skip))

/-- What firewallRec may change. -/
theorem firewallRec_only {parts : List Part} {s_ s : State} (u : BusUnit) (bank : Byte) (addr : Nat)
    (h : Only parts s_ s)
    (hl : ∀ p ∈ ([.ev] : List Part), p ∈ parts) :
    Only parts s_ (firewallRec u bank addr s) := by
  unfold firewallRec
  repeat' (first
  | with_reducible assumption
  | exact sub_of hl (by decide)
  | with_reducible apply evrec_only
  | (with_reducible apply Only.mk
     all_goals first | exact Or.inr rfl | exact Or.inl (hl _ (by decide)) | skip))

/-- What wakeFire may change. -/
theorem wakeFire_only {parts : List Part} {s_ s : State} (bit value : Nat)
    (h : Only parts s_ s)
    (hl : ∀ p ∈ ([.pw] : List Part), p ∈ parts) :
    Only parts s_ (wakeFire bit value s) := by
  unfold wakeFire
  repeat' (first
  | with_reducible assumption
  | split
  | (with_reducible apply Only.mk
     all_goals first | exact Or.inr rfl | exact Or.inl (hl _ (by decide)) | skip)
  | dsimp only)

/-- What notify may change. -/
theorem notify_only {parts : List Part} {s_ s0 : State} (op : Nat) (payload : List Byte)
    (h : Only parts s_ s0)
    (hl : ∀ p ∈ ([.link, .pw] : List Part), p ∈ parts) :
    Only parts s_ (notify op payload s0) := by
  unfold notify
  repeat' (first
  | with_reducible assumption
  | exact sub_of hl (by decide)
  | with_reducible apply wakeFire_only
  | split
  | (with_reducible apply Only.mk
     all_goals first | exact Or.inr rfl | exact Or.inl (hl _ (by decide)) | skip)
  | dsimp only)

/-- What cairnQ may change. -/
theorem cairnQ_only {parts : List Part} {s_ s : State} (writer code subject : Nat) (data : List Byte) (tamper : Bool)
    (h : Only parts s_ s)
    (hl : ∀ p ∈ ([.cairn] : List Part), p ∈ parts) :
    Only parts s_ (cairnQ writer code subject data tamper s) := by
  unfold cairnQ
  repeat' (first
  | with_reducible assumption
  | split
  | (with_reducible apply Only.mk
     all_goals first | exact Or.inr rfl | exact Or.inl (hl _ (by decide)) | skip)
  | dsimp only)

/-- What cairnO may change. -/
theorem cairnO_only {parts : List Part} {s_ s : State} (code subject : Nat) (data : List Byte)
    (h : Only parts s_ s)
    (hl : ∀ p ∈ ([.cairn] : List Part), p ∈ parts) :
    Only parts s_ (cairnO code subject data s) := by
  unfold cairnO
  repeat' (first
  | with_reducible assumption
  | exact sub_of hl (by decide)
  | with_reducible apply cairnQ_only
  | (with_reducible apply Only.mk
     all_goals first | exact Or.inr rfl | exact Or.inl (hl _ (by decide)) | skip))

/-- What cairnK may change. -/
theorem cairnK_only {parts : List Part} {s_ s : State} (code subject : Nat) (data : List Byte)
    (h : Only parts s_ s)
    (hl : ∀ p ∈ ([.cairn] : List Part), p ∈ parts) :
    Only parts s_ (cairnK code subject data s) := by
  unfold cairnK
  repeat' (first
  | with_reducible assumption
  | exact sub_of hl (by decide)
  | with_reducible apply cairnQ_only
  | (with_reducible apply Only.mk
     all_goals first | exact Or.inr rfl | exact Or.inl (hl _ (by decide)) | skip))

/-- What fenceEvent may change. -/
theorem fenceEvent_only {parts : List Part} {s_ s : State} (dom idx ev : Nat) (req : Bool) (value : Nat)
    (h : Only parts s_ s)
    (hl : ∀ p ∈ ([.link, .ev, .pw] : List Part), p ∈ parts) :
    Only parts s_ (fenceEvent dom idx ev req value s) := by
  unfold fenceEvent
  repeat' (first
  | with_reducible assumption
  | exact sub_of hl (by decide)
  | with_reducible apply evrec_only
  | with_reducible apply notify_only
  | split
  | (with_reducible apply Only.mk
     all_goals first | exact Or.inr rfl | exact Or.inl (hl _ (by decide)) | skip)
  | dsimp only)

/-- What fenceReady may change. -/
theorem fenceReady_only {parts : List Part} {s_ s : State} (dom idx : Nat)
    (h : Only parts s_ s)
    (hl : ∀ p ∈ ([.boot, .link] : List Part), p ∈ parts) :
    Only parts s_ (fenceReady dom idx s) := by
  unfold fenceReady
  repeat' (first
  | with_reducible assumption
  | exact sub_of hl (by decide)
  | with_reducible apply setReady_only
  | with_reducible refine eachPort_only ?_ (fun _ _ _ => ?_)
  | split
  | (with_reducible apply Only.mk
     all_goals first | exact Or.inr rfl | exact Or.inl (hl _ (by decide)) | skip)
  | dsimp only)

/-- What setChan may change. -/
theorem setChan_only {parts : List Part} {s_ s : State} (c : Nat) (st : ChSt)
    (h : Only parts s_ s)
    (hl : ∀ p ∈ ([.link] : List Part), p ∈ parts) :
    Only parts s_ (setChan c st s) := by
  unfold setChan
  repeat' (first
  | with_reducible assumption
  | (with_reducible apply Only.mk
     all_goals first | exact Or.inr rfl | exact Or.inl (hl _ (by decide)) | skip)
  | dsimp only)

/-- What fenceBit may change. -/
theorem fenceBit_only {parts : List Part} {s_ s : State} (dom idx : Nat) (req grp : Bool) (cls det : Nat)
    (h : Only parts s_ s)
    (hl : ∀ p ∈ ([.boot, .link, .tabs, .ev, .ports, .fences, .pw] : List Part), p ∈ parts) :
    Only parts s_ (fenceBit dom idx req grp cls det s) := by
  unfold fenceBit
  repeat' (first
  | with_reducible assumption
  | exact sub_of hl (by decide)
  | with_reducible apply fenceEvent_only
  | with_reducible apply fenceReady_only
  | with_reducible apply irqSet_only
  | with_reducible apply setChan_only
  | with_reducible apply updPort_only
  | split
  | (with_reducible apply Only.mk
     all_goals first | exact Or.inr rfl | exact Or.inl (hl _ (by decide)) | skip)
  | dsimp only)

/-- What fenceNow may change. -/
theorem fenceNow_only {parts : List Part} {s_ s : State} (dom idx : Nat) (req : Bool) (cls det : Nat)
    (h : Only parts s_ s)
    (hl : ∀ p ∈ ([.boot, .link, .tabs, .ev, .ports, .fences, .pw] : List Part), p ∈ parts) :
    Only parts s_ (fenceNow dom idx req cls det s) := by
  unfold fenceNow
  repeat' (first
  | with_reducible assumption
  | exact sub_of hl (by decide)
  | with_reducible apply fenceBit_only
  | with_reducible refine eachPort_only ?_ (fun _ _ _ => ?_)
  | split
  | (with_reducible apply Only.mk
     all_goals first | exact Or.inr rfl | exact Or.inl (hl _ (by decide)) | skip)
  | dsimp only)

/-- What unfenceBit may change. -/
theorem unfenceBit_only {parts : List Part} {s_ s : State} (dom idx : Nat)
    (h : Only parts s_ s)
    (hl : ∀ p ∈ ([.link, .ev, .ports, .fences, .pw] : List Part), p ∈ parts) :
    Only parts s_ (unfenceBit dom idx s) := by
  unfold unfenceBit
  repeat' (first
  | with_reducible assumption
  | exact sub_of hl (by decide)
  | with_reducible apply fenceEvent_only
  | with_reducible apply irqSet_only
  | with_reducible apply setChan_only
  | with_reducible apply updPort_only
  | split
  | (with_reducible apply Only.mk
     all_goals first | exact Or.inr rfl | exact Or.inl (hl _ (by decide)) | skip)
  | dsimp only)

/-- What unfenceNow may change. -/
theorem unfenceNow_only {parts : List Part} {s_ s : State} (dom idx : Nat)
    (h : Only parts s_ s)
    (hl : ∀ p ∈ ([.link, .ev, .ports, .fences, .pw] : List Part), p ∈ parts) :
    Only parts s_ (unfenceNow dom idx s) := by
  unfold unfenceNow
  repeat' (first
  | with_reducible assumption
  | exact sub_of hl (by decide)
  | with_reducible apply unfenceBit_only
  | with_reducible refine eachPort_only ?_ (fun _ _ _ => ?_)
  | split
  | (with_reducible apply Only.mk
     all_goals first | exact Or.inr rfl | exact Or.inl (hl _ (by decide)) | skip)
  | dsimp only)

/-- What bootLift may change. -/
theorem bootLift_only {parts : List Part} {s_ s : State} (dom idx : Nat)
    (h : Only parts s_ s)
    (hl : ∀ p ∈ ([.link, .ev, .ports, .fences, .pw] : List Part), p ∈ parts) :
    Only parts s_ (bootLift dom idx s) := by
  unfold bootLift
  repeat' (first
  | with_reducible assumption
  | exact sub_of hl (by decide)
  | with_reducible apply unfenceNow_only
  | split
  | (with_reducible apply Only.mk
     all_goals first | exact Or.inr rfl | exact Or.inl (hl _ (by decide)) | skip))

/-- What draw may change. -/
theorem draw_only {parts : List Part} {s_ s : State}  (h : Only parts s_ s) (hl : ∀ p ∈ ([.draws] : List Part), p ∈ parts) :
    Only parts s_ (draw s).2 := by
  unfold draw
  repeat' (first
  | with_reducible assumption
  | (with_reducible apply Only.mk
     all_goals first | exact Or.inr rfl | exact Or.inl (hl _ (by decide)) | skip))

/-! CalRec -/

/-- What compose may change. -/
theorem compose_only {parts : List Part} {s_ s : State} (p : Nat)
    (h : Only parts s_ s)
    (hl : ∀ p ∈ ([.cal] : List Part), p ∈ parts) :
    Only parts s_ (compose p s) := by
  unfold compose
  repeat' (first
  | with_reducible assumption
  | split
  | (with_reducible apply Only.mk
     all_goals first | exact Or.inr rfl | exact Or.inl (hl _ (by decide)) | skip)
  | dsimp only)

/-- What composeAll may change. -/
theorem composeAll_only {parts : List Part} {s_ s : State} 
    (h : Only parts s_ s)
    (hl : ∀ p ∈ ([.cal] : List Part), p ∈ parts) :
    Only parts s_ (composeAll s) := by
  unfold composeAll
  repeat' (first
  | with_reducible assumption
  | exact sub_of hl (by decide)
  | with_reducible apply compose_only
  | with_reducible refine eachPort_only ?_ (fun _ _ _ => ?_)
  | (with_reducible apply Only.mk
     all_goals first | exact Or.inr rfl | exact Or.inl (hl _ (by decide)) | skip))

/-- What composeGroup may change. -/
theorem composeGroup_only {parts : List Part} {s_ s : State} (g : Nat)
    (h : Only parts s_ s)
    (hl : ∀ p ∈ ([.cal] : List Part), p ∈ parts) :
    Only parts s_ (composeGroup g s) := by
  unfold composeGroup
  repeat' (first
  | with_reducible assumption
  | exact sub_of hl (by decide)
  | with_reducible apply compose_only
  | with_reducible refine eachPort_only ?_ (fun _ _ _ => ?_)
  | split
  | (with_reducible apply Only.mk
     all_goals first | exact Or.inr rfl | exact Or.inl (hl _ (by decide)) | skip)
  | dsimp only)

/-- What markSwap may change. -/
theorem markSwap_only {parts : List Part} {s_ s : State} (g : Nat)
    (h : Only parts s_ s)
    (hl : ∀ p ∈ ([.cal] : List Part), p ∈ parts) :
    Only parts s_ (markSwap g s) := by
  unfold markSwap
  repeat' (first
  | with_reducible assumption
  | with_reducible refine eachPort_only ?_ (fun _ _ _ => ?_)
  | split
  | (with_reducible apply Only.mk
     all_goals first | exact Or.inr rfl | exact Or.inl (hl _ (by decide)) | skip)
  | dsimp only)

/-! Mailbox -/

/-- What respond may change. -/
theorem respond_only {parts : List Part} {s_ s : State} (c tag op status : Nat) (payload : List Byte)
    (h : Only parts s_ s)
    (hl : ∀ p ∈ ([.link, .hostMem] : List Part), p ∈ parts) :
    Only parts s_ (respond c tag op status payload s) := by
  unfold respond
  repeat' (first
  | with_reducible assumption
  | exact sub_of hl (by decide)
  | with_reducible apply irqSet_only
  | with_reducible apply setChan_only
  | with_reducible refine fwWrite_only _ (by decide) ?_
  | split
  | (with_reducible apply Only.mk
     all_goals first | exact Or.inr rfl | exact Or.inl (hl _ (by decide)) | skip)
  | dsimp only)

/-- What answer may change. -/
theorem answer_only {parts : List Part} {s_ s : State} (c status : Nat) (payload : List Byte)
    (h : Only parts s_ s)
    (hl : ∀ p ∈ ([.link, .hostMem] : List Part), p ∈ parts) :
    Only parts s_ (answer c status payload s) := by
  unfold answer
  repeat' (first
  | with_reducible assumption
  | exact sub_of hl (by decide)
  | with_reducible apply respond_only
  | (with_reducible apply Only.mk
     all_goals first | exact Or.inr rfl | exact Or.inl (hl _ (by decide)) | skip))

/-! LoadSwitch -/

/-- What updLs may change. -/
theorem updLs_only {parts : List Part} {s_ s : State} (c : Nat) (f : LsCh → LsCh)
    (h : Only parts s_ s)
    (hl : ∀ p ∈ ([.ls] : List Part), p ∈ parts) :
    Only parts s_ (updLs c f s) := by
  unfold updLs
  repeat' (first
  | with_reducible assumption
  | (with_reducible apply Only.mk
     all_goals first | exact Or.inr rfl | exact Or.inl (hl _ (by decide)) | skip))

/-- What lsEvent may change. -/
theorem lsEvent_only {parts : List Part} {s_ s : State} (c ev det value : Nat)
    (h : Only parts s_ s)
    (hl : ∀ p ∈ ([.link, .ev, .pw] : List Part), p ∈ parts) :
    Only parts s_ (lsEvent c ev det value s) := by
  unfold lsEvent
  repeat' (first
  | with_reducible assumption
  | exact sub_of hl (by decide)
  | with_reducible apply evrec_only
  | with_reducible apply notify_only
  | split
  | (with_reducible apply Only.mk
     all_goals first | exact Or.inr rfl | exact Or.inl (hl _ (by decide)) | skip)
  | dsimp only)

/-- What lsCommand may change. -/
theorem lsCommand_only {parts : List Part} {s_ s : State} (c : Nat) (on : Bool) (level : Nat)
    (h : Only parts s_ s)
    (hl : ∀ p ∈ ([.ls] : List Part), p ∈ parts) :
    Only parts s_ (lsCommand c on level s) := by
  unfold lsCommand
  repeat' (first
  | with_reducible assumption
  | exact sub_of hl (by decide)
  | with_reducible apply updLs_only
  | with_reducible refine foldl_only ?_ (fun _ _ _ => ?_)
  | (with_reducible apply Only.mk
     all_goals first | exact Or.inr rfl | exact Or.inl (hl _ (by decide)) | skip)
  | dsimp only)

/-- What lsLatch may change. -/
theorem lsLatch_only {parts : List Part} {s_ s : State} (c cause ma : Nat)
    (h : Only parts s_ s)
    (hl : ∀ p ∈ ([.link, .ev, .ls, .pw] : List Part), p ∈ parts) :
    Only parts s_ (lsLatch c cause ma s) := by
  unfold lsLatch
  repeat' (first
  | with_reducible assumption
  | exact sub_of hl (by decide)
  | with_reducible apply lsEvent_only
  | with_reducible apply updLs_only
  | with_reducible refine foldl_only ?_ (fun _ _ _ => ?_)
  | split
  | (with_reducible apply Only.mk
     all_goals first | exact Or.inr rfl | exact Or.inl (hl _ (by decide)) | skip)
  | dsimp only)

/-- What globalFoldback may change. -/
theorem globalFoldback_only {parts : List Part} {s_ s : State} (ma : List Nat)
    (h : Only parts s_ s)
    (hl : ∀ p ∈ ([.link, .ev, .ls, .pw] : List Part), p ∈ parts) :
    Only parts s_ (globalFoldback ma s) := by
  unfold globalFoldback
  repeat' (first
  | with_reducible assumption
  | exact sub_of hl (by decide)
  | with_reducible apply lsEvent_only
  | with_reducible apply updLs_only
  | with_reducible refine foldl_only ?_ (fun _ _ _ => ?_)
  | split
  | (with_reducible apply Only.mk
     all_goals first | exact Or.inr rfl | exact Or.inl (hl _ (by decide)) | skip)
  | dsimp only)

/-- What foldbackEnd may change. -/
theorem foldbackEnd_only {parts : List Part} {s_ s : State} (sum : Nat)
    (h : Only parts s_ s)
    (hl : ∀ p ∈ ([.link, .ev, .ls, .pw] : List Part), p ∈ parts) :
    Only parts s_ (foldbackEnd sum s) := by
  unfold foldbackEnd
  repeat' (first
  | with_reducible assumption
  | exact sub_of hl (by decide)
  | with_reducible apply lsEvent_only
  | with_reducible apply updLs_only
  | with_reducible refine foldN_only _ ?_ (fun _ _ _ => ?_)
  | split
  | (with_reducible apply Only.mk
     all_goals first | exact Or.inr rfl | exact Or.inl (hl _ (by decide)) | skip)
  | dsimp only)

/-- What inrushEnd may change. -/
theorem inrushEnd_only {parts : List Part} {s_ s : State} (c : Nat)
    (h : Only parts s_ s)
    (hl : ∀ p ∈ ([.ls] : List Part), p ∈ parts) :
    Only parts s_ (inrushEnd c s) := by
  unfold inrushEnd
  repeat' (first
  | with_reducible assumption
  | exact sub_of hl (by decide)
  | with_reducible apply updLs_only
  | split
  | (with_reducible apply Only.mk
     all_goals first | exact Or.inr rfl | exact Or.inl (hl _ (by decide)) | skip)
  | dsimp only)

/-- What lsPeriodStart may change. -/
theorem lsPeriodStart_only {parts : List Part} {s_ s : State} (c : Nat)
    (h : Only parts s_ s)
    (hl : ∀ p ∈ ([.ls] : List Part), p ∈ parts) :
    Only parts s_ (lsPeriodStart c s) := by
  unfold lsPeriodStart
  repeat' (first
  | with_reducible assumption
  | exact sub_of hl (by decide)
  | with_reducible apply updLs_only
  | with_reducible refine foldl_only ?_ (fun _ _ _ => ?_)
  | split
  | (with_reducible apply Only.mk
     all_goals first | exact Or.inr rfl | exact Or.inl (hl _ (by decide)) | skip)
  | dsimp only)

/-- What openLoadCheck may change. -/
theorem openLoadCheck_only {parts : List Part} {s_ s : State} (c : Nat) (above : Bool)
    (h : Only parts s_ s)
    (hl : ∀ p ∈ ([.link, .ev, .ls, .pw] : List Part), p ∈ parts) :
    Only parts s_ (openLoadCheck c above s) := by
  unfold openLoadCheck
  repeat' (first
  | with_reducible assumption
  | exact sub_of hl (by decide)
  | with_reducible apply lsEvent_only
  | with_reducible apply updLs_only
  | split
  | (with_reducible apply Only.mk
     all_goals first | exact Or.inr rfl | exact Or.inl (hl _ (by decide)) | skip)
  | dsimp only)

/-- What vauxDip may change. -/
theorem vauxDip_only {parts : List Part} {s_ s : State} (mv : Nat)
    (h : Only parts s_ s)
    (hl : ∀ p ∈ ([.link, .ev, .ls, .pw] : List Part), p ∈ parts) :
    Only parts s_ (vauxDip mv s) := by
  unfold vauxDip
  repeat' (first
  | with_reducible assumption
  | exact sub_of hl (by decide)
  | with_reducible apply lsEvent_only
  | split
  | (with_reducible apply Only.mk
     all_goals first | exact Or.inr rfl | exact Or.inl (hl _ (by decide)) | skip)
  | dsimp only)

/-- What holdDownEnd may change. -/
theorem holdDownEnd_only {parts : List Part} {s_ s : State} (mv : Nat)
    (h : Only parts s_ s)
    (hl : ∀ p ∈ ([.link, .ev, .ls, .pw] : List Part), p ∈ parts) :
    Only parts s_ (holdDownEnd mv s) := by
  unfold holdDownEnd
  repeat' (first
  | with_reducible assumption
  | exact sub_of hl (by decide)
  | with_reducible apply lsEvent_only
  | split
  | (with_reducible apply Only.mk
     all_goals first | exact Or.inr rfl | exact Or.inl (hl _ (by decide)) | skip)
  | dsimp only)

/-- What lsResume may change. -/
theorem lsResume_only {parts : List Part} {s_ s : State}  (h : Only parts s_ s) (hl : ∀ p ∈ ([.ls] : List Part), p ∈ parts) :
    Only parts s_ (lsResume s) := by
  unfold lsResume
  repeat' (first
  | with_reducible assumption
  | exact sub_of hl (by decide)
  | with_reducible apply updLs_only
  | split
  | (with_reducible apply Only.mk
     all_goals first | exact Or.inr rfl | exact Or.inl (hl _ (by decide)) | skip)
  | dsimp only)

/-- What lsRise may change. -/
theorem lsRise_only {parts : List Part} {s_ s : State} 
    (h : Only parts s_ s)
    (hl : ∀ p ∈ ([.boot, .link, .ls] : List Part), p ∈ parts) :
    Only parts s_ (lsRise s) := by
  unfold lsRise
  repeat' (first
  | with_reducible assumption
  | exact sub_of hl (by decide)
  | with_reducible apply setReady_only
  | split
  | (with_reducible apply Only.mk
     all_goals first | exact Or.inr rfl | exact Or.inl (hl _ (by decide)) | skip)
  | dsimp only)

/-- What lsStartupTest may change. -/
theorem lsStartupTest_only {parts : List Part} {s_ s : State} (c : Nat) (pass : Bool)
    (h : Only parts s_ s)
    (hl : ∀ p ∈ ([.boot, .link, .tabs, .ev, .ports, .fences, .ls, .pw] : List Part), p ∈ parts) :
    Only parts s_ (lsStartupTest c pass s) := by
  unfold lsStartupTest
  repeat' (first
  | with_reducible assumption
  | exact sub_of hl (by decide)
  | with_reducible apply fenceNow_only
  | with_reducible apply lsRise_only
  | with_reducible apply unfenceNow_only
  | with_reducible apply updLs_only
  | split
  | (with_reducible apply Only.mk
     all_goals first | exact Or.inr rfl | exact Or.inl (hl _ (by decide)) | skip)
  | dsimp only)

/-! PortOps -/

/-- What writeKsRecord may change. -/
theorem writeKsRecord_only {parts : List Part} {s_ s : State} (map : Nat)
    (h : Only parts s_ s)
    (hl : ∀ p ∈ ([.safety] : List Part), p ∈ parts) :
    Only parts s_ (writeKsRecord map s) := by
  unfold writeKsRecord
  repeat' (first
  | with_reducible assumption
  | (with_reducible apply Only.mk
     all_goals first | exact Or.inr rfl | exact Or.inl (hl _ (by decide)) | skip)
  | dsimp only)

/-- What setSwitches may change. -/
theorem setSwitches_only {parts : List Part} {s_ s : State} (p : Nat) (chs cls : Bool)
    (h : Only parts s_ s)
    (hl : ∀ p ∈ ([.ports, .safety] : List Part), p ∈ parts) :
    Only parts s_ (setSwitches p chs cls s) := by
  unfold setSwitches
  repeat' (first
  | with_reducible assumption
  | exact sub_of hl (by decide)
  | with_reducible apply updPort_only
  | with_reducible apply writeKsRecord_only
  | split
  | (with_reducible apply Only.mk
     all_goals first | exact Or.inr rfl | exact Or.inl (hl _ (by decide)) | skip)
  | dsimp only)

/-- What safetyEvent may change. -/
theorem safetyEvent_only {parts : List Part} {s_ s : State} (port ev det value : Nat)
    (h : Only parts s_ s)
    (hl : ∀ p ∈ ([.link, .pw] : List Part), p ∈ parts) :
    Only parts s_ (safetyEvent port ev det value s) := by
  unfold safetyEvent
  repeat' (first
  | with_reducible assumption
  | exact sub_of hl (by decide)
  | with_reducible apply notify_only
  | (with_reducible apply Only.mk
     all_goals first | exact Or.inr rfl | exact Or.inl (hl _ (by decide)) | skip))

/-- What cpEvent may change. -/
theorem cpEvent_only {parts : List Part} {s_ s : State} (p ev old new det : Nat)
    (h : Only parts s_ s)
    (hl : ∀ p ∈ ([.link, .pw] : List Part), p ∈ parts) :
    Only parts s_ (cpEvent p ev old new det s) := by
  unfold cpEvent
  repeat' (first
  | with_reducible assumption
  | exact sub_of hl (by decide)
  | with_reducible apply notify_only
  | (with_reducible apply Only.mk
     all_goals first | exact Or.inr rfl | exact Or.inl (hl _ (by decide)) | skip))

/-- What rcEvent may change. -/
theorem rcEvent_only {parts : List Part} {s_ s : State} (p code det value : Nat)
    (h : Only parts s_ s)
    (hl : ∀ p ∈ ([.link, .ev, .ports, .pw] : List Part), p ∈ parts) :
    Only parts s_ (rcEvent p code det value s) := by
  unfold rcEvent
  repeat' (first
  | with_reducible assumption
  | exact sub_of hl (by decide)
  | with_reducible apply evrec_only
  | with_reducible apply notify_only
  | with_reducible apply updPort_only
  | (with_reducible apply Only.mk
     all_goals first | exact Or.inr rfl | exact Or.inl (hl _ (by decide)) | skip)
  | dsimp only)

/-- What lockRelease may change. -/
theorem lockRelease_only {parts : List Part} {s_ s : State} (p : Nat)
    (h : Only parts s_ s)
    (hl : ∀ p ∈ ([.ports] : List Part), p ∈ parts) :
    Only parts s_ (lockRelease p s) := by
  unfold lockRelease
  repeat' (first
  | with_reducible assumption
  | exact sub_of hl (by decide)
  | with_reducible apply updPort_only
  | split
  | (with_reducible apply Only.mk
     all_goals first | exact Or.inr rfl | exact Or.inl (hl _ (by decide)) | skip)
  | dsimp only)

/-- What lockFree may change. -/
theorem lockFree_only {parts : List Part} {s_ s : State} (p : Nat)
    (h : Only parts s_ s)
    (hl : ∀ p ∈ ([.ports] : List Part), p ∈ parts) :
    Only parts s_ (lockFree p s) := by
  unfold lockFree
  repeat' (first
  | with_reducible assumption
  | exact sub_of hl (by decide)
  | with_reducible apply updPort_only
  | split
  | (with_reducible apply Only.mk
     all_goals first | exact Or.inr rfl | exact Or.inl (hl _ (by decide)) | skip)
  | dsimp only)

/-- What grantPermit may change. -/
theorem grantPermit_only {parts : List Part} {s_ s : State} (p : Nat)
    (h : Only parts s_ s)
    (hl : ∀ p ∈ ([.ports] : List Part), p ∈ parts) :
    Only parts s_ (grantPermit p s) := by
  unfold grantPermit
  repeat' (first
  | with_reducible assumption
  | exact sub_of hl (by decide)
  | with_reducible apply updPort_only
  | (with_reducible apply Only.mk
     all_goals first | exact Or.inr rfl | exact Or.inl (hl _ (by decide)) | skip)
  | dsimp only)

/-- What withdrawPermit may change. -/
theorem withdrawPermit_only {parts : List Part} {s_ s : State} (p cause : Nat)
    (h : Only parts s_ s)
    (hl : ∀ p ∈ ([.ports] : List Part), p ∈ parts) :
    Only parts s_ (withdrawPermit p cause s) := by
  unfold withdrawPermit
  repeat' (first
  | with_reducible assumption
  | exact sub_of hl (by decide)
  | with_reducible apply lockRelease_only
  | with_reducible apply updPort_only
  | split
  | (with_reducible apply Only.mk
     all_goals first | exact Or.inr rfl | exact Or.inl (hl _ (by decide)) | skip)
  | dsimp only)

/-- What removeEnergy may change. -/
theorem removeEnergy_only {parts : List Part} {s_ s : State} (p cause result : Nat)
    (h : Only parts s_ s)
    (hl : ∀ p ∈ ([.link, .ports, .safety, .pw] : List Part), p ∈ parts) :
    Only parts s_ (removeEnergy p cause result s) := by
  unfold removeEnergy
  repeat' (first
  | with_reducible assumption
  | exact sub_of hl (by decide)
  | with_reducible apply safetyEvent_only
  | with_reducible apply setSwitches_only
  | with_reducible apply updPort_only
  | (with_reducible apply Only.mk
     all_goals first | exact Or.inr rfl | exact Or.inl (hl _ (by decide)) | skip)
  | dsimp only)

/-- What keepFence may change. -/
theorem keepFence_only {parts : List Part} {s_ s : State} (p : Nat) (f : Option (Nat × Nat × Bool))
    (h : Only parts s_ s)
    (hl : ∀ p ∈ ([.ports] : List Part), p ∈ parts) :
    Only parts s_ (keepFence p f s) := by
  unfold keepFence
  repeat' (first
  | with_reducible assumption
  | exact sub_of hl (by decide)
  | with_reducible apply updPort_only
  | split
  | (with_reducible apply Only.mk
     all_goals first | exact Or.inr rfl | exact Or.inl (hl _ (by decide)) | skip)
  | dsimp only)

/-- What endSequence may change. -/
theorem endSequence_only {parts : List Part} {s_ s : State} (p : Nat)
    (h : Only parts s_ s)
    (hl : ∀ p ∈ ([.ports, .safety] : List Part), p ∈ parts) :
    Only parts s_ (endSequence p s) := by
  unfold endSequence
  repeat' (first
  | with_reducible assumption
  | exact sub_of hl (by decide)
  | with_reducible apply setSwitches_only
  | with_reducible apply updPort_only
  | split
  | (with_reducible apply Only.mk
     all_goals first | exact Or.inr rfl | exact Or.inl (hl _ (by decide)) | skip)
  | dsimp only)

/-- What fencePort may change. -/
theorem fencePort_only {parts : List Part} {s_ s : State} (p cause : Nat) (req : Bool) (cls det : Nat)
    (h : Only parts s_ s)
    (hl : ∀ p ∈ ([.boot, .link, .tabs, .ev, .ports, .safety, .fences, .pw] : List Part), p ∈ parts) :
    Only parts s_ (fencePort p cause req cls det s) := by
  unfold fencePort
  repeat' (first
  | with_reducible assumption
  | exact sub_of hl (by decide)
  | with_reducible apply endSequence_only
  | with_reducible apply fenceNow_only
  | with_reducible apply withdrawPermit_only
  | (with_reducible apply Only.mk
     all_goals first | exact Or.inr rfl | exact Or.inl (hl _ (by decide)) | skip))

/-- What fenceIdle may change. -/
theorem fenceIdle_only {parts : List Part} {s_ s : State} (p cause : Nat) (f : Option (Nat × Nat × Bool))
    (h : Only parts s_ s)
    (hl : ∀ p ∈ ([.boot, .link, .tabs, .ev, .ports, .safety, .fences, .pw] : List Part), p ∈ parts) :
    Only parts s_ (fenceIdle p cause f s) := by
  unfold fenceIdle
  repeat' (first
  | with_reducible assumption
  | exact sub_of hl (by decide)
  | with_reducible apply fencePort_only
  | split
  | (with_reducible apply Only.mk
     all_goals first | exact Or.inr rfl | exact Or.inl (hl _ (by decide)) | skip)
  | dsimp only)

/-- What startStop may change. -/
theorem startStop_only {parts : List Part} {s_ s : State} (p cause : Nat) (f : Option (Nat × Nat × Bool))
    (h : Only parts s_ s)
    (hl : ∀ p ∈ ([.boot, .link, .tabs, .ev, .ports, .safety, .fences, .pw] : List Part), p ∈ parts) :
    Only parts s_ (startStop p cause f s) := by
  unfold startStop
  repeat' (first
  | with_reducible assumption
  | exact sub_of hl (by decide)
  | with_reducible apply endSequence_only
  | with_reducible apply fenceIdle_only
  | with_reducible apply keepFence_only
  | with_reducible apply removeEnergy_only
  | with_reducible apply safetyEvent_only
  | with_reducible apply updPort_only
  | split
  | (with_reducible apply Only.mk
     all_goals first | exact Or.inr rfl | exact Or.inl (hl _ (by decide)) | skip)
  | dsimp only)

/-- What endStop may change. -/
theorem endStop_only {parts : List Part} {s_ s : State} (p : Nat) (safe : Bool)
    (h : Only parts s_ s)
    (hl : ∀ p ∈ ([.boot, .link, .tabs, .ev, .ports, .safety, .fences, .pw] : List Part), p ∈ parts) :
    Only parts s_ (endStop p safe s) := by
  unfold endStop
  repeat' (first
  | with_reducible assumption
  | exact sub_of hl (by decide)
  | with_reducible apply fenceIdle_only
  | with_reducible apply safetyEvent_only
  | with_reducible apply updPort_only
  | with_reducible apply withdrawPermit_only
  | split
  | (with_reducible apply Only.mk
     all_goals first | exact Or.inr rfl | exact Or.inl (hl _ (by decide)) | skip)
  | dsimp only)

end Sys2Proof.Machine
end

