-- ==== Sys2Proof/Laws/State.lean ====
section
/-!
SUPPORT. What an update leaves of each field of State, one lemma per field and update: no later proof unfolds a record
update.
-/

namespace Sys2Proof.Machine

/-! updPort changes ports. -/
@[simp] theorem updPort_clk (p : Nat) (f : Port → Port) (s : State) : (updPort p f s).clk = s.clk := rfl
@[simp] theorem updPort_boot (p : Nat) (f : Port → Port) (s : State) : (updPort p f s).boot = s.boot := rfl
@[simp] theorem updPort_otp (p : Nat) (f : Port → Port) (s : State) : (updPort p f s).otp = s.otp := rfl
@[simp] theorem updPort_link (p : Nat) (f : Port → Port) (s : State) : (updPort p f s).link = s.link := rfl
@[simp] theorem updPort_tabs (p : Nat) (f : Port → Port) (s : State) : (updPort p f s).tabs = s.tabs := rfl
@[simp] theorem updPort_ev (p : Nat) (f : Port → Port) (s : State) : (updPort p f s).ev = s.ev := rfl
@[simp] theorem updPort_cairn (p : Nat) (f : Port → Port) (s : State) : (updPort p f s).cairn = s.cairn := rfl
@[simp] theorem updPort_sealIn (p : Nat) (f : Port → Port) (s : State) : (updPort p f s).sealIn = s.sealIn := rfl
@[simp] theorem updPort_meter (p : Nat) (f : Port → Port) (s : State) : (updPort p f s).meter = s.meter := rfl
@[simp] theorem updPort_cal (p : Nat) (f : Port → Port) (s : State) : (updPort p f s).cal = s.cal := rfl
@[simp] theorem updPort_eg (p : Nat) (f : Port → Port) (s : State) : (updPort p f s).eg = s.eg := rfl
@[simp] theorem updPort_lintel (p : Nat) (f : Port → Port) (s : State) : (updPort p f s).lintel = s.lintel := rfl
@[simp] theorem updPort_safety (p : Nat) (f : Port → Port) (s : State) : (updPort p f s).safety = s.safety := rfl
@[simp] theorem updPort_rtc (p : Nat) (f : Port → Port) (s : State) : (updPort p f s).rtc = s.rtc := rfl
@[simp] theorem updPort_tar (p : Nat) (f : Port → Port) (s : State) : (updPort p f s).tar = s.tar := rfl
@[simp] theorem updPort_nf (p : Nat) (f : Port → Port) (s : State) : (updPort p f s).nf = s.nf := rfl
@[simp] theorem updPort_fences (p : Nat) (f : Port → Port) (s : State) : (updPort p f s).fences = s.fences := rfl
@[simp] theorem updPort_ls (p : Nat) (f : Port → Port) (s : State) : (updPort p f s).ls = s.ls := rfl
@[simp] theorem updPort_vault (p : Nat) (f : Port → Port) (s : State) : (updPort p f s).vault = s.vault := rfl
@[simp] theorem updPort_rind (p : Nat) (f : Port → Port) (s : State) : (updPort p f s).rind = s.rind := rfl
@[simp] theorem updPort_qr (p : Nat) (f : Port → Port) (s : State) : (updPort p f s).qr = s.qr := rfl
@[simp] theorem updPort_upd (p : Nat) (f : Port → Port) (s : State) : (updPort p f s).upd = s.upd := rfl
@[simp] theorem updPort_pl (p : Nat) (f : Port → Port) (s : State) : (updPort p f s).pl = s.pl := rfl
@[simp] theorem updPort_disp (p : Nat) (f : Port → Port) (s : State) : (updPort p f s).disp = s.disp := rfl
@[simp] theorem updPort_pw (p : Nat) (f : Port → Port) (s : State) : (updPort p f s).pw = s.pw := rfl
@[simp] theorem updPort_draws (p : Nat) (f : Port → Port) (s : State) : (updPort p f s).draws = s.draws := rfl
@[simp] theorem updPort_pending (p : Nat) (f : Port → Port) (s : State) : (updPort p f s).pending = s.pending := rfl

/-! updPh changes meter. -/
@[simp] theorem updPh_clk (i : Nat) (f : Ph → Ph) (s : State) : (updPh i f s).clk = s.clk := rfl
@[simp] theorem updPh_boot (i : Nat) (f : Ph → Ph) (s : State) : (updPh i f s).boot = s.boot := rfl
@[simp] theorem updPh_otp (i : Nat) (f : Ph → Ph) (s : State) : (updPh i f s).otp = s.otp := rfl
@[simp] theorem updPh_link (i : Nat) (f : Ph → Ph) (s : State) : (updPh i f s).link = s.link := rfl
@[simp] theorem updPh_tabs (i : Nat) (f : Ph → Ph) (s : State) : (updPh i f s).tabs = s.tabs := rfl
@[simp] theorem updPh_ev (i : Nat) (f : Ph → Ph) (s : State) : (updPh i f s).ev = s.ev := rfl
@[simp] theorem updPh_cairn (i : Nat) (f : Ph → Ph) (s : State) : (updPh i f s).cairn = s.cairn := rfl
@[simp] theorem updPh_sealIn (i : Nat) (f : Ph → Ph) (s : State) : (updPh i f s).sealIn = s.sealIn := rfl
@[simp] theorem updPh_cal (i : Nat) (f : Ph → Ph) (s : State) : (updPh i f s).cal = s.cal := rfl
@[simp] theorem updPh_eg (i : Nat) (f : Ph → Ph) (s : State) : (updPh i f s).eg = s.eg := rfl
@[simp] theorem updPh_ports (i : Nat) (f : Ph → Ph) (s : State) : (updPh i f s).ports = s.ports := rfl
@[simp] theorem updPh_lintel (i : Nat) (f : Ph → Ph) (s : State) : (updPh i f s).lintel = s.lintel := rfl
@[simp] theorem updPh_safety (i : Nat) (f : Ph → Ph) (s : State) : (updPh i f s).safety = s.safety := rfl
@[simp] theorem updPh_rtc (i : Nat) (f : Ph → Ph) (s : State) : (updPh i f s).rtc = s.rtc := rfl
@[simp] theorem updPh_tar (i : Nat) (f : Ph → Ph) (s : State) : (updPh i f s).tar = s.tar := rfl
@[simp] theorem updPh_nf (i : Nat) (f : Ph → Ph) (s : State) : (updPh i f s).nf = s.nf := rfl
@[simp] theorem updPh_fences (i : Nat) (f : Ph → Ph) (s : State) : (updPh i f s).fences = s.fences := rfl
@[simp] theorem updPh_ls (i : Nat) (f : Ph → Ph) (s : State) : (updPh i f s).ls = s.ls := rfl
@[simp] theorem updPh_vault (i : Nat) (f : Ph → Ph) (s : State) : (updPh i f s).vault = s.vault := rfl
@[simp] theorem updPh_rind (i : Nat) (f : Ph → Ph) (s : State) : (updPh i f s).rind = s.rind := rfl
@[simp] theorem updPh_qr (i : Nat) (f : Ph → Ph) (s : State) : (updPh i f s).qr = s.qr := rfl
@[simp] theorem updPh_upd (i : Nat) (f : Ph → Ph) (s : State) : (updPh i f s).upd = s.upd := rfl
@[simp] theorem updPh_pl (i : Nat) (f : Ph → Ph) (s : State) : (updPh i f s).pl = s.pl := rfl
@[simp] theorem updPh_disp (i : Nat) (f : Ph → Ph) (s : State) : (updPh i f s).disp = s.disp := rfl
@[simp] theorem updPh_pw (i : Nat) (f : Ph → Ph) (s : State) : (updPh i f s).pw = s.pw := rfl
@[simp] theorem updPh_draws (i : Nat) (f : Ph → Ph) (s : State) : (updPh i f s).draws = s.draws := rfl
@[simp] theorem updPh_pending (i : Nat) (f : Ph → Ph) (s : State) : (updPh i f s).pending = s.pending := rfl

/-! updGrp changes meter. -/
@[simp] theorem updGrp_clk (g : Nat) (f : Grp → Grp) (s : State) : (updGrp g f s).clk = s.clk := rfl
@[simp] theorem updGrp_boot (g : Nat) (f : Grp → Grp) (s : State) : (updGrp g f s).boot = s.boot := rfl
@[simp] theorem updGrp_otp (g : Nat) (f : Grp → Grp) (s : State) : (updGrp g f s).otp = s.otp := rfl
@[simp] theorem updGrp_link (g : Nat) (f : Grp → Grp) (s : State) : (updGrp g f s).link = s.link := rfl
@[simp] theorem updGrp_tabs (g : Nat) (f : Grp → Grp) (s : State) : (updGrp g f s).tabs = s.tabs := rfl
@[simp] theorem updGrp_ev (g : Nat) (f : Grp → Grp) (s : State) : (updGrp g f s).ev = s.ev := rfl
@[simp] theorem updGrp_cairn (g : Nat) (f : Grp → Grp) (s : State) : (updGrp g f s).cairn = s.cairn := rfl
@[simp] theorem updGrp_sealIn (g : Nat) (f : Grp → Grp) (s : State) : (updGrp g f s).sealIn = s.sealIn := rfl
@[simp] theorem updGrp_cal (g : Nat) (f : Grp → Grp) (s : State) : (updGrp g f s).cal = s.cal := rfl
@[simp] theorem updGrp_eg (g : Nat) (f : Grp → Grp) (s : State) : (updGrp g f s).eg = s.eg := rfl
@[simp] theorem updGrp_ports (g : Nat) (f : Grp → Grp) (s : State) : (updGrp g f s).ports = s.ports := rfl
@[simp] theorem updGrp_lintel (g : Nat) (f : Grp → Grp) (s : State) : (updGrp g f s).lintel = s.lintel := rfl
@[simp] theorem updGrp_safety (g : Nat) (f : Grp → Grp) (s : State) : (updGrp g f s).safety = s.safety := rfl
@[simp] theorem updGrp_rtc (g : Nat) (f : Grp → Grp) (s : State) : (updGrp g f s).rtc = s.rtc := rfl
@[simp] theorem updGrp_tar (g : Nat) (f : Grp → Grp) (s : State) : (updGrp g f s).tar = s.tar := rfl
@[simp] theorem updGrp_nf (g : Nat) (f : Grp → Grp) (s : State) : (updGrp g f s).nf = s.nf := rfl
@[simp] theorem updGrp_fences (g : Nat) (f : Grp → Grp) (s : State) : (updGrp g f s).fences = s.fences := rfl
@[simp] theorem updGrp_ls (g : Nat) (f : Grp → Grp) (s : State) : (updGrp g f s).ls = s.ls := rfl
@[simp] theorem updGrp_vault (g : Nat) (f : Grp → Grp) (s : State) : (updGrp g f s).vault = s.vault := rfl
@[simp] theorem updGrp_rind (g : Nat) (f : Grp → Grp) (s : State) : (updGrp g f s).rind = s.rind := rfl
@[simp] theorem updGrp_qr (g : Nat) (f : Grp → Grp) (s : State) : (updGrp g f s).qr = s.qr := rfl
@[simp] theorem updGrp_upd (g : Nat) (f : Grp → Grp) (s : State) : (updGrp g f s).upd = s.upd := rfl
@[simp] theorem updGrp_pl (g : Nat) (f : Grp → Grp) (s : State) : (updGrp g f s).pl = s.pl := rfl
@[simp] theorem updGrp_disp (g : Nat) (f : Grp → Grp) (s : State) : (updGrp g f s).disp = s.disp := rfl
@[simp] theorem updGrp_pw (g : Nat) (f : Grp → Grp) (s : State) : (updGrp g f s).pw = s.pw := rfl
@[simp] theorem updGrp_draws (g : Nat) (f : Grp → Grp) (s : State) : (updGrp g f s).draws = s.draws := rfl
@[simp] theorem updGrp_pending (g : Nat) (f : Grp → Grp) (s : State) : (updGrp g f s).pending = s.pending := rfl

/-! updStream changes meter. -/
@[simp] theorem updStream_clk (k : Nat) (f : Stream → Stream) (s : State) : (updStream k f s).clk = s.clk := rfl
@[simp] theorem updStream_boot (k : Nat) (f : Stream → Stream) (s : State) : (updStream k f s).boot = s.boot := rfl
@[simp] theorem updStream_otp (k : Nat) (f : Stream → Stream) (s : State) : (updStream k f s).otp = s.otp := rfl
@[simp] theorem updStream_link (k : Nat) (f : Stream → Stream) (s : State) : (updStream k f s).link = s.link := rfl
@[simp] theorem updStream_tabs (k : Nat) (f : Stream → Stream) (s : State) : (updStream k f s).tabs = s.tabs := rfl
@[simp] theorem updStream_ev (k : Nat) (f : Stream → Stream) (s : State) : (updStream k f s).ev = s.ev := rfl
@[simp] theorem updStream_cairn (k : Nat) (f : Stream → Stream) (s : State) : (updStream k f s).cairn = s.cairn := rfl
@[simp] theorem updStream_sealIn (k : Nat) (f : Stream → Stream) (s : State) : (updStream k f s).sealIn = s.sealIn := rfl
@[simp] theorem updStream_cal (k : Nat) (f : Stream → Stream) (s : State) : (updStream k f s).cal = s.cal := rfl
@[simp] theorem updStream_eg (k : Nat) (f : Stream → Stream) (s : State) : (updStream k f s).eg = s.eg := rfl
@[simp] theorem updStream_ports (k : Nat) (f : Stream → Stream) (s : State) : (updStream k f s).ports = s.ports := rfl
@[simp] theorem updStream_lintel (k : Nat) (f : Stream → Stream) (s : State) : (updStream k f s).lintel = s.lintel := rfl
@[simp] theorem updStream_safety (k : Nat) (f : Stream → Stream) (s : State) : (updStream k f s).safety = s.safety := rfl
@[simp] theorem updStream_rtc (k : Nat) (f : Stream → Stream) (s : State) : (updStream k f s).rtc = s.rtc := rfl
@[simp] theorem updStream_tar (k : Nat) (f : Stream → Stream) (s : State) : (updStream k f s).tar = s.tar := rfl
@[simp] theorem updStream_nf (k : Nat) (f : Stream → Stream) (s : State) : (updStream k f s).nf = s.nf := rfl
@[simp] theorem updStream_fences (k : Nat) (f : Stream → Stream) (s : State) : (updStream k f s).fences = s.fences := rfl
@[simp] theorem updStream_ls (k : Nat) (f : Stream → Stream) (s : State) : (updStream k f s).ls = s.ls := rfl
@[simp] theorem updStream_vault (k : Nat) (f : Stream → Stream) (s : State) : (updStream k f s).vault = s.vault := rfl
@[simp] theorem updStream_rind (k : Nat) (f : Stream → Stream) (s : State) : (updStream k f s).rind = s.rind := rfl
@[simp] theorem updStream_qr (k : Nat) (f : Stream → Stream) (s : State) : (updStream k f s).qr = s.qr := rfl
@[simp] theorem updStream_upd (k : Nat) (f : Stream → Stream) (s : State) : (updStream k f s).upd = s.upd := rfl
@[simp] theorem updStream_pl (k : Nat) (f : Stream → Stream) (s : State) : (updStream k f s).pl = s.pl := rfl
@[simp] theorem updStream_disp (k : Nat) (f : Stream → Stream) (s : State) : (updStream k f s).disp = s.disp := rfl
@[simp] theorem updStream_pw (k : Nat) (f : Stream → Stream) (s : State) : (updStream k f s).pw = s.pw := rfl
@[simp] theorem updStream_draws (k : Nat) (f : Stream → Stream) (s : State) : (updStream k f s).draws = s.draws := rfl
@[simp] theorem updStream_pending (k : Nat) (f : Stream → Stream) (s : State) : (updStream k f s).pending = s.pending := rfl

/-! irqSet changes link. -/
@[simp] theorem irqSet_clk (i : Nat) (s : State) : (irqSet i s).clk = s.clk := rfl
@[simp] theorem irqSet_boot (i : Nat) (s : State) : (irqSet i s).boot = s.boot := rfl
@[simp] theorem irqSet_otp (i : Nat) (s : State) : (irqSet i s).otp = s.otp := rfl
@[simp] theorem irqSet_tabs (i : Nat) (s : State) : (irqSet i s).tabs = s.tabs := rfl
@[simp] theorem irqSet_ev (i : Nat) (s : State) : (irqSet i s).ev = s.ev := rfl
@[simp] theorem irqSet_cairn (i : Nat) (s : State) : (irqSet i s).cairn = s.cairn := rfl
@[simp] theorem irqSet_sealIn (i : Nat) (s : State) : (irqSet i s).sealIn = s.sealIn := rfl
@[simp] theorem irqSet_meter (i : Nat) (s : State) : (irqSet i s).meter = s.meter := rfl
@[simp] theorem irqSet_cal (i : Nat) (s : State) : (irqSet i s).cal = s.cal := rfl
@[simp] theorem irqSet_eg (i : Nat) (s : State) : (irqSet i s).eg = s.eg := rfl
@[simp] theorem irqSet_ports (i : Nat) (s : State) : (irqSet i s).ports = s.ports := rfl
@[simp] theorem irqSet_lintel (i : Nat) (s : State) : (irqSet i s).lintel = s.lintel := rfl
@[simp] theorem irqSet_safety (i : Nat) (s : State) : (irqSet i s).safety = s.safety := rfl
@[simp] theorem irqSet_rtc (i : Nat) (s : State) : (irqSet i s).rtc = s.rtc := rfl
@[simp] theorem irqSet_tar (i : Nat) (s : State) : (irqSet i s).tar = s.tar := rfl
@[simp] theorem irqSet_nf (i : Nat) (s : State) : (irqSet i s).nf = s.nf := rfl
@[simp] theorem irqSet_fences (i : Nat) (s : State) : (irqSet i s).fences = s.fences := rfl
@[simp] theorem irqSet_ls (i : Nat) (s : State) : (irqSet i s).ls = s.ls := rfl
@[simp] theorem irqSet_vault (i : Nat) (s : State) : (irqSet i s).vault = s.vault := rfl
@[simp] theorem irqSet_rind (i : Nat) (s : State) : (irqSet i s).rind = s.rind := rfl
@[simp] theorem irqSet_qr (i : Nat) (s : State) : (irqSet i s).qr = s.qr := rfl
@[simp] theorem irqSet_upd (i : Nat) (s : State) : (irqSet i s).upd = s.upd := rfl
@[simp] theorem irqSet_pl (i : Nat) (s : State) : (irqSet i s).pl = s.pl := rfl
@[simp] theorem irqSet_disp (i : Nat) (s : State) : (irqSet i s).disp = s.disp := rfl
@[simp] theorem irqSet_pw (i : Nat) (s : State) : (irqSet i s).pw = s.pw := rfl
@[simp] theorem irqSet_draws (i : Nat) (s : State) : (irqSet i s).draws = s.draws := rfl
@[simp] theorem irqSet_pending (i : Nat) (s : State) : (irqSet i s).pending = s.pending := rfl

/-! evrec changes ev. -/
@[simp] theorem evrec_clk (c u j : Nat) (b : List Byte) (s : State) : (evrec c u j b s).clk = s.clk := rfl
@[simp] theorem evrec_boot (c u j : Nat) (b : List Byte) (s : State) : (evrec c u j b s).boot = s.boot := rfl
@[simp] theorem evrec_otp (c u j : Nat) (b : List Byte) (s : State) : (evrec c u j b s).otp = s.otp := rfl
@[simp] theorem evrec_link (c u j : Nat) (b : List Byte) (s : State) : (evrec c u j b s).link = s.link := rfl
@[simp] theorem evrec_tabs (c u j : Nat) (b : List Byte) (s : State) : (evrec c u j b s).tabs = s.tabs := rfl
@[simp] theorem evrec_cairn (c u j : Nat) (b : List Byte) (s : State) : (evrec c u j b s).cairn = s.cairn := rfl
@[simp] theorem evrec_sealIn (c u j : Nat) (b : List Byte) (s : State) : (evrec c u j b s).sealIn = s.sealIn := rfl
@[simp] theorem evrec_meter (c u j : Nat) (b : List Byte) (s : State) : (evrec c u j b s).meter = s.meter := rfl
@[simp] theorem evrec_cal (c u j : Nat) (b : List Byte) (s : State) : (evrec c u j b s).cal = s.cal := rfl
@[simp] theorem evrec_eg (c u j : Nat) (b : List Byte) (s : State) : (evrec c u j b s).eg = s.eg := rfl
@[simp] theorem evrec_ports (c u j : Nat) (b : List Byte) (s : State) : (evrec c u j b s).ports = s.ports := rfl
@[simp] theorem evrec_lintel (c u j : Nat) (b : List Byte) (s : State) : (evrec c u j b s).lintel = s.lintel := rfl
@[simp] theorem evrec_safety (c u j : Nat) (b : List Byte) (s : State) : (evrec c u j b s).safety = s.safety := rfl
@[simp] theorem evrec_rtc (c u j : Nat) (b : List Byte) (s : State) : (evrec c u j b s).rtc = s.rtc := rfl
@[simp] theorem evrec_tar (c u j : Nat) (b : List Byte) (s : State) : (evrec c u j b s).tar = s.tar := rfl
@[simp] theorem evrec_nf (c u j : Nat) (b : List Byte) (s : State) : (evrec c u j b s).nf = s.nf := rfl
@[simp] theorem evrec_fences (c u j : Nat) (b : List Byte) (s : State) : (evrec c u j b s).fences = s.fences := rfl
@[simp] theorem evrec_ls (c u j : Nat) (b : List Byte) (s : State) : (evrec c u j b s).ls = s.ls := rfl
@[simp] theorem evrec_vault (c u j : Nat) (b : List Byte) (s : State) : (evrec c u j b s).vault = s.vault := rfl
@[simp] theorem evrec_rind (c u j : Nat) (b : List Byte) (s : State) : (evrec c u j b s).rind = s.rind := rfl
@[simp] theorem evrec_qr (c u j : Nat) (b : List Byte) (s : State) : (evrec c u j b s).qr = s.qr := rfl
@[simp] theorem evrec_upd (c u j : Nat) (b : List Byte) (s : State) : (evrec c u j b s).upd = s.upd := rfl
@[simp] theorem evrec_pl (c u j : Nat) (b : List Byte) (s : State) : (evrec c u j b s).pl = s.pl := rfl
@[simp] theorem evrec_disp (c u j : Nat) (b : List Byte) (s : State) : (evrec c u j b s).disp = s.disp := rfl
@[simp] theorem evrec_pw (c u j : Nat) (b : List Byte) (s : State) : (evrec c u j b s).pw = s.pw := rfl
@[simp] theorem evrec_draws (c u j : Nat) (b : List Byte) (s : State) : (evrec c u j b s).draws = s.draws := rfl
@[simp] theorem evrec_pending (c u j : Nat) (b : List Byte) (s : State) : (evrec c u j b s).pending = s.pending := rfl

/-! setChan changes link. -/
@[simp] theorem setChan_clk (c : Nat) (st : ChSt) (s : State) : (setChan c st s).clk = s.clk := rfl
@[simp] theorem setChan_boot (c : Nat) (st : ChSt) (s : State) : (setChan c st s).boot = s.boot := rfl
@[simp] theorem setChan_otp (c : Nat) (st : ChSt) (s : State) : (setChan c st s).otp = s.otp := rfl
@[simp] theorem setChan_tabs (c : Nat) (st : ChSt) (s : State) : (setChan c st s).tabs = s.tabs := rfl
@[simp] theorem setChan_ev (c : Nat) (st : ChSt) (s : State) : (setChan c st s).ev = s.ev := rfl
@[simp] theorem setChan_cairn (c : Nat) (st : ChSt) (s : State) : (setChan c st s).cairn = s.cairn := rfl
@[simp] theorem setChan_sealIn (c : Nat) (st : ChSt) (s : State) : (setChan c st s).sealIn = s.sealIn := rfl
@[simp] theorem setChan_meter (c : Nat) (st : ChSt) (s : State) : (setChan c st s).meter = s.meter := rfl
@[simp] theorem setChan_cal (c : Nat) (st : ChSt) (s : State) : (setChan c st s).cal = s.cal := rfl
@[simp] theorem setChan_eg (c : Nat) (st : ChSt) (s : State) : (setChan c st s).eg = s.eg := rfl
@[simp] theorem setChan_ports (c : Nat) (st : ChSt) (s : State) : (setChan c st s).ports = s.ports := rfl
@[simp] theorem setChan_lintel (c : Nat) (st : ChSt) (s : State) : (setChan c st s).lintel = s.lintel := rfl
@[simp] theorem setChan_safety (c : Nat) (st : ChSt) (s : State) : (setChan c st s).safety = s.safety := rfl
@[simp] theorem setChan_rtc (c : Nat) (st : ChSt) (s : State) : (setChan c st s).rtc = s.rtc := rfl
@[simp] theorem setChan_tar (c : Nat) (st : ChSt) (s : State) : (setChan c st s).tar = s.tar := rfl
@[simp] theorem setChan_nf (c : Nat) (st : ChSt) (s : State) : (setChan c st s).nf = s.nf := rfl
@[simp] theorem setChan_fences (c : Nat) (st : ChSt) (s : State) : (setChan c st s).fences = s.fences := rfl
@[simp] theorem setChan_ls (c : Nat) (st : ChSt) (s : State) : (setChan c st s).ls = s.ls := rfl
@[simp] theorem setChan_vault (c : Nat) (st : ChSt) (s : State) : (setChan c st s).vault = s.vault := rfl
@[simp] theorem setChan_rind (c : Nat) (st : ChSt) (s : State) : (setChan c st s).rind = s.rind := rfl
@[simp] theorem setChan_qr (c : Nat) (st : ChSt) (s : State) : (setChan c st s).qr = s.qr := rfl
@[simp] theorem setChan_upd (c : Nat) (st : ChSt) (s : State) : (setChan c st s).upd = s.upd := rfl
@[simp] theorem setChan_pl (c : Nat) (st : ChSt) (s : State) : (setChan c st s).pl = s.pl := rfl
@[simp] theorem setChan_disp (c : Nat) (st : ChSt) (s : State) : (setChan c st s).disp = s.disp := rfl
@[simp] theorem setChan_pw (c : Nat) (st : ChSt) (s : State) : (setChan c st s).pw = s.pw := rfl
@[simp] theorem setChan_draws (c : Nat) (st : ChSt) (s : State) : (setChan c st s).draws = s.draws := rfl
@[simp] theorem setChan_pending (c : Nat) (st : ChSt) (s : State) : (setChan c st s).pending = s.pending := rfl

/-! updNf changes nf. -/
@[simp] theorem updNf_clk (n : Nat) (f : Nf → Nf) (s : State) : (updNf n f s).clk = s.clk := rfl
@[simp] theorem updNf_boot (n : Nat) (f : Nf → Nf) (s : State) : (updNf n f s).boot = s.boot := rfl
@[simp] theorem updNf_otp (n : Nat) (f : Nf → Nf) (s : State) : (updNf n f s).otp = s.otp := rfl
@[simp] theorem updNf_link (n : Nat) (f : Nf → Nf) (s : State) : (updNf n f s).link = s.link := rfl
@[simp] theorem updNf_tabs (n : Nat) (f : Nf → Nf) (s : State) : (updNf n f s).tabs = s.tabs := rfl
@[simp] theorem updNf_ev (n : Nat) (f : Nf → Nf) (s : State) : (updNf n f s).ev = s.ev := rfl
@[simp] theorem updNf_cairn (n : Nat) (f : Nf → Nf) (s : State) : (updNf n f s).cairn = s.cairn := rfl
@[simp] theorem updNf_sealIn (n : Nat) (f : Nf → Nf) (s : State) : (updNf n f s).sealIn = s.sealIn := rfl
@[simp] theorem updNf_meter (n : Nat) (f : Nf → Nf) (s : State) : (updNf n f s).meter = s.meter := rfl
@[simp] theorem updNf_cal (n : Nat) (f : Nf → Nf) (s : State) : (updNf n f s).cal = s.cal := rfl
@[simp] theorem updNf_eg (n : Nat) (f : Nf → Nf) (s : State) : (updNf n f s).eg = s.eg := rfl
@[simp] theorem updNf_ports (n : Nat) (f : Nf → Nf) (s : State) : (updNf n f s).ports = s.ports := rfl
@[simp] theorem updNf_lintel (n : Nat) (f : Nf → Nf) (s : State) : (updNf n f s).lintel = s.lintel := rfl
@[simp] theorem updNf_safety (n : Nat) (f : Nf → Nf) (s : State) : (updNf n f s).safety = s.safety := rfl
@[simp] theorem updNf_rtc (n : Nat) (f : Nf → Nf) (s : State) : (updNf n f s).rtc = s.rtc := rfl
@[simp] theorem updNf_tar (n : Nat) (f : Nf → Nf) (s : State) : (updNf n f s).tar = s.tar := rfl
@[simp] theorem updNf_fences (n : Nat) (f : Nf → Nf) (s : State) : (updNf n f s).fences = s.fences := rfl
@[simp] theorem updNf_ls (n : Nat) (f : Nf → Nf) (s : State) : (updNf n f s).ls = s.ls := rfl
@[simp] theorem updNf_vault (n : Nat) (f : Nf → Nf) (s : State) : (updNf n f s).vault = s.vault := rfl
@[simp] theorem updNf_rind (n : Nat) (f : Nf → Nf) (s : State) : (updNf n f s).rind = s.rind := rfl
@[simp] theorem updNf_qr (n : Nat) (f : Nf → Nf) (s : State) : (updNf n f s).qr = s.qr := rfl
@[simp] theorem updNf_upd (n : Nat) (f : Nf → Nf) (s : State) : (updNf n f s).upd = s.upd := rfl
@[simp] theorem updNf_pl (n : Nat) (f : Nf → Nf) (s : State) : (updNf n f s).pl = s.pl := rfl
@[simp] theorem updNf_disp (n : Nat) (f : Nf → Nf) (s : State) : (updNf n f s).disp = s.disp := rfl
@[simp] theorem updNf_pw (n : Nat) (f : Nf → Nf) (s : State) : (updNf n f s).pw = s.pw := rfl
@[simp] theorem updNf_draws (n : Nat) (f : Nf → Nf) (s : State) : (updNf n f s).draws = s.draws := rfl
@[simp] theorem updNf_pending (n : Nat) (f : Nf → Nf) (s : State) : (updNf n f s).pending = s.pending := rfl

/-! updCard changes nf. -/
@[simp] theorem updCard_clk (n : Nat) (f : CardRun → CardRun) (s : State) : (updCard n f s).clk = s.clk := rfl
@[simp] theorem updCard_boot (n : Nat) (f : CardRun → CardRun) (s : State) : (updCard n f s).boot = s.boot := rfl
@[simp] theorem updCard_otp (n : Nat) (f : CardRun → CardRun) (s : State) : (updCard n f s).otp = s.otp := rfl
@[simp] theorem updCard_link (n : Nat) (f : CardRun → CardRun) (s : State) : (updCard n f s).link = s.link := rfl
@[simp] theorem updCard_tabs (n : Nat) (f : CardRun → CardRun) (s : State) : (updCard n f s).tabs = s.tabs := rfl
@[simp] theorem updCard_ev (n : Nat) (f : CardRun → CardRun) (s : State) : (updCard n f s).ev = s.ev := rfl
@[simp] theorem updCard_cairn (n : Nat) (f : CardRun → CardRun) (s : State) : (updCard n f s).cairn = s.cairn := rfl
@[simp] theorem updCard_sealIn (n : Nat) (f : CardRun → CardRun) (s : State) : (updCard n f s).sealIn = s.sealIn := rfl
@[simp] theorem updCard_meter (n : Nat) (f : CardRun → CardRun) (s : State) : (updCard n f s).meter = s.meter := rfl
@[simp] theorem updCard_cal (n : Nat) (f : CardRun → CardRun) (s : State) : (updCard n f s).cal = s.cal := rfl
@[simp] theorem updCard_eg (n : Nat) (f : CardRun → CardRun) (s : State) : (updCard n f s).eg = s.eg := rfl
@[simp] theorem updCard_ports (n : Nat) (f : CardRun → CardRun) (s : State) : (updCard n f s).ports = s.ports := rfl
@[simp] theorem updCard_lintel (n : Nat) (f : CardRun → CardRun) (s : State) : (updCard n f s).lintel = s.lintel := rfl
@[simp] theorem updCard_safety (n : Nat) (f : CardRun → CardRun) (s : State) : (updCard n f s).safety = s.safety := rfl
@[simp] theorem updCard_rtc (n : Nat) (f : CardRun → CardRun) (s : State) : (updCard n f s).rtc = s.rtc := rfl
@[simp] theorem updCard_tar (n : Nat) (f : CardRun → CardRun) (s : State) : (updCard n f s).tar = s.tar := rfl
@[simp] theorem updCard_fences (n : Nat) (f : CardRun → CardRun) (s : State) : (updCard n f s).fences = s.fences := rfl
@[simp] theorem updCard_ls (n : Nat) (f : CardRun → CardRun) (s : State) : (updCard n f s).ls = s.ls := rfl
@[simp] theorem updCard_vault (n : Nat) (f : CardRun → CardRun) (s : State) : (updCard n f s).vault = s.vault := rfl
@[simp] theorem updCard_rind (n : Nat) (f : CardRun → CardRun) (s : State) : (updCard n f s).rind = s.rind := rfl
@[simp] theorem updCard_qr (n : Nat) (f : CardRun → CardRun) (s : State) : (updCard n f s).qr = s.qr := rfl
@[simp] theorem updCard_upd (n : Nat) (f : CardRun → CardRun) (s : State) : (updCard n f s).upd = s.upd := rfl
@[simp] theorem updCard_pl (n : Nat) (f : CardRun → CardRun) (s : State) : (updCard n f s).pl = s.pl := rfl
@[simp] theorem updCard_disp (n : Nat) (f : CardRun → CardRun) (s : State) : (updCard n f s).disp = s.disp := rfl
@[simp] theorem updCard_pw (n : Nat) (f : CardRun → CardRun) (s : State) : (updCard n f s).pw = s.pw := rfl
@[simp] theorem updCard_draws (n : Nat) (f : CardRun → CardRun) (s : State) : (updCard n f s).draws = s.draws := rfl
@[simp] theorem updCard_pending (n : Nat) (f : CardRun → CardRun) (s : State) : (updCard n f s).pending = s.pending := rfl

/-! updZc changes pl. -/
@[simp] theorem updZc_clk (k : Nat) (f : Zc → Zc) (s : State) : (updZc k f s).clk = s.clk := rfl
@[simp] theorem updZc_boot (k : Nat) (f : Zc → Zc) (s : State) : (updZc k f s).boot = s.boot := rfl
@[simp] theorem updZc_otp (k : Nat) (f : Zc → Zc) (s : State) : (updZc k f s).otp = s.otp := rfl
@[simp] theorem updZc_link (k : Nat) (f : Zc → Zc) (s : State) : (updZc k f s).link = s.link := rfl
@[simp] theorem updZc_tabs (k : Nat) (f : Zc → Zc) (s : State) : (updZc k f s).tabs = s.tabs := rfl
@[simp] theorem updZc_ev (k : Nat) (f : Zc → Zc) (s : State) : (updZc k f s).ev = s.ev := rfl
@[simp] theorem updZc_cairn (k : Nat) (f : Zc → Zc) (s : State) : (updZc k f s).cairn = s.cairn := rfl
@[simp] theorem updZc_sealIn (k : Nat) (f : Zc → Zc) (s : State) : (updZc k f s).sealIn = s.sealIn := rfl
@[simp] theorem updZc_meter (k : Nat) (f : Zc → Zc) (s : State) : (updZc k f s).meter = s.meter := rfl
@[simp] theorem updZc_cal (k : Nat) (f : Zc → Zc) (s : State) : (updZc k f s).cal = s.cal := rfl
@[simp] theorem updZc_eg (k : Nat) (f : Zc → Zc) (s : State) : (updZc k f s).eg = s.eg := rfl
@[simp] theorem updZc_ports (k : Nat) (f : Zc → Zc) (s : State) : (updZc k f s).ports = s.ports := rfl
@[simp] theorem updZc_lintel (k : Nat) (f : Zc → Zc) (s : State) : (updZc k f s).lintel = s.lintel := rfl
@[simp] theorem updZc_safety (k : Nat) (f : Zc → Zc) (s : State) : (updZc k f s).safety = s.safety := rfl
@[simp] theorem updZc_rtc (k : Nat) (f : Zc → Zc) (s : State) : (updZc k f s).rtc = s.rtc := rfl
@[simp] theorem updZc_tar (k : Nat) (f : Zc → Zc) (s : State) : (updZc k f s).tar = s.tar := rfl
@[simp] theorem updZc_nf (k : Nat) (f : Zc → Zc) (s : State) : (updZc k f s).nf = s.nf := rfl
@[simp] theorem updZc_fences (k : Nat) (f : Zc → Zc) (s : State) : (updZc k f s).fences = s.fences := rfl
@[simp] theorem updZc_ls (k : Nat) (f : Zc → Zc) (s : State) : (updZc k f s).ls = s.ls := rfl
@[simp] theorem updZc_vault (k : Nat) (f : Zc → Zc) (s : State) : (updZc k f s).vault = s.vault := rfl
@[simp] theorem updZc_rind (k : Nat) (f : Zc → Zc) (s : State) : (updZc k f s).rind = s.rind := rfl
@[simp] theorem updZc_qr (k : Nat) (f : Zc → Zc) (s : State) : (updZc k f s).qr = s.qr := rfl
@[simp] theorem updZc_upd (k : Nat) (f : Zc → Zc) (s : State) : (updZc k f s).upd = s.upd := rfl
@[simp] theorem updZc_disp (k : Nat) (f : Zc → Zc) (s : State) : (updZc k f s).disp = s.disp := rfl
@[simp] theorem updZc_pw (k : Nat) (f : Zc → Zc) (s : State) : (updZc k f s).pw = s.pw := rfl
@[simp] theorem updZc_draws (k : Nat) (f : Zc → Zc) (s : State) : (updZc k f s).draws = s.draws := rfl
@[simp] theorem updZc_pending (k : Nat) (f : Zc → Zc) (s : State) : (updZc k f s).pending = s.pending := rfl

/-! updDisp changes disp. -/
@[simp] theorem updDisp_clk (f : Disp → Disp) (s : State) : (updDisp f s).clk = s.clk := rfl
@[simp] theorem updDisp_boot (f : Disp → Disp) (s : State) : (updDisp f s).boot = s.boot := rfl
@[simp] theorem updDisp_otp (f : Disp → Disp) (s : State) : (updDisp f s).otp = s.otp := rfl
@[simp] theorem updDisp_link (f : Disp → Disp) (s : State) : (updDisp f s).link = s.link := rfl
@[simp] theorem updDisp_tabs (f : Disp → Disp) (s : State) : (updDisp f s).tabs = s.tabs := rfl
@[simp] theorem updDisp_ev (f : Disp → Disp) (s : State) : (updDisp f s).ev = s.ev := rfl
@[simp] theorem updDisp_cairn (f : Disp → Disp) (s : State) : (updDisp f s).cairn = s.cairn := rfl
@[simp] theorem updDisp_sealIn (f : Disp → Disp) (s : State) : (updDisp f s).sealIn = s.sealIn := rfl
@[simp] theorem updDisp_meter (f : Disp → Disp) (s : State) : (updDisp f s).meter = s.meter := rfl
@[simp] theorem updDisp_cal (f : Disp → Disp) (s : State) : (updDisp f s).cal = s.cal := rfl
@[simp] theorem updDisp_eg (f : Disp → Disp) (s : State) : (updDisp f s).eg = s.eg := rfl
@[simp] theorem updDisp_ports (f : Disp → Disp) (s : State) : (updDisp f s).ports = s.ports := rfl
@[simp] theorem updDisp_lintel (f : Disp → Disp) (s : State) : (updDisp f s).lintel = s.lintel := rfl
@[simp] theorem updDisp_safety (f : Disp → Disp) (s : State) : (updDisp f s).safety = s.safety := rfl
@[simp] theorem updDisp_rtc (f : Disp → Disp) (s : State) : (updDisp f s).rtc = s.rtc := rfl
@[simp] theorem updDisp_tar (f : Disp → Disp) (s : State) : (updDisp f s).tar = s.tar := rfl
@[simp] theorem updDisp_nf (f : Disp → Disp) (s : State) : (updDisp f s).nf = s.nf := rfl
@[simp] theorem updDisp_fences (f : Disp → Disp) (s : State) : (updDisp f s).fences = s.fences := rfl
@[simp] theorem updDisp_ls (f : Disp → Disp) (s : State) : (updDisp f s).ls = s.ls := rfl
@[simp] theorem updDisp_vault (f : Disp → Disp) (s : State) : (updDisp f s).vault = s.vault := rfl
@[simp] theorem updDisp_rind (f : Disp → Disp) (s : State) : (updDisp f s).rind = s.rind := rfl
@[simp] theorem updDisp_qr (f : Disp → Disp) (s : State) : (updDisp f s).qr = s.qr := rfl
@[simp] theorem updDisp_upd (f : Disp → Disp) (s : State) : (updDisp f s).upd = s.upd := rfl
@[simp] theorem updDisp_pl (f : Disp → Disp) (s : State) : (updDisp f s).pl = s.pl := rfl
@[simp] theorem updDisp_pw (f : Disp → Disp) (s : State) : (updDisp f s).pw = s.pw := rfl
@[simp] theorem updDisp_draws (f : Disp → Disp) (s : State) : (updDisp f s).draws = s.draws := rfl
@[simp] theorem updDisp_pending (f : Disp → Disp) (s : State) : (updDisp f s).pending = s.pending := rfl

/-! updLs changes ls. -/
@[simp] theorem updLs_clk (c : Nat) (f : LsCh → LsCh) (s : State) : (updLs c f s).clk = s.clk := rfl
@[simp] theorem updLs_boot (c : Nat) (f : LsCh → LsCh) (s : State) : (updLs c f s).boot = s.boot := rfl
@[simp] theorem updLs_otp (c : Nat) (f : LsCh → LsCh) (s : State) : (updLs c f s).otp = s.otp := rfl
@[simp] theorem updLs_link (c : Nat) (f : LsCh → LsCh) (s : State) : (updLs c f s).link = s.link := rfl
@[simp] theorem updLs_tabs (c : Nat) (f : LsCh → LsCh) (s : State) : (updLs c f s).tabs = s.tabs := rfl
@[simp] theorem updLs_ev (c : Nat) (f : LsCh → LsCh) (s : State) : (updLs c f s).ev = s.ev := rfl
@[simp] theorem updLs_cairn (c : Nat) (f : LsCh → LsCh) (s : State) : (updLs c f s).cairn = s.cairn := rfl
@[simp] theorem updLs_sealIn (c : Nat) (f : LsCh → LsCh) (s : State) : (updLs c f s).sealIn = s.sealIn := rfl
@[simp] theorem updLs_meter (c : Nat) (f : LsCh → LsCh) (s : State) : (updLs c f s).meter = s.meter := rfl
@[simp] theorem updLs_cal (c : Nat) (f : LsCh → LsCh) (s : State) : (updLs c f s).cal = s.cal := rfl
@[simp] theorem updLs_eg (c : Nat) (f : LsCh → LsCh) (s : State) : (updLs c f s).eg = s.eg := rfl
@[simp] theorem updLs_ports (c : Nat) (f : LsCh → LsCh) (s : State) : (updLs c f s).ports = s.ports := rfl
@[simp] theorem updLs_lintel (c : Nat) (f : LsCh → LsCh) (s : State) : (updLs c f s).lintel = s.lintel := rfl
@[simp] theorem updLs_safety (c : Nat) (f : LsCh → LsCh) (s : State) : (updLs c f s).safety = s.safety := rfl
@[simp] theorem updLs_rtc (c : Nat) (f : LsCh → LsCh) (s : State) : (updLs c f s).rtc = s.rtc := rfl
@[simp] theorem updLs_tar (c : Nat) (f : LsCh → LsCh) (s : State) : (updLs c f s).tar = s.tar := rfl
@[simp] theorem updLs_nf (c : Nat) (f : LsCh → LsCh) (s : State) : (updLs c f s).nf = s.nf := rfl
@[simp] theorem updLs_fences (c : Nat) (f : LsCh → LsCh) (s : State) : (updLs c f s).fences = s.fences := rfl
@[simp] theorem updLs_vault (c : Nat) (f : LsCh → LsCh) (s : State) : (updLs c f s).vault = s.vault := rfl
@[simp] theorem updLs_rind (c : Nat) (f : LsCh → LsCh) (s : State) : (updLs c f s).rind = s.rind := rfl
@[simp] theorem updLs_qr (c : Nat) (f : LsCh → LsCh) (s : State) : (updLs c f s).qr = s.qr := rfl
@[simp] theorem updLs_upd (c : Nat) (f : LsCh → LsCh) (s : State) : (updLs c f s).upd = s.upd := rfl
@[simp] theorem updLs_pl (c : Nat) (f : LsCh → LsCh) (s : State) : (updLs c f s).pl = s.pl := rfl
@[simp] theorem updLs_disp (c : Nat) (f : LsCh → LsCh) (s : State) : (updLs c f s).disp = s.disp := rfl
@[simp] theorem updLs_pw (c : Nat) (f : LsCh → LsCh) (s : State) : (updLs c f s).pw = s.pw := rfl
@[simp] theorem updLs_draws (c : Nat) (f : LsCh → LsCh) (s : State) : (updLs c f s).draws = s.draws := rfl
@[simp] theorem updLs_pending (c : Nat) (f : LsCh → LsCh) (s : State) : (updLs c f s).pending = s.pending := rfl

/-! updSar changes meter. -/
@[simp] theorem updSar_clk (k : Nat) (f : Sar → Sar) (s : State) : (updSar k f s).clk = s.clk := rfl
@[simp] theorem updSar_boot (k : Nat) (f : Sar → Sar) (s : State) : (updSar k f s).boot = s.boot := rfl
@[simp] theorem updSar_otp (k : Nat) (f : Sar → Sar) (s : State) : (updSar k f s).otp = s.otp := rfl
@[simp] theorem updSar_link (k : Nat) (f : Sar → Sar) (s : State) : (updSar k f s).link = s.link := rfl
@[simp] theorem updSar_tabs (k : Nat) (f : Sar → Sar) (s : State) : (updSar k f s).tabs = s.tabs := rfl
@[simp] theorem updSar_ev (k : Nat) (f : Sar → Sar) (s : State) : (updSar k f s).ev = s.ev := rfl
@[simp] theorem updSar_cairn (k : Nat) (f : Sar → Sar) (s : State) : (updSar k f s).cairn = s.cairn := rfl
@[simp] theorem updSar_sealIn (k : Nat) (f : Sar → Sar) (s : State) : (updSar k f s).sealIn = s.sealIn := rfl
@[simp] theorem updSar_cal (k : Nat) (f : Sar → Sar) (s : State) : (updSar k f s).cal = s.cal := rfl
@[simp] theorem updSar_eg (k : Nat) (f : Sar → Sar) (s : State) : (updSar k f s).eg = s.eg := rfl
@[simp] theorem updSar_ports (k : Nat) (f : Sar → Sar) (s : State) : (updSar k f s).ports = s.ports := rfl
@[simp] theorem updSar_lintel (k : Nat) (f : Sar → Sar) (s : State) : (updSar k f s).lintel = s.lintel := rfl
@[simp] theorem updSar_safety (k : Nat) (f : Sar → Sar) (s : State) : (updSar k f s).safety = s.safety := rfl
@[simp] theorem updSar_rtc (k : Nat) (f : Sar → Sar) (s : State) : (updSar k f s).rtc = s.rtc := rfl
@[simp] theorem updSar_tar (k : Nat) (f : Sar → Sar) (s : State) : (updSar k f s).tar = s.tar := rfl
@[simp] theorem updSar_nf (k : Nat) (f : Sar → Sar) (s : State) : (updSar k f s).nf = s.nf := rfl
@[simp] theorem updSar_fences (k : Nat) (f : Sar → Sar) (s : State) : (updSar k f s).fences = s.fences := rfl
@[simp] theorem updSar_ls (k : Nat) (f : Sar → Sar) (s : State) : (updSar k f s).ls = s.ls := rfl
@[simp] theorem updSar_vault (k : Nat) (f : Sar → Sar) (s : State) : (updSar k f s).vault = s.vault := rfl
@[simp] theorem updSar_rind (k : Nat) (f : Sar → Sar) (s : State) : (updSar k f s).rind = s.rind := rfl
@[simp] theorem updSar_qr (k : Nat) (f : Sar → Sar) (s : State) : (updSar k f s).qr = s.qr := rfl
@[simp] theorem updSar_upd (k : Nat) (f : Sar → Sar) (s : State) : (updSar k f s).upd = s.upd := rfl
@[simp] theorem updSar_pl (k : Nat) (f : Sar → Sar) (s : State) : (updSar k f s).pl = s.pl := rfl
@[simp] theorem updSar_disp (k : Nat) (f : Sar → Sar) (s : State) : (updSar k f s).disp = s.disp := rfl
@[simp] theorem updSar_pw (k : Nat) (f : Sar → Sar) (s : State) : (updSar k f s).pw = s.pw := rfl
@[simp] theorem updSar_draws (k : Nat) (f : Sar → Sar) (s : State) : (updSar k f s).draws = s.draws := rfl
@[simp] theorem updSar_pending (k : Nat) (f : Sar → Sar) (s : State) : (updSar k f s).pending = s.pending := rfl

/-! updLanes changes meter. -/
@[simp] theorem updLanes_clk (f : Lanes → Lanes) (s : State) : (updLanes f s).clk = s.clk := rfl
@[simp] theorem updLanes_boot (f : Lanes → Lanes) (s : State) : (updLanes f s).boot = s.boot := rfl
@[simp] theorem updLanes_otp (f : Lanes → Lanes) (s : State) : (updLanes f s).otp = s.otp := rfl
@[simp] theorem updLanes_link (f : Lanes → Lanes) (s : State) : (updLanes f s).link = s.link := rfl
@[simp] theorem updLanes_tabs (f : Lanes → Lanes) (s : State) : (updLanes f s).tabs = s.tabs := rfl
@[simp] theorem updLanes_ev (f : Lanes → Lanes) (s : State) : (updLanes f s).ev = s.ev := rfl
@[simp] theorem updLanes_cairn (f : Lanes → Lanes) (s : State) : (updLanes f s).cairn = s.cairn := rfl
@[simp] theorem updLanes_sealIn (f : Lanes → Lanes) (s : State) : (updLanes f s).sealIn = s.sealIn := rfl
@[simp] theorem updLanes_cal (f : Lanes → Lanes) (s : State) : (updLanes f s).cal = s.cal := rfl
@[simp] theorem updLanes_eg (f : Lanes → Lanes) (s : State) : (updLanes f s).eg = s.eg := rfl
@[simp] theorem updLanes_ports (f : Lanes → Lanes) (s : State) : (updLanes f s).ports = s.ports := rfl
@[simp] theorem updLanes_lintel (f : Lanes → Lanes) (s : State) : (updLanes f s).lintel = s.lintel := rfl
@[simp] theorem updLanes_safety (f : Lanes → Lanes) (s : State) : (updLanes f s).safety = s.safety := rfl
@[simp] theorem updLanes_rtc (f : Lanes → Lanes) (s : State) : (updLanes f s).rtc = s.rtc := rfl
@[simp] theorem updLanes_tar (f : Lanes → Lanes) (s : State) : (updLanes f s).tar = s.tar := rfl
@[simp] theorem updLanes_nf (f : Lanes → Lanes) (s : State) : (updLanes f s).nf = s.nf := rfl
@[simp] theorem updLanes_fences (f : Lanes → Lanes) (s : State) : (updLanes f s).fences = s.fences := rfl
@[simp] theorem updLanes_ls (f : Lanes → Lanes) (s : State) : (updLanes f s).ls = s.ls := rfl
@[simp] theorem updLanes_vault (f : Lanes → Lanes) (s : State) : (updLanes f s).vault = s.vault := rfl
@[simp] theorem updLanes_rind (f : Lanes → Lanes) (s : State) : (updLanes f s).rind = s.rind := rfl
@[simp] theorem updLanes_qr (f : Lanes → Lanes) (s : State) : (updLanes f s).qr = s.qr := rfl
@[simp] theorem updLanes_upd (f : Lanes → Lanes) (s : State) : (updLanes f s).upd = s.upd := rfl
@[simp] theorem updLanes_pl (f : Lanes → Lanes) (s : State) : (updLanes f s).pl = s.pl := rfl
@[simp] theorem updLanes_disp (f : Lanes → Lanes) (s : State) : (updLanes f s).disp = s.disp := rfl
@[simp] theorem updLanes_pw (f : Lanes → Lanes) (s : State) : (updLanes f s).pw = s.pw := rfl
@[simp] theorem updLanes_draws (f : Lanes → Lanes) (s : State) : (updLanes f s).draws = s.draws := rfl
@[simp] theorem updLanes_pending (f : Lanes → Lanes) (s : State) : (updLanes f s).pending = s.pending := rfl

/-! updPulse changes meter. -/
@[simp] theorem updPulse_clk (o : Nat) (f : Pulse → Pulse) (s : State) : (updPulse o f s).clk = s.clk := rfl
@[simp] theorem updPulse_boot (o : Nat) (f : Pulse → Pulse) (s : State) : (updPulse o f s).boot = s.boot := rfl
@[simp] theorem updPulse_otp (o : Nat) (f : Pulse → Pulse) (s : State) : (updPulse o f s).otp = s.otp := rfl
@[simp] theorem updPulse_link (o : Nat) (f : Pulse → Pulse) (s : State) : (updPulse o f s).link = s.link := rfl
@[simp] theorem updPulse_tabs (o : Nat) (f : Pulse → Pulse) (s : State) : (updPulse o f s).tabs = s.tabs := rfl
@[simp] theorem updPulse_ev (o : Nat) (f : Pulse → Pulse) (s : State) : (updPulse o f s).ev = s.ev := rfl
@[simp] theorem updPulse_cairn (o : Nat) (f : Pulse → Pulse) (s : State) : (updPulse o f s).cairn = s.cairn := rfl
@[simp] theorem updPulse_sealIn (o : Nat) (f : Pulse → Pulse) (s : State) : (updPulse o f s).sealIn = s.sealIn := rfl
@[simp] theorem updPulse_cal (o : Nat) (f : Pulse → Pulse) (s : State) : (updPulse o f s).cal = s.cal := rfl
@[simp] theorem updPulse_eg (o : Nat) (f : Pulse → Pulse) (s : State) : (updPulse o f s).eg = s.eg := rfl
@[simp] theorem updPulse_ports (o : Nat) (f : Pulse → Pulse) (s : State) : (updPulse o f s).ports = s.ports := rfl
@[simp] theorem updPulse_lintel (o : Nat) (f : Pulse → Pulse) (s : State) : (updPulse o f s).lintel = s.lintel := rfl
@[simp] theorem updPulse_safety (o : Nat) (f : Pulse → Pulse) (s : State) : (updPulse o f s).safety = s.safety := rfl
@[simp] theorem updPulse_rtc (o : Nat) (f : Pulse → Pulse) (s : State) : (updPulse o f s).rtc = s.rtc := rfl
@[simp] theorem updPulse_tar (o : Nat) (f : Pulse → Pulse) (s : State) : (updPulse o f s).tar = s.tar := rfl
@[simp] theorem updPulse_nf (o : Nat) (f : Pulse → Pulse) (s : State) : (updPulse o f s).nf = s.nf := rfl
@[simp] theorem updPulse_fences (o : Nat) (f : Pulse → Pulse) (s : State) : (updPulse o f s).fences = s.fences := rfl
@[simp] theorem updPulse_ls (o : Nat) (f : Pulse → Pulse) (s : State) : (updPulse o f s).ls = s.ls := rfl
@[simp] theorem updPulse_vault (o : Nat) (f : Pulse → Pulse) (s : State) : (updPulse o f s).vault = s.vault := rfl
@[simp] theorem updPulse_rind (o : Nat) (f : Pulse → Pulse) (s : State) : (updPulse o f s).rind = s.rind := rfl
@[simp] theorem updPulse_qr (o : Nat) (f : Pulse → Pulse) (s : State) : (updPulse o f s).qr = s.qr := rfl
@[simp] theorem updPulse_upd (o : Nat) (f : Pulse → Pulse) (s : State) : (updPulse o f s).upd = s.upd := rfl
@[simp] theorem updPulse_pl (o : Nat) (f : Pulse → Pulse) (s : State) : (updPulse o f s).pl = s.pl := rfl
@[simp] theorem updPulse_disp (o : Nat) (f : Pulse → Pulse) (s : State) : (updPulse o f s).disp = s.disp := rfl
@[simp] theorem updPulse_pw (o : Nat) (f : Pulse → Pulse) (s : State) : (updPulse o f s).pw = s.pw := rfl
@[simp] theorem updPulse_draws (o : Nat) (f : Pulse → Pulse) (s : State) : (updPulse o f s).draws = s.draws := rfl
@[simp] theorem updPulse_pending (o : Nat) (f : Pulse → Pulse) (s : State) : (updPulse o f s).pending = s.pending := rfl

/-! updLine changes lintel. -/
@[simp] theorem updLine_clk (k : Nat) (f : LineSt → LineSt) (s : State) : (updLine k f s).clk = s.clk := rfl
@[simp] theorem updLine_boot (k : Nat) (f : LineSt → LineSt) (s : State) : (updLine k f s).boot = s.boot := rfl
@[simp] theorem updLine_otp (k : Nat) (f : LineSt → LineSt) (s : State) : (updLine k f s).otp = s.otp := rfl
@[simp] theorem updLine_link (k : Nat) (f : LineSt → LineSt) (s : State) : (updLine k f s).link = s.link := rfl
@[simp] theorem updLine_tabs (k : Nat) (f : LineSt → LineSt) (s : State) : (updLine k f s).tabs = s.tabs := rfl
@[simp] theorem updLine_ev (k : Nat) (f : LineSt → LineSt) (s : State) : (updLine k f s).ev = s.ev := rfl
@[simp] theorem updLine_cairn (k : Nat) (f : LineSt → LineSt) (s : State) : (updLine k f s).cairn = s.cairn := rfl
@[simp] theorem updLine_sealIn (k : Nat) (f : LineSt → LineSt) (s : State) : (updLine k f s).sealIn = s.sealIn := rfl
@[simp] theorem updLine_meter (k : Nat) (f : LineSt → LineSt) (s : State) : (updLine k f s).meter = s.meter := rfl
@[simp] theorem updLine_cal (k : Nat) (f : LineSt → LineSt) (s : State) : (updLine k f s).cal = s.cal := rfl
@[simp] theorem updLine_eg (k : Nat) (f : LineSt → LineSt) (s : State) : (updLine k f s).eg = s.eg := rfl
@[simp] theorem updLine_ports (k : Nat) (f : LineSt → LineSt) (s : State) : (updLine k f s).ports = s.ports := rfl
@[simp] theorem updLine_safety (k : Nat) (f : LineSt → LineSt) (s : State) : (updLine k f s).safety = s.safety := rfl
@[simp] theorem updLine_rtc (k : Nat) (f : LineSt → LineSt) (s : State) : (updLine k f s).rtc = s.rtc := rfl
@[simp] theorem updLine_tar (k : Nat) (f : LineSt → LineSt) (s : State) : (updLine k f s).tar = s.tar := rfl
@[simp] theorem updLine_nf (k : Nat) (f : LineSt → LineSt) (s : State) : (updLine k f s).nf = s.nf := rfl
@[simp] theorem updLine_fences (k : Nat) (f : LineSt → LineSt) (s : State) : (updLine k f s).fences = s.fences := rfl
@[simp] theorem updLine_ls (k : Nat) (f : LineSt → LineSt) (s : State) : (updLine k f s).ls = s.ls := rfl
@[simp] theorem updLine_vault (k : Nat) (f : LineSt → LineSt) (s : State) : (updLine k f s).vault = s.vault := rfl
@[simp] theorem updLine_rind (k : Nat) (f : LineSt → LineSt) (s : State) : (updLine k f s).rind = s.rind := rfl
@[simp] theorem updLine_qr (k : Nat) (f : LineSt → LineSt) (s : State) : (updLine k f s).qr = s.qr := rfl
@[simp] theorem updLine_upd (k : Nat) (f : LineSt → LineSt) (s : State) : (updLine k f s).upd = s.upd := rfl
@[simp] theorem updLine_pl (k : Nat) (f : LineSt → LineSt) (s : State) : (updLine k f s).pl = s.pl := rfl
@[simp] theorem updLine_disp (k : Nat) (f : LineSt → LineSt) (s : State) : (updLine k f s).disp = s.disp := rfl
@[simp] theorem updLine_pw (k : Nat) (f : LineSt → LineSt) (s : State) : (updLine k f s).pw = s.pw := rfl
@[simp] theorem updLine_draws (k : Nat) (f : LineSt → LineSt) (s : State) : (updLine k f s).draws = s.draws := rfl
@[simp] theorem updLine_pending (k : Nat) (f : LineSt → LineSt) (s : State) : (updLine k f s).pending = s.pending := rfl

/-! updSess changes ports. -/
@[simp] theorem updSess_clk (p : Nat) (f : Session → Session) (s : State) : (updSess p f s).clk = s.clk := rfl
@[simp] theorem updSess_boot (p : Nat) (f : Session → Session) (s : State) : (updSess p f s).boot = s.boot := rfl
@[simp] theorem updSess_otp (p : Nat) (f : Session → Session) (s : State) : (updSess p f s).otp = s.otp := rfl
@[simp] theorem updSess_link (p : Nat) (f : Session → Session) (s : State) : (updSess p f s).link = s.link := rfl
@[simp] theorem updSess_tabs (p : Nat) (f : Session → Session) (s : State) : (updSess p f s).tabs = s.tabs := rfl
@[simp] theorem updSess_ev (p : Nat) (f : Session → Session) (s : State) : (updSess p f s).ev = s.ev := rfl
@[simp] theorem updSess_cairn (p : Nat) (f : Session → Session) (s : State) : (updSess p f s).cairn = s.cairn := rfl
@[simp] theorem updSess_sealIn (p : Nat) (f : Session → Session) (s : State) : (updSess p f s).sealIn = s.sealIn := rfl
@[simp] theorem updSess_meter (p : Nat) (f : Session → Session) (s : State) : (updSess p f s).meter = s.meter := rfl
@[simp] theorem updSess_cal (p : Nat) (f : Session → Session) (s : State) : (updSess p f s).cal = s.cal := rfl
@[simp] theorem updSess_eg (p : Nat) (f : Session → Session) (s : State) : (updSess p f s).eg = s.eg := rfl
@[simp] theorem updSess_lintel (p : Nat) (f : Session → Session) (s : State) : (updSess p f s).lintel = s.lintel := rfl
@[simp] theorem updSess_safety (p : Nat) (f : Session → Session) (s : State) : (updSess p f s).safety = s.safety := rfl
@[simp] theorem updSess_rtc (p : Nat) (f : Session → Session) (s : State) : (updSess p f s).rtc = s.rtc := rfl
@[simp] theorem updSess_tar (p : Nat) (f : Session → Session) (s : State) : (updSess p f s).tar = s.tar := rfl
@[simp] theorem updSess_nf (p : Nat) (f : Session → Session) (s : State) : (updSess p f s).nf = s.nf := rfl
@[simp] theorem updSess_fences (p : Nat) (f : Session → Session) (s : State) : (updSess p f s).fences = s.fences := rfl
@[simp] theorem updSess_ls (p : Nat) (f : Session → Session) (s : State) : (updSess p f s).ls = s.ls := rfl
@[simp] theorem updSess_vault (p : Nat) (f : Session → Session) (s : State) : (updSess p f s).vault = s.vault := rfl
@[simp] theorem updSess_rind (p : Nat) (f : Session → Session) (s : State) : (updSess p f s).rind = s.rind := rfl
@[simp] theorem updSess_qr (p : Nat) (f : Session → Session) (s : State) : (updSess p f s).qr = s.qr := rfl
@[simp] theorem updSess_upd (p : Nat) (f : Session → Session) (s : State) : (updSess p f s).upd = s.upd := rfl
@[simp] theorem updSess_pl (p : Nat) (f : Session → Session) (s : State) : (updSess p f s).pl = s.pl := rfl
@[simp] theorem updSess_disp (p : Nat) (f : Session → Session) (s : State) : (updSess p f s).disp = s.disp := rfl
@[simp] theorem updSess_pw (p : Nat) (f : Session → Session) (s : State) : (updSess p f s).pw = s.pw := rfl
@[simp] theorem updSess_draws (p : Nat) (f : Session → Session) (s : State) : (updSess p f s).draws = s.draws := rfl
@[simp] theorem updSess_pending (p : Nat) (f : Session → Session) (s : State) : (updSess p f s).pending = s.pending := rfl

/-! updChip changes qr. -/
@[simp] theorem updChip_clk (i : Nat) (f : Chip → Chip) (s : State) : (updChip i f s).clk = s.clk := rfl
@[simp] theorem updChip_boot (i : Nat) (f : Chip → Chip) (s : State) : (updChip i f s).boot = s.boot := rfl
@[simp] theorem updChip_otp (i : Nat) (f : Chip → Chip) (s : State) : (updChip i f s).otp = s.otp := rfl
@[simp] theorem updChip_link (i : Nat) (f : Chip → Chip) (s : State) : (updChip i f s).link = s.link := rfl
@[simp] theorem updChip_tabs (i : Nat) (f : Chip → Chip) (s : State) : (updChip i f s).tabs = s.tabs := rfl
@[simp] theorem updChip_ev (i : Nat) (f : Chip → Chip) (s : State) : (updChip i f s).ev = s.ev := rfl
@[simp] theorem updChip_cairn (i : Nat) (f : Chip → Chip) (s : State) : (updChip i f s).cairn = s.cairn := rfl
@[simp] theorem updChip_sealIn (i : Nat) (f : Chip → Chip) (s : State) : (updChip i f s).sealIn = s.sealIn := rfl
@[simp] theorem updChip_meter (i : Nat) (f : Chip → Chip) (s : State) : (updChip i f s).meter = s.meter := rfl
@[simp] theorem updChip_cal (i : Nat) (f : Chip → Chip) (s : State) : (updChip i f s).cal = s.cal := rfl
@[simp] theorem updChip_eg (i : Nat) (f : Chip → Chip) (s : State) : (updChip i f s).eg = s.eg := rfl
@[simp] theorem updChip_ports (i : Nat) (f : Chip → Chip) (s : State) : (updChip i f s).ports = s.ports := rfl
@[simp] theorem updChip_lintel (i : Nat) (f : Chip → Chip) (s : State) : (updChip i f s).lintel = s.lintel := rfl
@[simp] theorem updChip_safety (i : Nat) (f : Chip → Chip) (s : State) : (updChip i f s).safety = s.safety := rfl
@[simp] theorem updChip_rtc (i : Nat) (f : Chip → Chip) (s : State) : (updChip i f s).rtc = s.rtc := rfl
@[simp] theorem updChip_tar (i : Nat) (f : Chip → Chip) (s : State) : (updChip i f s).tar = s.tar := rfl
@[simp] theorem updChip_nf (i : Nat) (f : Chip → Chip) (s : State) : (updChip i f s).nf = s.nf := rfl
@[simp] theorem updChip_fences (i : Nat) (f : Chip → Chip) (s : State) : (updChip i f s).fences = s.fences := rfl
@[simp] theorem updChip_ls (i : Nat) (f : Chip → Chip) (s : State) : (updChip i f s).ls = s.ls := rfl
@[simp] theorem updChip_vault (i : Nat) (f : Chip → Chip) (s : State) : (updChip i f s).vault = s.vault := rfl
@[simp] theorem updChip_rind (i : Nat) (f : Chip → Chip) (s : State) : (updChip i f s).rind = s.rind := rfl
@[simp] theorem updChip_upd (i : Nat) (f : Chip → Chip) (s : State) : (updChip i f s).upd = s.upd := rfl
@[simp] theorem updChip_pl (i : Nat) (f : Chip → Chip) (s : State) : (updChip i f s).pl = s.pl := rfl
@[simp] theorem updChip_disp (i : Nat) (f : Chip → Chip) (s : State) : (updChip i f s).disp = s.disp := rfl
@[simp] theorem updChip_pw (i : Nat) (f : Chip → Chip) (s : State) : (updChip i f s).pw = s.pw := rfl
@[simp] theorem updChip_draws (i : Nat) (f : Chip → Chip) (s : State) : (updChip i f s).draws = s.draws := rfl
@[simp] theorem updChip_pending (i : Nat) (f : Chip → Chip) (s : State) : (updChip i f s).pending = s.pending := rfl

/-! setUid changes qr. -/
@[simp] theorem setUid_clk (i v : Nat) (s : State) : (setUid i v s).clk = s.clk := rfl
@[simp] theorem setUid_boot (i v : Nat) (s : State) : (setUid i v s).boot = s.boot := rfl
@[simp] theorem setUid_otp (i v : Nat) (s : State) : (setUid i v s).otp = s.otp := rfl
@[simp] theorem setUid_link (i v : Nat) (s : State) : (setUid i v s).link = s.link := rfl
@[simp] theorem setUid_tabs (i v : Nat) (s : State) : (setUid i v s).tabs = s.tabs := rfl
@[simp] theorem setUid_ev (i v : Nat) (s : State) : (setUid i v s).ev = s.ev := rfl
@[simp] theorem setUid_cairn (i v : Nat) (s : State) : (setUid i v s).cairn = s.cairn := rfl
@[simp] theorem setUid_sealIn (i v : Nat) (s : State) : (setUid i v s).sealIn = s.sealIn := rfl
@[simp] theorem setUid_meter (i v : Nat) (s : State) : (setUid i v s).meter = s.meter := rfl
@[simp] theorem setUid_cal (i v : Nat) (s : State) : (setUid i v s).cal = s.cal := rfl
@[simp] theorem setUid_eg (i v : Nat) (s : State) : (setUid i v s).eg = s.eg := rfl
@[simp] theorem setUid_ports (i v : Nat) (s : State) : (setUid i v s).ports = s.ports := rfl
@[simp] theorem setUid_lintel (i v : Nat) (s : State) : (setUid i v s).lintel = s.lintel := rfl
@[simp] theorem setUid_safety (i v : Nat) (s : State) : (setUid i v s).safety = s.safety := rfl
@[simp] theorem setUid_rtc (i v : Nat) (s : State) : (setUid i v s).rtc = s.rtc := rfl
@[simp] theorem setUid_tar (i v : Nat) (s : State) : (setUid i v s).tar = s.tar := rfl
@[simp] theorem setUid_nf (i v : Nat) (s : State) : (setUid i v s).nf = s.nf := rfl
@[simp] theorem setUid_fences (i v : Nat) (s : State) : (setUid i v s).fences = s.fences := rfl
@[simp] theorem setUid_ls (i v : Nat) (s : State) : (setUid i v s).ls = s.ls := rfl
@[simp] theorem setUid_vault (i v : Nat) (s : State) : (setUid i v s).vault = s.vault := rfl
@[simp] theorem setUid_rind (i v : Nat) (s : State) : (setUid i v s).rind = s.rind := rfl
@[simp] theorem setUid_upd (i v : Nat) (s : State) : (setUid i v s).upd = s.upd := rfl
@[simp] theorem setUid_pl (i v : Nat) (s : State) : (setUid i v s).pl = s.pl := rfl
@[simp] theorem setUid_disp (i v : Nat) (s : State) : (setUid i v s).disp = s.disp := rfl
@[simp] theorem setUid_pw (i v : Nat) (s : State) : (setUid i v s).pw = s.pw := rfl
@[simp] theorem setUid_draws (i v : Nat) (s : State) : (setUid i v s).draws = s.draws := rfl
@[simp] theorem setUid_pending (i v : Nat) (s : State) : (setUid i v s).pending = s.pending := rfl

/-! setCell changes vault. -/
@[simp] theorem setCell_clk (k : Nat) (f : VCell → VCell) (s : State) : (setCell k f s).clk = s.clk := rfl
@[simp] theorem setCell_boot (k : Nat) (f : VCell → VCell) (s : State) : (setCell k f s).boot = s.boot := rfl
@[simp] theorem setCell_otp (k : Nat) (f : VCell → VCell) (s : State) : (setCell k f s).otp = s.otp := rfl
@[simp] theorem setCell_link (k : Nat) (f : VCell → VCell) (s : State) : (setCell k f s).link = s.link := rfl
@[simp] theorem setCell_tabs (k : Nat) (f : VCell → VCell) (s : State) : (setCell k f s).tabs = s.tabs := rfl
@[simp] theorem setCell_ev (k : Nat) (f : VCell → VCell) (s : State) : (setCell k f s).ev = s.ev := rfl
@[simp] theorem setCell_cairn (k : Nat) (f : VCell → VCell) (s : State) : (setCell k f s).cairn = s.cairn := rfl
@[simp] theorem setCell_sealIn (k : Nat) (f : VCell → VCell) (s : State) : (setCell k f s).sealIn = s.sealIn := rfl
@[simp] theorem setCell_meter (k : Nat) (f : VCell → VCell) (s : State) : (setCell k f s).meter = s.meter := rfl
@[simp] theorem setCell_cal (k : Nat) (f : VCell → VCell) (s : State) : (setCell k f s).cal = s.cal := rfl
@[simp] theorem setCell_eg (k : Nat) (f : VCell → VCell) (s : State) : (setCell k f s).eg = s.eg := rfl
@[simp] theorem setCell_ports (k : Nat) (f : VCell → VCell) (s : State) : (setCell k f s).ports = s.ports := rfl
@[simp] theorem setCell_lintel (k : Nat) (f : VCell → VCell) (s : State) : (setCell k f s).lintel = s.lintel := rfl
@[simp] theorem setCell_safety (k : Nat) (f : VCell → VCell) (s : State) : (setCell k f s).safety = s.safety := rfl
@[simp] theorem setCell_rtc (k : Nat) (f : VCell → VCell) (s : State) : (setCell k f s).rtc = s.rtc := rfl
@[simp] theorem setCell_tar (k : Nat) (f : VCell → VCell) (s : State) : (setCell k f s).tar = s.tar := rfl
@[simp] theorem setCell_nf (k : Nat) (f : VCell → VCell) (s : State) : (setCell k f s).nf = s.nf := rfl
@[simp] theorem setCell_fences (k : Nat) (f : VCell → VCell) (s : State) : (setCell k f s).fences = s.fences := rfl
@[simp] theorem setCell_ls (k : Nat) (f : VCell → VCell) (s : State) : (setCell k f s).ls = s.ls := rfl
@[simp] theorem setCell_rind (k : Nat) (f : VCell → VCell) (s : State) : (setCell k f s).rind = s.rind := rfl
@[simp] theorem setCell_qr (k : Nat) (f : VCell → VCell) (s : State) : (setCell k f s).qr = s.qr := rfl
@[simp] theorem setCell_upd (k : Nat) (f : VCell → VCell) (s : State) : (setCell k f s).upd = s.upd := rfl
@[simp] theorem setCell_pl (k : Nat) (f : VCell → VCell) (s : State) : (setCell k f s).pl = s.pl := rfl
@[simp] theorem setCell_disp (k : Nat) (f : VCell → VCell) (s : State) : (setCell k f s).disp = s.disp := rfl
@[simp] theorem setCell_pw (k : Nat) (f : VCell → VCell) (s : State) : (setCell k f s).pw = s.pw := rfl
@[simp] theorem setCell_draws (k : Nat) (f : VCell → VCell) (s : State) : (setCell k f s).draws = s.draws := rfl
@[simp] theorem setCell_pending (k : Nat) (f : VCell → VCell) (s : State) : (setCell k f s).pending = s.pending := rfl

/-! Draws change their counters. -/
@[simp] theorem draw_clk (s : State) : (draw s).2.clk = s.clk := rfl
@[simp] theorem draw_boot (s : State) : (draw s).2.boot = s.boot := rfl
@[simp] theorem draw_otp (s : State) : (draw s).2.otp = s.otp := rfl
@[simp] theorem draw_link (s : State) : (draw s).2.link = s.link := rfl
@[simp] theorem draw_tabs (s : State) : (draw s).2.tabs = s.tabs := rfl
@[simp] theorem draw_ev (s : State) : (draw s).2.ev = s.ev := rfl
@[simp] theorem draw_cairn (s : State) : (draw s).2.cairn = s.cairn := rfl
@[simp] theorem draw_sealIn (s : State) : (draw s).2.sealIn = s.sealIn := rfl
@[simp] theorem draw_meter (s : State) : (draw s).2.meter = s.meter := rfl
@[simp] theorem draw_cal (s : State) : (draw s).2.cal = s.cal := rfl
@[simp] theorem draw_eg (s : State) : (draw s).2.eg = s.eg := rfl
@[simp] theorem draw_ports (s : State) : (draw s).2.ports = s.ports := rfl
@[simp] theorem draw_lintel (s : State) : (draw s).2.lintel = s.lintel := rfl
@[simp] theorem draw_safety (s : State) : (draw s).2.safety = s.safety := rfl
@[simp] theorem draw_rtc (s : State) : (draw s).2.rtc = s.rtc := rfl
@[simp] theorem draw_tar (s : State) : (draw s).2.tar = s.tar := rfl
@[simp] theorem draw_nf (s : State) : (draw s).2.nf = s.nf := rfl
@[simp] theorem draw_fences (s : State) : (draw s).2.fences = s.fences := rfl
@[simp] theorem draw_ls (s : State) : (draw s).2.ls = s.ls := rfl
@[simp] theorem draw_vault (s : State) : (draw s).2.vault = s.vault := rfl
@[simp] theorem draw_rind (s : State) : (draw s).2.rind = s.rind := rfl
@[simp] theorem draw_qr (s : State) : (draw s).2.qr = s.qr := rfl
@[simp] theorem draw_upd (s : State) : (draw s).2.upd = s.upd := rfl
@[simp] theorem draw_pl (s : State) : (draw s).2.pl = s.pl := rfl
@[simp] theorem draw_disp (s : State) : (draw s).2.disp = s.disp := rfl
@[simp] theorem draw_pw (s : State) : (draw s).2.pw = s.pw := rfl
@[simp] theorem draw_pending (s : State) : (draw s).2.pending = s.pending := rfl
@[simp] theorem randomBytes_clk (n : Nat) (s : State) : (randomBytes n s).2.clk = s.clk := rfl
@[simp] theorem randomBytes_boot (n : Nat) (s : State) : (randomBytes n s).2.boot = s.boot := rfl
@[simp] theorem randomBytes_otp (n : Nat) (s : State) : (randomBytes n s).2.otp = s.otp := rfl
@[simp] theorem randomBytes_link (n : Nat) (s : State) : (randomBytes n s).2.link = s.link := rfl
@[simp] theorem randomBytes_tabs (n : Nat) (s : State) : (randomBytes n s).2.tabs = s.tabs := rfl
@[simp] theorem randomBytes_ev (n : Nat) (s : State) : (randomBytes n s).2.ev = s.ev := rfl
@[simp] theorem randomBytes_cairn (n : Nat) (s : State) : (randomBytes n s).2.cairn = s.cairn := rfl
@[simp] theorem randomBytes_sealIn (n : Nat) (s : State) : (randomBytes n s).2.sealIn = s.sealIn := rfl
@[simp] theorem randomBytes_meter (n : Nat) (s : State) : (randomBytes n s).2.meter = s.meter := rfl
@[simp] theorem randomBytes_cal (n : Nat) (s : State) : (randomBytes n s).2.cal = s.cal := rfl
@[simp] theorem randomBytes_eg (n : Nat) (s : State) : (randomBytes n s).2.eg = s.eg := rfl
@[simp] theorem randomBytes_ports (n : Nat) (s : State) : (randomBytes n s).2.ports = s.ports := rfl
@[simp] theorem randomBytes_lintel (n : Nat) (s : State) : (randomBytes n s).2.lintel = s.lintel := rfl
@[simp] theorem randomBytes_safety (n : Nat) (s : State) : (randomBytes n s).2.safety = s.safety := rfl
@[simp] theorem randomBytes_rtc (n : Nat) (s : State) : (randomBytes n s).2.rtc = s.rtc := rfl
@[simp] theorem randomBytes_tar (n : Nat) (s : State) : (randomBytes n s).2.tar = s.tar := rfl
@[simp] theorem randomBytes_nf (n : Nat) (s : State) : (randomBytes n s).2.nf = s.nf := rfl
@[simp] theorem randomBytes_fences (n : Nat) (s : State) : (randomBytes n s).2.fences = s.fences := rfl
@[simp] theorem randomBytes_ls (n : Nat) (s : State) : (randomBytes n s).2.ls = s.ls := rfl
@[simp] theorem randomBytes_rind (n : Nat) (s : State) : (randomBytes n s).2.rind = s.rind := rfl
@[simp] theorem randomBytes_qr (n : Nat) (s : State) : (randomBytes n s).2.qr = s.qr := rfl
@[simp] theorem randomBytes_upd (n : Nat) (s : State) : (randomBytes n s).2.upd = s.upd := rfl
@[simp] theorem randomBytes_pl (n : Nat) (s : State) : (randomBytes n s).2.pl = s.pl := rfl
@[simp] theorem randomBytes_disp (n : Nat) (s : State) : (randomBytes n s).2.disp = s.disp := rfl
@[simp] theorem randomBytes_pw (n : Nat) (s : State) : (randomBytes n s).2.pw = s.pw := rfl
@[simp] theorem randomBytes_draws (n : Nat) (s : State) : (randomBytes n s).2.draws = s.draws := rfl
@[simp] theorem randomBytes_pending (n : Nat) (s : State) : (randomBytes n s).2.pending = s.pending := rfl

end Sys2Proof.Machine
end

