-- ==== Sys2Proof/Laws/Ops.lean ====
section
/-!
SUPPORT. What the shared operations do: list access, bits, readiness, fences, the service of a request.
-/

namespace Sys2Proof.Machine

/-! Lists. -/

theorem nth_modify_self {α : Type} (l : List α) (i : Nat) (f : α → α) (d : α) (h : i < l.length) :
    nth (l.modify i f) i d = f (nth l i d) := by
  simp [nth, List.getD_eq_getElem?_getD, h]

theorem nth_modify_ne {α : Type} (l : List α) (i j : Nat) (f : α → α) (d : α) (h : j ≠ i) :
    nth (l.modify i f) j d = nth l j d := by
  simp [nth, List.getD_eq_getElem?_getD, Ne.symm h]

theorem nth_set_self {α : Type} (l : List α) (i : Nat) (v d : α) (h : i < l.length) : nth (l.set i v) i d = v := by
  simp [nth, List.getD_eq_getElem?_getD, h]

theorem nth_set_ne {α : Type} (l : List α) (i j : Nat) (v d : α) (h : j ≠ i) : nth (l.set i v) j d = nth l j d := by
  simp [nth, List.getD_eq_getElem?_getD, Ne.symm h]

theorem getPort_updPort_self (s : State) (p : Nat) (f : Port → Port) (h : p < s.ports.length) :
    getPort (updPort p f s) p = f (getPort s p) := nth_modify_self _ _ _ _ h

theorem getPort_updPort_ne (s : State) (p q : Nat) (f : Port → Port) (h : q ≠ p) :
    getPort (updPort p f s) q = getPort s q := nth_modify_ne _ _ _ _ _ h

theorem updPort_onlyPort (s : State) (p : Nat) (f : Port → Port) : OnlyPort p s (updPort p f s) :=
  fun q hq => getPort_updPort_ne s p q f hq

theorem getNf_updNf_self (s : State) (n : Nat) (f : Nf → Nf) (h : n < s.nf.fe.length) :
    getNf (updNf n f s) n = f (getNf s n) := nth_modify_self _ _ _ _ h

theorem getNf_updNf_ne (s : State) (n m : Nat) (f : Nf → Nf) (h : m ≠ n) : getNf (updNf n f s) m = getNf s m :=
  nth_modify_ne _ _ _ _ _ h

theorem getZc_updZc_self (s : State) (k : Nat) (f : Zc → Zc) (h : k < s.pl.zc.length) :
    getZc (updZc k f s) k = f (getZc s k) := nth_modify_self _ _ _ _ h

theorem getZc_updZc_ne (s : State) (k j : Nat) (f : Zc → Zc) (h : j ≠ k) : getZc (updZc k f s) j = getZc s j :=
  nth_modify_ne _ _ _ _ _ h

theorem getLs_updLs_self (s : State) (c : Nat) (f : LsCh → LsCh) (h : c < s.ls.chans.length) :
    getLs (updLs c f s) c = f (getLs s c) := nth_modify_self _ _ _ _ h

theorem getLs_updLs_ne (s : State) (c k : Nat) (f : LsCh → LsCh) (h : k ≠ c) : getLs (updLs c f s) k = getLs s k :=
  nth_modify_ne _ _ _ _ _ h

theorem chan_setChan_self (s : State) (c : Nat) (st : ChSt) (h : c < s.link.chans.length) :
    chan (setChan c st s) c = { chan s c with st := st } := nth_modify_self _ _ _ _ h

theorem chan_setChan_ne (s : State) (c k : Nat) (st : ChSt) (h : k ≠ c) : chan (setChan c st s) k = chan s k :=
  nth_modify_ne _ _ _ _ _ h

/-! Bits. -/

/-- A bit vector with one bit written reads as written there and as before elsewhere. -/
theorem getLsbD_bvSet {w : Nat} (v : BitVec w) (i k : Nat) (b : Bool) (hi : i < w) :
    (bvSet v i b).getLsbD k = if k = i then b else v.getLsbD k := by
  have one : ∀ m : Nat, (1#w).getLsbD m = decide (m = 0) := by
    intro m
    simp [BitVec.getLsbD_one]
    omega
  unfold bvSet
  by_cases hk : k < w
  · by_cases he : k = i
    · subst he
      cases b <;> simp [hk]
    · have hz : k < i ∨ ¬ (k - i = 0) := by omega
      cases b <;> rcases hz with hz | hz <;> simp [hk, he, hz] <;> omega
  · have : v.getLsbD k = false := BitVec.getLsbD_of_ge v k (by omega)
    have hne : k ≠ i := by omega
    cases b <;> simp [hk, this, hne]

/-! Readiness and fences. -/

theorem rdy_setReady (s : State) (b k : Nat) (v : Bool) (hb : b < 64) :
    rdy (setReady b v s) k = if k = b then v else rdy s k := by
  unfold setReady
  split
  · next h =>
    have := (beq_iff_eq.mp h)
    split
    · next e => subst e; exact this
    · rfl
  · exact getLsbD_bvSet _ _ _ _ hb

theorem setReady_irq (s : State) (b i : Nat) (v : Bool) (hi : i ≠ 8) :
    (setReady b v s).link.irq.getLsbD i = s.link.irq.getLsbD i := by
  unfold setReady
  split
  · rfl
  · simp [irqSet, getLsbD_bvSet, hi]

/-! The service of a request. -/

/-- A request that is asked runs the card's meaning. -/
theorem serve_asked {s : State} {c op : Nat} {lenOk : Nat → Bool} (body : List Byte → State → Served)
    (h : Asked s c op lenOk) : serve op lenOk body c s = finish c (body (reqPayload s c) s) := by
  obtain ⟨h1, h2, h3, h4, h5⟩ := h
  unfold serve
  simp [h1, h2, h3, h4, h5]

/-- A request of another opcode, or none, is left. -/
theorem serve_other {s : State} {c op : Nat} (lenOk : Nat → Bool) (body : List Byte → State → Served)
    (h : canServe s c = false ∨ (headerFault s c = none ∧ reqOp s c ≠ op)) : serve op lenOk body c s = s := by
  rcases h with h | ⟨h, k⟩ <;> unfold serve
  · simp [h]
  · simp [h, k]

@[simp] theorem finish_ok (c st : Nat) (pl : List Byte) (s : State) : finish c (ok st pl s) = answer c st pl s := rfl
@[simp] theorem finish_no (c st : Nat) (s : State) : finish c (no st s) = answer c st [] s := rfl
@[simp] theorem finish_hold (c : Nat) (s : State) : finish c (none, s) = setChan c .inService s := rfl

/-- A job of the AES engine changes nothing but the engine (01 R35). -/
theorem aesRun_eq (j : AesJob) (s : State) : ∃ a, aesRun j s = { s with vault := { s.vault with aes := a } } := ⟨_, rfl⟩

/-- Checking a MAC changes nothing but the engine (01 Table AR-6, 19 R450). -/
theorem macJobs_eq (client n : Nat) (msg mac : List Byte) (s : State) :
    ∃ a, macJobs client n msg mac s = { s with vault := { s.vault with aes := a } } := by
  unfold macJobs
  dsimp only
  split
  · exact ⟨_, rfl⟩
  · exact ⟨_, rfl⟩

/-- Reads of the store add at most one request (01 R32). -/
theorem readItems_eq (kind : Nat) (items : List (List Byte)) (s : State) :
    ∃ l, readItems kind items s = { s with qr := { s.qr with asks := s.qr.asks ++ l } } := by
  unfold readItems
  split
  · exact ⟨[], by simp⟩
  · exact ⟨_, rfl⟩

/-- A queued Cairn entry that nothing holds back goes into the queue under the next token (15 R367). -/
theorem cairnQ_eq (writer code subject : Nat) (data : List Byte) (tamper : Bool) (s : State) (h : cairnHeld code s = false) :
    cairnQ writer code subject data tamper s = { s with cairn := { s.cairn with
      queue := cairnPlace ⟨⟨0, 0, now s, code, writer, subject, padTo 24 data, []⟩, s.cairn.next, tamper⟩ s.cairn.queue
      next := s.cairn.next + 1 } } := by
  simp [cairnQ, h]

/-- The first entry queued stands alone. -/
@[simp] theorem cairnPlace_nil (j : CairnJob) : cairnPlace j [] = [j] := rfl

end Sys2Proof.Machine
end

