-- ==== Sys2Proof/Laws/Fence.lean ====
section
/-!
SUPPORT. What placing a fence does to FENCE_MAP (25 R541).
-/

namespace Sys2Proof.Machine

/-- The domain of a fence just placed is fenced. -/
theorem fenceBit_fenced (dom idx : Nat) (req grp : Bool) (cls det : Nat) (s : State) (h : fenceOff dom + idx < 256) :
    fencedB (fenceBit dom idx req grp cls det s) dom idx = true := by
  have own : ∀ (f : Port → Port) (u : State), u.fences.map.getLsbD (fenceOff dom + idx) = true →
      (if dom == 0 then updPort idx f u
       else if dom == 10 then
         (if (setChan idx .fenced u).tabs.owner == some idx then
           { setChan idx .fenced u with tabs := { (setChan idx .fenced u).tabs with owner := none, bytes := [] } }
          else setChan idx .fenced u)
       else u).fences.map.getLsbD (fenceOff dom + idx) = true := by
    intro f u hu
    repeat' (first | split | exact hu)
  have ready : ∀ u : State, (fenceReady dom idx u).fences = u.fences := fun u =>
    fenceReady_only dom idx (Only.refl [.boot, .link] u) (by decide) .fences (by decide)
  have event : ∀ u : State, (fenceEvent dom idx 1 req (cls * 256 + det) u).fences = u.fences := fun u =>
    fenceEvent_only dom idx 1 req (cls * 256 + det) (Only.refl [.link, .ev, .pw] u) (by decide) .fences (by decide)
  unfold fencedB fenceBit
  dsimp only
  split
  · next hm =>
    split
    · exact hm
    · split
      · exact own _ _ hm
      · split
        · exact hm
        · exact own _ _ hm
  · rw [ready]
    refine own _ _ ?_
    rw [event]
    exact (getLsbD_bvSet _ _ _ _ h).trans (if_pos rfl)

/-- The same for a domain and, with a group, its ports. -/
theorem fenceNow_fenced (dom idx : Nat) (req : Bool) (cls det : Nat) (s : State) (h : fenceOff dom + idx < 256)
    (hd : dom ≠ 1) : fencedB (fenceNow dom idx req cls det s) dom idx = true := by
  unfold fenceNow
  simp [hd, fenceBit_fenced dom idx req false cls det s h]

end Sys2Proof.Machine
end

