-- ==== Sys2Proof/Laws/FramePorts.lean ====
section
/-!
SUPPORT. What each operation may change, to be cited in place of unfolding it: the ports: handshake, Lintel, contactors, safety functions.
-/

namespace Sys2Proof.Machine

/-! Handshake -/

/-- What judgeReq may change. -/
theorem judgeReq_only {parts : List Part} {s_ s : State} (p : Nat)
    (h : Only parts s_ s)
    (hl : ∀ p ∈ ([.boot, .link, .tabs, .ev, .ports, .safety, .fences, .pw] : List Part), p ∈ parts) :
    Only parts s_ (judgeReq p s) := by
  unfold judgeReq
  repeat' (first
  | with_reducible assumption
  | exact sub_of hl (by decide)
  | with_reducible apply endSequence_only
  | with_reducible apply removeEnergy_only
  | with_reducible apply setSwitches_only
  | with_reducible apply startStop_only
  | with_reducible apply updPort_only
  | split
  | (with_reducible apply Only.mk
     all_goals first | exact Or.inr rfl | exact Or.inl (hl _ (by decide)) | skip)
  | dsimp only)

/-- What hlcTick may change. -/
theorem hlcTick_only {parts : List Part} {s_ s : State} (p : Nat)
    (h : Only parts s_ s)
    (hl : ∀ p ∈ ([.link, .ports, .pw] : List Part), p ∈ parts) :
    Only parts s_ (hlcTick p s) := by
  unfold hlcTick
  repeat' (first
  | with_reducible assumption
  | exact sub_of hl (by decide)
  | with_reducible apply cpEvent_only
  | with_reducible apply updPort_only
  | split
  | (with_reducible apply Only.mk
     all_goals first | exact Or.inr rfl | exact Or.inl (hl _ (by decide)) | skip)
  | dsimp only)

/-- What handshakePort may change. -/
theorem handshakePort_only {parts : List Part} {s_ s : State} (i : TickIn) (p : Nat)
    (h : Only parts s_ s)
    (hl : ∀ p ∈ ([.boot, .link, .tabs, .ev, .ports, .safety, .fences, .pw] : List Part), p ∈ parts) :
    Only parts s_ (handshakePort i p s) := by
  unfold handshakePort
  repeat' (first
  | with_reducible assumption
  | exact sub_of hl (by decide)
  | with_reducible apply hlcTick_only
  | with_reducible apply judgeReq_only
  | with_reducible apply updPort_only
  | (with_reducible apply Only.mk
     all_goals first | exact Or.inr rfl | exact Or.inl (hl _ (by decide)) | skip)
  | dsimp only)

/-- What pwmPeriodEnd may change. -/
theorem pwmPeriodEnd_only {parts : List Part} {s_ s : State} (p : Nat)
    (h : Only parts s_ s)
    (hl : ∀ p ∈ ([.boot, .link, .tabs, .ev, .ports, .safety, .fences, .pw] : List Part), p ∈ parts) :
    Only parts s_ (pwmPeriodEnd p s) := by
  unfold pwmPeriodEnd
  repeat' (first
  | with_reducible assumption
  | exact sub_of hl (by decide)
  | with_reducible apply cpEvent_only
  | with_reducible apply judgeReq_only
  | with_reducible apply updPort_only
  | split
  | (with_reducible apply Only.mk
     all_goals first | exact Or.inr rfl | exact Or.inl (hl _ (by decide)) | skip)
  | dsimp only)

/-- What enterA may change. -/
theorem enterA_only {parts : List Part} {s_ s : State} (p : Nat)
    (h : Only parts s_ s)
    (hl : ∀ p ∈ ([.boot, .link, .tabs, .ev, .ports, .safety, .fences, .pw] : List Part), p ∈ parts) :
    Only parts s_ (enterA p s) := by
  unfold enterA
  repeat' (first
  | with_reducible assumption
  | exact sub_of hl (by decide)
  | with_reducible apply cpEvent_only
  | with_reducible apply lockFree_only
  | with_reducible apply startStop_only
  | with_reducible apply updPort_only
  | with_reducible apply withdrawPermit_only
  | split
  | (with_reducible apply Only.mk
     all_goals first | exact Or.inr rfl | exact Or.inl (hl _ (by decide)) | skip)
  | dsimp only)

/-- What enterE may change. -/
theorem enterE_only {parts : List Part} {s_ s : State} (p reason : Nat)
    (h : Only parts s_ s)
    (hl : ∀ p ∈ ([.boot, .link, .tabs, .ev, .ports, .safety, .fences, .pw] : List Part), p ∈ parts) :
    Only parts s_ (enterE p reason s) := by
  unfold enterE
  repeat' (first
  | with_reducible assumption
  | exact sub_of hl (by decide)
  | with_reducible apply cpEvent_only
  | with_reducible apply startStop_only
  | with_reducible apply updPort_only
  | with_reducible apply withdrawPermit_only
  | split
  | (with_reducible apply Only.mk
     all_goals first | exact Or.inr rfl | exact Or.inl (hl _ (by decide)) | skip)
  | dsimp only)

/-- What cpStateChange may change. -/
theorem cpStateChange_only {parts : List Part} {s_ s : State} (p : Nat)
    (h : Only parts s_ s)
    (hl : ∀ p ∈ ([.boot, .link, .tabs, .ev, .ports, .safety, .fences, .pw] : List Part), p ∈ parts) :
    Only parts s_ (cpStateChange p s) := by
  unfold cpStateChange
  repeat' (first
  | with_reducible assumption
  | exact sub_of hl (by decide)
  | with_reducible apply cpEvent_only
  | with_reducible apply enterA_only
  | with_reducible apply enterE_only
  | with_reducible apply judgeReq_only
  | with_reducible apply updPort_only
  | split
  | (with_reducible apply Only.mk
     all_goals first | exact Or.inr rfl | exact Or.inl (hl _ (by decide)) | skip)
  | dsimp only)

/-- What ppStateChange may change. -/
theorem ppStateChange_only {parts : List Part} {s_ s : State} (p : Nat)
    (h : Only parts s_ s)
    (hl : ∀ p ∈ ([.boot, .link, .tabs, .ev, .ports, .safety, .fences, .pw] : List Part), p ∈ parts) :
    Only parts s_ (ppStateChange p s) := by
  unfold ppStateChange
  repeat' (first
  | with_reducible assumption
  | exact sub_of hl (by decide)
  | with_reducible apply cpEvent_only
  | with_reducible apply endSequence_only
  | with_reducible apply startStop_only
  | with_reducible apply updPort_only
  | with_reducible apply withdrawPermit_only
  | split
  | (with_reducible apply Only.mk
     all_goals first | exact Or.inr rfl | exact Or.inl (hl _ (by decide)) | skip)
  | dsimp only)

/-- What diodeProbe may change. -/
theorem diodeProbe_only {parts : List Part} {s_ s : State} (p : Nat)
    (h : Only parts s_ s)
    (hl : ∀ p ∈ ([.ports] : List Part), p ∈ parts) :
    Only parts s_ (diodeProbe p s) := by
  unfold diodeProbe
  repeat' (first
  | with_reducible assumption
  | exact sub_of hl (by decide)
  | with_reducible apply updPort_only
  | split
  | (with_reducible apply Only.mk
     all_goals first | exact Or.inr rfl | exact Or.inl (hl _ (by decide)) | skip)
  | dsimp only)

/-- What cpWakeEnd may change. -/
theorem cpWakeEnd_only {parts : List Part} {s_ s : State} (p : Nat)
    (h : Only parts s_ s)
    (hl : ∀ p ∈ ([.ports] : List Part), p ∈ parts) :
    Only parts s_ (cpWakeEnd p s) := by
  unfold cpWakeEnd
  repeat' (first
  | with_reducible assumption
  | exact sub_of hl (by decide)
  | with_reducible apply updPort_only
  | split
  | (with_reducible apply Only.mk
     all_goals first | exact Or.inr rfl | exact Or.inl (hl _ (by decide)) | skip)
  | dsimp only)

/-- What overdraw may change. -/
theorem overdraw_only {parts : List Part} {s_ s : State} (p : Nat)
    (h : Only parts s_ s)
    (hl : ∀ p ∈ ([.boot, .link, .tabs, .ev, .ports, .safety, .fences, .pw] : List Part), p ∈ parts) :
    Only parts s_ (overdraw p s) := by
  unfold overdraw
  repeat' (first
  | with_reducible assumption
  | exact sub_of hl (by decide)
  | with_reducible apply cpEvent_only
  | with_reducible apply startStop_only
  | with_reducible apply updPort_only
  | with_reducible refine foldl_only ?_ (fun _ _ _ => ?_)
  | split
  | (with_reducible apply Only.mk
     all_goals first | exact Or.inr rfl | exact Or.inl (hl _ (by decide)) | skip)
  | dsimp only)

/-- What lockTo may change. -/
theorem lockTo_only {parts : List Part} {s_ s : State} (p st det : Nat)
    (h : Only parts s_ s)
    (hl : ∀ p ∈ ([.link, .ports, .pw] : List Part), p ∈ parts) :
    Only parts s_ (lockTo p st det s) := by
  unfold lockTo
  repeat' (first
  | with_reducible assumption
  | exact sub_of hl (by decide)
  | with_reducible apply cpEvent_only
  | with_reducible apply updPort_only
  | split
  | (with_reducible apply Only.mk
     all_goals first | exact Or.inr rfl | exact Or.inl (hl _ (by decide)) | skip)
  | dsimp only)

/-- What lockFault may change. -/
theorem lockFault_only {parts : List Part} {s_ s : State} (p det : Nat)
    (h : Only parts s_ s)
    (hl : ∀ p ∈ ([.boot, .link, .tabs, .ev, .ports, .safety, .fences, .ls, .pw] : List Part), p ∈ parts) :
    Only parts s_ (lockFault p det s) := by
  unfold lockFault
  repeat' (first
  | with_reducible assumption
  | exact sub_of hl (by decide)
  | with_reducible apply judgeReq_only
  | with_reducible apply lockTo_only
  | with_reducible apply lsCommand_only
  | with_reducible apply startStop_only
  | with_reducible apply updPort_only
  | split
  | (with_reducible apply Only.mk
     all_goals first | exact Or.inr rfl | exact Or.inl (hl _ (by decide)) | skip)
  | dsimp only)

/-- What lockRequest may change. -/
theorem lockRequest_only {parts : List Part} {s_ s : State} (p : Nat)
    (h : Only parts s_ s)
    (hl : ∀ p ∈ ([.boot, .link, .tabs, .ev, .ports, .safety, .fences, .ls, .pw] : List Part), p ∈ parts) :
    Only parts s_ (lockRequest p s) := by
  unfold lockRequest
  repeat' (first
  | with_reducible assumption
  | exact sub_of hl (by decide)
  | with_reducible apply lockFault_only
  | with_reducible apply lockTo_only
  | with_reducible apply lsCommand_only
  | with_reducible apply updPort_only
  | split
  | (with_reducible apply Only.mk
     all_goals first | exact Or.inr rfl | exact Or.inl (hl _ (by decide)) | skip)
  | dsimp only)

/-- What lockPullEnd may change. -/
theorem lockPullEnd_only {parts : List Part} {s_ s : State} (p : Nat)
    (h : Only parts s_ s)
    (hl : ∀ p ∈ ([.ports, .ls] : List Part), p ∈ parts) :
    Only parts s_ (lockPullEnd p s) := by
  unfold lockPullEnd
  repeat' (first
  | with_reducible assumption
  | exact sub_of hl (by decide)
  | with_reducible apply lsCommand_only
  | with_reducible apply updPort_only
  | split
  | (with_reducible apply Only.mk
     all_goals first | exact Or.inr rfl | exact Or.inl (hl _ (by decide)) | skip)
  | dsimp only)

/-- What locked may change. -/
theorem locked_only {parts : List Part} {s_ s : State} (p : Nat)
    (h : Only parts s_ s)
    (hl : ∀ p ∈ ([.boot, .link, .tabs, .ev, .ports, .safety, .fences, .pw] : List Part), p ∈ parts) :
    Only parts s_ (locked p s) := by
  unfold locked
  repeat' (first
  | with_reducible assumption
  | exact sub_of hl (by decide)
  | with_reducible apply judgeReq_only
  | with_reducible apply lockTo_only
  | split
  | (with_reducible apply Only.mk
     all_goals first | exact Or.inr rfl | exact Or.inl (hl _ (by decide)) | skip)
  | dsimp only)

/-- What lockTimeout may change. -/
theorem lockTimeout_only {parts : List Part} {s_ s : State} (p : Nat)
    (h : Only parts s_ s)
    (hl : ∀ p ∈ ([.boot, .link, .tabs, .ev, .ports, .safety, .fences, .ls, .pw] : List Part), p ∈ parts) :
    Only parts s_ (lockTimeout p s) := by
  unfold lockTimeout
  repeat' (first
  | with_reducible assumption
  | exact sub_of hl (by decide)
  | with_reducible apply lockFault_only
  | split
  | (with_reducible apply Only.mk
     all_goals first | exact Or.inr rfl | exact Or.inl (hl _ (by decide)) | skip)
  | dsimp only)

/-- What lockLost may change. -/
theorem lockLost_only {parts : List Part} {s_ s : State} (p : Nat) (budget : Bool)
    (h : Only parts s_ s)
    (hl : ∀ p ∈ ([.boot, .link, .tabs, .ev, .ports, .safety, .fences, .ls, .pw] : List Part), p ∈ parts) :
    Only parts s_ (lockLost p budget s) := by
  unfold lockLost
  repeat' (first
  | with_reducible assumption
  | exact sub_of hl (by decide)
  | with_reducible apply lockFault_only
  | split
  | (with_reducible apply Only.mk
     all_goals first | exact Or.inr rfl | exact Or.inl (hl _ (by decide)) | skip)
  | dsimp only)

/-- What lockReleaseDo may change. -/
theorem lockReleaseDo_only {parts : List Part} {s_ s : State} (p : Nat)
    (h : Only parts s_ s)
    (hl : ∀ p ∈ ([.link, .ports, .ls, .pw] : List Part), p ∈ parts) :
    Only parts s_ (lockReleaseDo p s) := by
  unfold lockReleaseDo
  repeat' (first
  | with_reducible assumption
  | exact sub_of hl (by decide)
  | with_reducible apply lockTo_only
  | with_reducible apply lsCommand_only
  | with_reducible apply updPort_only
  | split
  | (with_reducible apply Only.mk
     all_goals first | exact Or.inr rfl | exact Or.inl (hl _ (by decide)) | skip)
  | dsimp only)

/-! Lintel -/

/-- What lintelEvent may change. -/
theorem lintelEvent_only {parts : List Part} {s_ s : State} (g l ev port value : Nat)
    (h : Only parts s_ s)
    (hl : ∀ p ∈ ([.link, .pw] : List Part), p ∈ parts) :
    Only parts s_ (lintelEvent g l ev port value s) := by
  unfold lintelEvent
  repeat' (first
  | with_reducible assumption
  | exact sub_of hl (by decide)
  | with_reducible apply notify_only
  | (with_reducible apply Only.mk
     all_goals first | exact Or.inr rfl | exact Or.inl (hl _ (by decide)) | skip))

/-- What holdEnd may change. -/
theorem holdEnd_only {parts : List Part} {s_ s : State} (p : Nat)
    (h : Only parts s_ s)
    (hl : ∀ p ∈ ([.ports] : List Part), p ∈ parts) :
    Only parts s_ (holdEnd p s) := by
  unfold holdEnd
  repeat' (first
  | with_reducible assumption
  | exact sub_of hl (by decide)
  | with_reducible apply updPort_only
  | split
  | (with_reducible apply Only.mk
     all_goals first | exact Or.inr rfl | exact Or.inl (hl _ (by decide)) | skip)
  | dsimp only)

/-- What rotatePointer may change. -/
theorem rotatePointer_only {parts : List Part} {s_ s : State} 
    (h : Only parts s_ s)
    (hl : ∀ p ∈ ([.lintel] : List Part), p ∈ parts) :
    Only parts s_ (rotatePointer s) := by
  unfold rotatePointer
  repeat' (first
  | with_reducible assumption
  | split
  | (with_reducible apply Only.mk
     all_goals first | exact Or.inr rfl | exact Or.inl (hl _ (by decide)) | skip)
  | dsimp only)

/-- What updLine may change. -/
theorem updLine_only {parts : List Part} {s_ s : State} (k : Nat) (f : LineSt → LineSt)
    (h : Only parts s_ s)
    (hl : ∀ p ∈ ([.lintel] : List Part), p ∈ parts) :
    Only parts s_ (updLine k f s) := by
  unfold updLine
  repeat' (first
  | with_reducible assumption
  | (with_reducible apply Only.mk
     all_goals first | exact Or.inr rfl | exact Or.inl (hl _ (by decide)) | skip))

/-- What overloadWarning may change. -/
theorem overloadWarning_only {parts : List Part} {s_ s : State} (g l : Nat)
    (h : Only parts s_ s)
    (hl : ∀ p ∈ ([.link, .lintel, .pw] : List Part), p ∈ parts) :
    Only parts s_ (overloadWarning g l s) := by
  unfold overloadWarning
  repeat' (first
  | with_reducible assumption
  | exact sub_of hl (by decide)
  | with_reducible apply lintelEvent_only
  | with_reducible apply updLine_only
  | split
  | (with_reducible apply Only.mk
     all_goals first | exact Or.inr rfl | exact Or.inl (hl _ (by decide)) | skip)
  | dsimp only)

/-- What feederStop may change. -/
theorem feederStop_only {parts : List Part} {s_ s : State} (g l : Nat)
    (h : Only parts s_ s)
    (hl : ∀ p ∈ ([.link, .ports, .lintel, .pw] : List Part), p ∈ parts) :
    Only parts s_ (feederStop g l s) := by
  unfold feederStop
  repeat' (first
  | with_reducible assumption
  | exact sub_of hl (by decide)
  | with_reducible apply lintelEvent_only
  | with_reducible apply updLine_only
  | with_reducible apply updPort_only
  | with_reducible refine foldl_only ?_ (fun _ _ _ => ?_)
  | split
  | (with_reducible apply Only.mk
     all_goals first | exact Or.inr rfl | exact Or.inl (hl _ (by decide)) | skip)
  | dsimp only)

/-- What setShare may change. -/
theorem setShare_only {parts : List Part} {s_ s : State} (share : List Nat) (source : Nat)
    (h : Only parts s_ s)
    (hl : ∀ p ∈ ([.link, .lintel, .pw] : List Part), p ∈ parts) :
    Only parts s_ (setShare share source s) := by
  unfold setShare
  repeat' (first
  | with_reducible assumption
  | exact sub_of hl (by decide)
  | with_reducible apply lintelEvent_only
  | with_reducible refine foldN_only _ ?_ (fun _ _ _ => ?_)
  | split
  | (with_reducible apply Only.mk
     all_goals first | exact Or.inr rfl | exact Or.inl (hl _ (by decide)) | skip)
  | dsimp only)

/-- What superframeStart may change. -/
theorem superframeStart_only {parts : List Part} {s_ s : State} 
    (h : Only parts s_ s)
    (hl : ∀ p ∈ ([.link, .lintel, .pw] : List Part), p ∈ parts) :
    Only parts s_ (superframeStart s) := by
  unfold superframeStart
  repeat' (first
  | with_reducible assumption
  | exact sub_of hl (by decide)
  | with_reducible apply setShare_only
  | split
  | (with_reducible apply Only.mk
     all_goals first | exact Or.inr rfl | exact Or.inl (hl _ (by decide)) | skip)
  | dsimp only)

/-- What grantFallback may change. -/
theorem grantFallback_only {parts : List Part} {s_ s : State} 
    (h : Only parts s_ s)
    (hl : ∀ p ∈ ([.link, .lintel, .pw] : List Part), p ∈ parts) :
    Only parts s_ (grantFallback s) := by
  unfold grantFallback
  repeat' (first
  | with_reducible assumption
  | exact sub_of hl (by decide)
  | with_reducible apply lintelEvent_only
  | with_reducible refine foldN_only _ ?_ (fun _ _ _ => ?_)
  | split
  | (with_reducible apply Only.mk
     all_goals first | exact Or.inr rfl | exact Or.inl (hl _ (by decide)) | skip)
  | dsimp only)

/-- What mixOver may change. -/
theorem mixOver_only {parts : List Part} {s_ s : State} 
    (h : Only parts s_ s)
    (hl : ∀ p ∈ ([.link, .lintel, .pw] : List Part), p ∈ parts) :
    Only parts s_ (mixOver s) := by
  unfold mixOver
  repeat' (first
  | with_reducible assumption
  | exact sub_of hl (by decide)
  | with_reducible apply lintelEvent_only
  | split
  | (with_reducible apply Only.mk
     all_goals first | exact Or.inr rfl | exact Or.inl (hl _ (by decide)) | skip))

/-- What epochMixEnd may change. -/
theorem epochMixEnd_only {parts : List Part} {s_ s : State} 
    (h : Only parts s_ s)
    (hl : ∀ p ∈ ([.link, .lintel, .pw] : List Part), p ∈ parts) :
    Only parts s_ (epochMixEnd s) := by
  unfold epochMixEnd
  repeat' (first
  | with_reducible assumption
  | exact sub_of hl (by decide)
  | with_reducible apply mixOver_only
  | split
  | (with_reducible apply Only.mk
     all_goals first | exact Or.inr rfl | exact Or.inl (hl _ (by decide)) | skip)
  | dsimp only)

/-- What applyOptions may change. -/
theorem applyOptions_only {parts : List Part} {s_ s : State} 
    (h : Only parts s_ s)
    (hl : ∀ p ∈ ([.ports] : List Part), p ∈ parts) :
    Only parts s_ (applyOptions s) := by
  unfold applyOptions
  repeat' (first
  | with_reducible assumption
  | exact sub_of hl (by decide)
  | with_reducible apply updPort_only
  | with_reducible refine eachPort_only ?_ (fun _ _ _ => ?_)
  | (with_reducible apply Only.mk
     all_goals first | exact Or.inr rfl | exact Or.inl (hl _ (by decide)) | skip)
  | dsimp only)

/-- What budgetTable may change. -/
theorem budgetTable_only {parts : List Part} {s_ s : State} (old s : State)
    (h : Only parts s_ s)
    (hl : ∀ p ∈ ([.link, .lintel, .pw] : List Part), p ∈ parts) :
    Only parts s_ (budgetTable old s) := by
  unfold budgetTable
  repeat' (first
  | with_reducible assumption
  | exact sub_of hl (by decide)
  | with_reducible apply lintelEvent_only
  | with_reducible refine foldN_only _ ?_ (fun _ _ _ => ?_)
  | split
  | (with_reducible apply Only.mk
     all_goals first | exact Or.inr rfl | exact Or.inl (hl _ (by decide)) | skip)
  | dsimp only)

/-! Contactor -/

/-- What faultStop may change. -/
theorem faultStop_only {parts : List Part} {s_ s : State} (p cause code : Nat)
    (h : Only parts s_ s)
    (hl : ∀ p ∈ ([.boot, .link, .tabs, .ev, .ports, .safety, .fences, .pw] : List Part), p ∈ parts) :
    Only parts s_ (faultStop p cause code s) := by
  unfold faultStop
  repeat' (first
  | with_reducible assumption
  | exact sub_of hl (by decide)
  | with_reducible apply startStop_only
  | (with_reducible apply Only.mk
     all_goals first | exact Or.inr rfl | exact Or.inl (hl _ (by decide)) | skip))

/-- What bothOff may change. -/
theorem bothOff_only {parts : List Part} {s_ s : State} (p : Nat)
    (h : Only parts s_ s)
    (hl : ∀ p ∈ ([.ports, .safety] : List Part), p ∈ parts) :
    Only parts s_ (bothOff p s) := by
  unfold bothOff
  repeat' (first
  | with_reducible assumption
  | exact sub_of hl (by decide)
  | with_reducible apply setSwitches_only
  | with_reducible apply updPort_only
  | (with_reducible apply Only.mk
     all_goals first | exact Or.inr rfl | exact Or.inl (hl _ (by decide)) | skip)
  | dsimp only)

/-- What closeFail may change. -/
theorem closeFail_only {parts : List Part} {s_ s : State} (p : Nat)
    (h : Only parts s_ s)
    (hl : ∀ p ∈ ([.boot, .link, .tabs, .ev, .ports, .safety, .fences, .pw] : List Part), p ∈ parts) :
    Only parts s_ (closeFail p s) := by
  unfold closeFail
  repeat' (first
  | with_reducible assumption
  | exact sub_of hl (by decide)
  | with_reducible apply bothOff_only
  | with_reducible apply fencePort_only
  | with_reducible apply rcEvent_only
  | with_reducible apply updPort_only
  | split
  | (with_reducible apply Only.mk
     all_goals first | exact Or.inr rfl | exact Or.inl (hl _ (by decide)) | skip)
  | dsimp only)

/-- What dropout may change. -/
theorem dropout_only {parts : List Part} {s_ s : State} (p : Nat)
    (h : Only parts s_ s)
    (hl : ∀ p ∈ ([.boot, .link, .tabs, .ev, .ports, .safety, .fences, .pw] : List Part), p ∈ parts) :
    Only parts s_ (dropout p s) := by
  unfold dropout
  repeat' (first
  | with_reducible assumption
  | exact sub_of hl (by decide)
  | with_reducible apply bothOff_only
  | with_reducible apply closeFail_only
  | with_reducible apply rcEvent_only
  | with_reducible apply updPort_only
  | split
  | (with_reducible apply Only.mk
     all_goals first | exact Or.inr rfl | exact Or.inl (hl _ (by decide)) | skip)
  | dsimp only)

/-- What vetoFault may change. -/
theorem vetoFault_only {parts : List Part} {s_ s : State} (p cause code : Nat)
    (h : Only parts s_ s)
    (hl : ∀ p ∈ ([.boot, .link, .tabs, .ev, .ports, .safety, .fences, .pw] : List Part), p ∈ parts) :
    Only parts s_ (vetoFault p cause code s) := by
  unfold vetoFault
  repeat' (first
  | with_reducible assumption
  | exact sub_of hl (by decide)
  | with_reducible apply faultStop_only
  | with_reducible apply rcEvent_only
  | with_reducible apply updPort_only
  | split
  | (with_reducible apply Only.mk
     all_goals first | exact Or.inr rfl | exact Or.inl (hl _ (by decide)) | skip)
  | dsimp only)

/-- What residualStream may change. -/
theorem residualStream_only {parts : List Part} {s_ s : State} (p : Nat)
    (h : Only parts s_ s)
    (hl : ∀ p ∈ ([.boot, .link, .tabs, .ev, .ports, .safety, .fences, .pw] : List Part), p ∈ parts) :
    Only parts s_ (residualStream p s) := by
  unfold residualStream
  repeat' (first
  | with_reducible assumption
  | exact sub_of hl (by decide)
  | with_reducible apply endSequence_only
  | with_reducible apply rcEvent_only
  | with_reducible apply startStop_only
  | with_reducible apply updPort_only
  | (with_reducible apply Only.mk
     all_goals first | exact Or.inr rfl | exact Or.inl (hl _ (by decide)) | skip)
  | dsimp only)

/-- What rcTrip may change. -/
theorem rcTrip_only {parts : List Part} {s_ s : State} (p : Nat)
    (h : Only parts s_ s)
    (hl : ∀ p ∈ ([.boot, .link, .tabs, .ev, .ports, .safety, .fences, .pw] : List Part), p ∈ parts) :
    Only parts s_ (rcTrip p s) := by
  unfold rcTrip
  repeat' (first
  | with_reducible assumption
  | exact sub_of hl (by decide)
  | with_reducible apply endSequence_only
  | with_reducible apply rcEvent_only
  | with_reducible apply startStop_only
  | with_reducible apply updPort_only
  | with_reducible refine foldl_only ?_ (fun _ _ _ => ?_)
  | split
  | (with_reducible apply Only.mk
     all_goals first | exact Or.inr rfl | exact Or.inl (hl _ (by decide)) | skip)
  | dsimp only)

/-- What beginSequence may change. -/
theorem beginSequence_only {parts : List Part} {s_ s : State} (p : Nat)
    (h : Only parts s_ s)
    (hl : ∀ p ∈ ([.ports] : List Part), p ∈ parts) :
    Only parts s_ (beginSequence p s) := by
  unfold beginSequence
  repeat' (first
  | with_reducible assumption
  | exact sub_of hl (by decide)
  | with_reducible apply updPort_only
  | (with_reducible apply Only.mk
     all_goals first | exact Or.inr rfl | exact Or.inl (hl _ (by decide)) | skip)
  | dsimp only)

/-- What closingSequence may change. -/
theorem closingSequence_only {parts : List Part} {s_ s : State} (p : Nat)
    (h : Only parts s_ s)
    (hl : ∀ p ∈ ([.ports] : List Part), p ∈ parts) :
    Only parts s_ (closingSequence p s) := by
  unfold closingSequence
  repeat' (first
  | with_reducible assumption
  | exact sub_of hl (by decide)
  | with_reducible apply beginSequence_only
  | split
  | (with_reducible apply Only.mk
     all_goals first | exact Or.inr rfl | exact Or.inl (hl _ (by decide)) | skip)
  | dsimp only)

/-- What liftPlaus may change. -/
theorem liftPlaus_only {parts : List Part} {s_ s : State} (p : Nat) (ok : Bool)
    (h : Only parts s_ s)
    (hl : ∀ p ∈ ([.ports] : List Part), p ∈ parts) :
    Only parts s_ (liftPlaus p ok s) := by
  unfold liftPlaus
  repeat' (first
  | with_reducible assumption
  | exact sub_of hl (by decide)
  | with_reducible apply updPort_only
  | (with_reducible apply Only.mk
     all_goals first | exact Or.inr rfl | exact Or.inl (hl _ (by decide)) | skip)
  | dsimp only)

/-- What plausJudge may change. -/
theorem plausJudge_only {parts : List Part} {s_ s : State} (p : Nat)
    (h : Only parts s_ s)
    (hl : ∀ p ∈ ([.boot, .link, .tabs, .ev, .ports, .safety, .fences, .pw] : List Part), p ∈ parts) :
    Only parts s_ (plausJudge p s) := by
  unfold plausJudge
  repeat' (first
  | with_reducible assumption
  | exact sub_of hl (by decide)
  | with_reducible apply fencePort_only
  | with_reducible apply liftPlaus_only
  | with_reducible apply rcEvent_only
  | with_reducible apply updPort_only
  | split
  | (with_reducible apply Only.mk
     all_goals first | exact Or.inr rfl | exact Or.inl (hl _ (by decide)) | skip)
  | dsimp only)

/-- What nextStep may change. -/
theorem nextStep_only {parts : List Part} {s_ s : State} (p step : Nat)
    (h : Only parts s_ s)
    (hl : ∀ p ∈ ([.ports, .safety] : List Part), p ∈ parts) :
    Only parts s_ (nextStep p step s) := by
  unfold nextStep
  repeat' (first
  | with_reducible assumption
  | exact sub_of hl (by decide)
  | with_reducible apply setSwitches_only
  | with_reducible apply updPort_only
  | split
  | (with_reducible apply Only.mk
     all_goals first | exact Or.inr rfl | exact Or.inl (hl _ (by decide)) | skip)
  | dsimp only)

/-- What liftRun may change. -/
theorem liftRun_only {parts : List Part} {s_ s : State} (p : Nat)
    (h : Only parts s_ s)
    (hl : ∀ p ∈ ([.ports, .safety] : List Part), p ∈ parts) :
    Only parts s_ (liftRun p s) := by
  unfold liftRun
  repeat' (first
  | with_reducible assumption
  | exact sub_of hl (by decide)
  | with_reducible apply setSwitches_only
  | with_reducible apply updPort_only
  | (with_reducible apply Only.mk
     all_goals first | exact Or.inr rfl | exact Or.inl (hl _ (by decide)) | skip)
  | dsimp only)

/-- What closingStep may change. -/
theorem closingStep_only {parts : List Part} {s_ s : State} (p : Nat)
    (h : Only parts s_ s)
    (hl : ∀ p ∈ ([.boot, .link, .tabs, .ev, .ports, .safety, .fences, .pw] : List Part), p ∈ parts) :
    Only parts s_ (closingStep p s) := by
  unfold closingStep
  repeat' (first
  | with_reducible assumption
  | exact sub_of hl (by decide)
  | with_reducible apply bothOff_only
  | with_reducible apply fencePort_only
  | with_reducible apply liftRun_only
  | with_reducible apply nextStep_only
  | with_reducible apply rcEvent_only
  | split
  | (with_reducible apply Only.mk
     all_goals first | exact Or.inr rfl | exact Or.inl (hl _ (by decide)) | skip)
  | dsimp only)

/-- What pullIn may change. -/
theorem pullIn_only {parts : List Part} {s_ s : State} (p : Nat)
    (h : Only parts s_ s)
    (hl : ∀ p ∈ ([.boot, .link, .tabs, .ev, .ports, .safety, .fences, .pw] : List Part), p ∈ parts) :
    Only parts s_ (pullIn p s) := by
  unfold pullIn
  repeat' (first
  | with_reducible assumption
  | exact sub_of hl (by decide)
  | with_reducible apply closeFail_only
  | with_reducible apply updPort_only
  | split
  | (with_reducible apply Only.mk
     all_goals first | exact Or.inr rfl | exact Or.inl (hl _ (by decide)) | skip)
  | dsimp only)

/-- What closeRetry may change. -/
theorem closeRetry_only {parts : List Part} {s_ s : State} (p : Nat)
    (h : Only parts s_ s)
    (hl : ∀ p ∈ ([.ports] : List Part), p ∈ parts) :
    Only parts s_ (closeRetry p s) := by
  unfold closeRetry
  repeat' (first
  | with_reducible assumption
  | exact sub_of hl (by decide)
  | with_reducible apply beginSequence_only
  | with_reducible apply updPort_only
  | split
  | (with_reducible apply Only.mk
     all_goals first | exact Or.inr rfl | exact Or.inl (hl _ (by decide)) | skip)
  | dsimp only)

/-- What judgePulse may change. -/
theorem judgePulse_only {parts : List Part} {s_ s : State} (p : Nat)
    (h : Only parts s_ s)
    (hl : ∀ p ∈ ([.boot, .link, .tabs, .ev, .ports, .safety, .fences, .pw] : List Part), p ∈ parts) :
    Only parts s_ (judgePulse p s) := by
  unfold judgePulse
  repeat' (first
  | with_reducible assumption
  | exact sub_of hl (by decide)
  | with_reducible apply dropout_only
  | with_reducible apply faultStop_only
  | with_reducible apply rcEvent_only
  | with_reducible apply updPort_only
  | with_reducible apply vetoFault_only
  | split
  | (with_reducible apply Only.mk
     all_goals first | exact Or.inr rfl | exact Or.inl (hl _ (by decide)) | skip)
  | dsimp only)

/-- What proofPulse may change. -/
theorem proofPulse_only {parts : List Part} {s_ s : State} (p : Nat)
    (h : Only parts s_ s)
    (hl : ∀ p ∈ ([.boot, .link, .tabs, .ev, .ports, .safety, .fences, .pw] : List Part), p ∈ parts) :
    Only parts s_ (proofPulse p s) := by
  unfold proofPulse
  repeat' (first
  | with_reducible assumption
  | exact sub_of hl (by decide)
  | with_reducible apply bothOff_only
  | with_reducible apply judgePulse_only
  | with_reducible apply removeEnergy_only
  | with_reducible apply updPort_only
  | split
  | (with_reducible apply Only.mk
     all_goals first | exact Or.inr rfl | exact Or.inl (hl _ (by decide)) | skip)
  | dsimp only)

/-- What driveFault may change. -/
theorem driveFault_only {parts : List Part} {s_ s : State} (p code : Nat)
    (h : Only parts s_ s)
    (hl : ∀ p ∈ ([.boot, .link, .tabs, .ev, .ports, .safety, .fences, .pw] : List Part), p ∈ parts) :
    Only parts s_ (driveFault p code s) := by
  unfold driveFault
  repeat' (first
  | with_reducible assumption
  | exact sub_of hl (by decide)
  | with_reducible apply faultStop_only
  | with_reducible apply rcEvent_only
  | split
  | (with_reducible apply Only.mk
     all_goals first | exact Or.inr rfl | exact Or.inl (hl _ (by decide)) | skip)
  | dsimp only)

/-- What cfbFaultDetect may change. -/
theorem cfbFaultDetect_only {parts : List Part} {s_ s : State} (p : Nat)
    (h : Only parts s_ s)
    (hl : ∀ p ∈ ([.boot, .link, .tabs, .ev, .ports, .safety, .fences, .pw] : List Part), p ∈ parts) :
    Only parts s_ (cfbFaultDetect p s) := by
  unfold cfbFaultDetect
  repeat' (first
  | with_reducible assumption
  | exact sub_of hl (by decide)
  | with_reducible apply driveFault_only
  | with_reducible apply dropout_only
  | with_reducible apply vetoFault_only
  | split
  | (with_reducible apply Only.mk
     all_goals first | exact Or.inr rfl | exact Or.inl (hl _ (by decide)) | skip)
  | dsimp only)

/-- What weldFault may change. -/
theorem weldFault_only {parts : List Part} {s_ s : State} (p code value : Nat)
    (h : Only parts s_ s)
    (hl : ∀ p ∈ ([.boot, .link, .tabs, .ev, .ports, .safety, .fences, .pw] : List Part), p ∈ parts) :
    Only parts s_ (weldFault p code value s) := by
  unfold weldFault
  repeat' (first
  | with_reducible assumption
  | exact sub_of hl (by decide)
  | with_reducible apply endStop_only
  | with_reducible apply fencePort_only
  | with_reducible apply keepFence_only
  | with_reducible apply rcEvent_only
  | with_reducible apply updPort_only
  | split
  | (with_reducible apply Only.mk
     all_goals first | exact Or.inr rfl | exact Or.inl (hl _ (by decide)) | skip)
  | dsimp only)

/-- What weldCheck may change. -/
theorem weldCheck_only {parts : List Part} {s_ s : State} (p : Nat)
    (h : Only parts s_ s)
    (hl : ∀ p ∈ ([.boot, .link, .tabs, .ev, .ports, .safety, .fences, .pw] : List Part), p ∈ parts) :
    Only parts s_ (weldCheck p s) := by
  unfold weldCheck
  repeat' (first
  | with_reducible assumption
  | exact sub_of hl (by decide)
  | with_reducible apply weldFault_only
  | split
  | (with_reducible apply Only.mk
     all_goals first | exact Or.inr rfl | exact Or.inl (hl _ (by decide)) | skip)
  | dsimp only)

/-- What openOnLow may change. -/
theorem openOnLow_only {parts : List Part} {s_ s : State} (p : Nat)
    (h : Only parts s_ s)
    (hl : ∀ p ∈ ([.ports, .safety] : List Part), p ∈ parts) :
    Only parts s_ (openOnLow p s) := by
  unfold openOnLow
  repeat' (first
  | with_reducible assumption
  | exact sub_of hl (by decide)
  | with_reducible apply bothOff_only
  | split
  | (with_reducible apply Only.mk
     all_goals first | exact Or.inr rfl | exact Or.inl (hl _ (by decide)) | skip))

/-- What openUnderLoad may change. -/
theorem openUnderLoad_only {parts : List Part} {s_ s : State} (p : Nat)
    (h : Only parts s_ s)
    (hl : ∀ p ∈ ([.link, .ev, .ports, .safety, .pw] : List Part), p ∈ parts) :
    Only parts s_ (openUnderLoad p s) := by
  unfold openUnderLoad
  repeat' (first
  | with_reducible assumption
  | exact sub_of hl (by decide)
  | with_reducible apply bothOff_only
  | with_reducible apply rcEvent_only
  | split
  | (with_reducible apply Only.mk
     all_goals first | exact Or.inr rfl | exact Or.inl (hl _ (by decide)) | skip)
  | dsimp only)

/-! SafetyFn -/

/-- What deviceEvent may change. -/
theorem deviceEvent_only {parts : List Part} {s_ s : State} (ev det : Nat)
    (h : Only parts s_ s)
    (hl : ∀ p ∈ ([.link, .pw] : List Part), p ∈ parts) :
    Only parts s_ (deviceEvent ev det s) := by
  unfold deviceEvent
  repeat' (first
  | with_reducible assumption
  | exact sub_of hl (by decide)
  | with_reducible apply safetyEvent_only
  | (with_reducible apply Only.mk
     all_goals first | exact Or.inr rfl | exact Or.inl (hl _ (by decide)) | skip))

/-- What sokTick may change. -/
theorem sokTick_only {parts : List Part} {s_ s : State} (sok : Bool × Bool)
    (h : Only parts s_ s)
    (hl : ∀ p ∈ ([.link, .safety, .pw] : List Part), p ∈ parts) :
    Only parts s_ (sokTick sok s) := by
  unfold sokTick
  repeat' (first
  | with_reducible assumption
  | exact sub_of hl (by decide)
  | with_reducible apply deviceEvent_only
  | split
  | (with_reducible apply Only.mk
     all_goals first | exact Or.inr rfl | exact Or.inl (hl _ (by decide)) | skip)
  | dsimp only)

/-- What stopOrEnd may change. -/
theorem stopOrEnd_only {parts : List Part} {s_ s : State} (p cause : Nat)
    (h : Only parts s_ s)
    (hl : ∀ p ∈ ([.boot, .link, .tabs, .ev, .ports, .safety, .fences, .pw] : List Part), p ∈ parts) :
    Only parts s_ (stopOrEnd p cause s) := by
  unfold stopOrEnd
  repeat' (first
  | with_reducible assumption
  | exact sub_of hl (by decide)
  | with_reducible apply startStop_only
  | with_reducible apply withdrawPermit_only
  | split
  | (with_reducible apply Only.mk
     all_goals first | exact Or.inr rfl | exact Or.inl (hl _ (by decide)) | skip)
  | dsimp only)

/-- What pendTick may change. -/
theorem pendTick_only {parts : List Part} {s_ s : State} (p : Nat)
    (h : Only parts s_ s)
    (hl : ∀ p ∈ ([.boot, .link, .tabs, .ev, .ports, .safety, .fences, .pw] : List Part), p ∈ parts) :
    Only parts s_ (pendTick p s) := by
  unfold pendTick
  repeat' (first
  | with_reducible assumption
  | exact sub_of hl (by decide)
  | with_reducible apply stopOrEnd_only
  | with_reducible apply updPort_only
  | with_reducible refine foldl_only ?_ (fun _ _ _ => ?_)
  | split
  | (with_reducible apply Only.mk
     all_goals first | exact Or.inr rfl | exact Or.inl (hl _ (by decide)) | skip)
  | dsimp only)

/-- What captureKs may change. -/
theorem captureKs_only {parts : List Part} {s_ s : State} 
    (h : Only parts s_ s)
    (hl : ∀ p ∈ ([.clk] : List Part), p ∈ parts) :
    Only parts s_ (captureKs s) := by
  unfold captureKs
  repeat' (first
  | with_reducible assumption
  | (with_reducible apply Only.mk
     all_goals first | exact Or.inr rfl | exact Or.inl (hl _ (by decide)) | skip)
  | dsimp only)

/-- What ksOwedTick may change. -/
theorem ksOwedTick_only {parts : List Part} {s_ s : State} 
    (h : Only parts s_ s)
    (hl : ∀ p ∈ ([.safety] : List Part), p ∈ parts) :
    Only parts s_ (ksOwedTick s) := by
  unfold ksOwedTick
  repeat' (first
  | with_reducible assumption
  | exact sub_of hl (by decide)
  | with_reducible apply writeKsRecord_only
  | split
  | (with_reducible apply Only.mk
     all_goals first | exact Or.inr rfl | exact Or.inl (hl _ (by decide)) | skip)
  | dsimp only)

/-- What keystoneTick may change. -/
theorem keystoneTick_only {parts : List Part} {s_ s : State} (i : TickIn)
    (h : Only parts s_ s)
    (hl : ∀ p ∈ ([.boot, .link, .tabs, .ev, .ports, .safety, .fences, .pw] : List Part), p ∈ parts) :
    Only parts s_ (keystoneTick i s) := by
  unfold keystoneTick
  repeat' (first
  | with_reducible assumption
  | exact sub_of hl (by decide)
  | with_reducible apply ksOwedTick_only
  | with_reducible apply pendTick_only
  | with_reducible apply sokTick_only
  | with_reducible apply updPort_only
  | with_reducible refine eachPort_only ?_ (fun _ _ _ => ?_)
  | split
  | (with_reducible apply Only.mk
     all_goals first | exact Or.inr rfl | exact Or.inl (hl _ (by decide)) | skip)
  | dsimp only)

/-- What energyRemoval may change. -/
theorem energyRemoval_only {parts : List Part} {s_ s : State} (p : Nat)
    (h : Only parts s_ s)
    (hl : ∀ p ∈ ([.link, .ports, .safety, .pw] : List Part), p ∈ parts) :
    Only parts s_ (energyRemoval p s) := by
  unfold energyRemoval
  repeat' (first
  | with_reducible assumption
  | exact sub_of hl (by decide)
  | with_reducible apply removeEnergy_only
  | split
  | (with_reducible apply Only.mk
     all_goals first | exact Or.inr rfl | exact Or.inl (hl _ (by decide)) | skip)
  | dsimp only)

/-- What safeStopEnd may change. -/
theorem safeStopEnd_only {parts : List Part} {s_ s : State} (p : Nat)
    (h : Only parts s_ s)
    (hl : ∀ p ∈ ([.boot, .link, .tabs, .ev, .ports, .safety, .fences, .pw] : List Part), p ∈ parts) :
    Only parts s_ (safeStopEnd p s) := by
  unfold safeStopEnd
  repeat' (first
  | with_reducible assumption
  | exact sub_of hl (by decide)
  | with_reducible apply endStop_only
  | split
  | (with_reducible apply Only.mk
     all_goals first | exact Or.inr rfl | exact Or.inl (hl _ (by decide)) | skip)
  | dsimp only)

/-- What stopAll may change. -/
theorem stopAll_only {parts : List Part} {s_ s : State} (cause : Nat)
    (h : Only parts s_ s)
    (hl : ∀ p ∈ ([.boot, .link, .tabs, .ev, .ports, .safety, .fences, .pw] : List Part), p ∈ parts) :
    Only parts s_ (stopAll cause s) := by
  unfold stopAll
  repeat' (first
  | with_reducible assumption
  | exact sub_of hl (by decide)
  | with_reducible apply endSequence_only
  | with_reducible apply startStop_only
  | with_reducible apply withdrawPermit_only
  | with_reducible refine eachPort_only ?_ (fun _ _ _ => ?_)
  | split
  | (with_reducible apply Only.mk
     all_goals first | exact Or.inr rfl | exact Or.inl (hl _ (by decide)) | skip)
  | dsimp only)

/-- What sinDemandCmd may change. -/
theorem sinDemandCmd_only {parts : List Part} {s_ s : State} 
    (h : Only parts s_ s)
    (hl : ∀ p ∈ ([.boot, .link, .tabs, .ev, .ports, .safety, .fences, .pw] : List Part), p ∈ parts) :
    Only parts s_ (sinDemandCmd s) := by
  unfold sinDemandCmd
  repeat' (first
  | with_reducible assumption
  | exact sub_of hl (by decide)
  | with_reducible apply deviceEvent_only
  | with_reducible apply stopAll_only
  | split
  | (with_reducible apply Only.mk
     all_goals first | exact Or.inr rfl | exact Or.inl (hl _ (by decide)) | skip)
  | dsimp only)

/-- What ssrDemandCmd may change. -/
theorem ssrDemandCmd_only {parts : List Part} {s_ s : State} 
    (h : Only parts s_ s)
    (hl : ∀ p ∈ ([.boot, .link, .tabs, .ev, .ports, .safety, .fences, .pw] : List Part), p ∈ parts) :
    Only parts s_ (ssrDemandCmd s) := by
  unfold ssrDemandCmd
  repeat' (first
  | with_reducible assumption
  | exact sub_of hl (by decide)
  | with_reducible apply deviceEvent_only
  | with_reducible apply stopAll_only
  | split
  | (with_reducible apply Only.mk
     all_goals first | exact Or.inr rfl | exact Or.inl (hl _ (by decide)) | skip)
  | dsimp only)

/-- What updIn may change. -/
theorem updIn_only {parts : List Part} {s_ s : State} (ssr : Bool) (f : SafeIn → SafeIn)
    (h : Only parts s_ s)
    (hl : ∀ p ∈ ([.safety] : List Part), p ∈ parts) :
    Only parts s_ (updIn ssr f s) := by
  unfold updIn
  repeat' (first
  | with_reducible assumption
  | split
  | (with_reducible apply Only.mk
     all_goals first | exact Or.inr rfl | exact Or.inl (hl _ (by decide)) | skip))

/-- What safetyHealthy may change. -/
theorem safetyHealthy_only {parts : List Part} {s_ s : State} (ssr : Bool)
    (h : Only parts s_ s)
    (hl : ∀ p ∈ ([.link, .safety, .pw] : List Part), p ∈ parts) :
    Only parts s_ (safetyHealthy ssr s) := by
  unfold safetyHealthy
  repeat' (first
  | with_reducible assumption
  | exact sub_of hl (by decide)
  | with_reducible apply deviceEvent_only
  | with_reducible apply updIn_only
  | split
  | (with_reducible apply Only.mk
     all_goals first | exact Or.inr rfl | exact Or.inl (hl _ (by decide)) | skip)
  | dsimp only)

/-- What discrepancy may change. -/
theorem discrepancy_only {parts : List Part} {s_ s : State} (ssr : Bool)
    (h : Only parts s_ s)
    (hl : ∀ p ∈ ([.link, .safety, .pw] : List Part), p ∈ parts) :
    Only parts s_ (discrepancy ssr s) := by
  unfold discrepancy
  repeat' (first
  | with_reducible assumption
  | exact sub_of hl (by decide)
  | with_reducible apply deviceEvent_only
  | with_reducible apply updIn_only
  | split
  | (with_reducible apply Only.mk
     all_goals first | exact Or.inr rfl | exact Or.inl (hl _ (by decide)) | skip)
  | dsimp only)

/-- What restartTimer may change. -/
theorem restartTimer_only {parts : List Part} {s_ s : State} (ssr : Bool)
    (h : Only parts s_ s)
    (hl : ∀ p ∈ ([.safety] : List Part), p ∈ parts) :
    Only parts s_ (restartTimer ssr s) := by
  unfold restartTimer
  repeat' (first
  | with_reducible assumption
  | exact sub_of hl (by decide)
  | with_reducible apply updIn_only
  | split
  | (with_reducible apply Only.mk
     all_goals first | exact Or.inr rfl | exact Or.inl (hl _ (by decide)) | skip)
  | dsimp only)

/-- What sokFault may change. -/
theorem sokFault_only {parts : List Part} {s_ s : State} 
    (h : Only parts s_ s)
    (hl : ∀ p ∈ ([.link, .safety, .pw] : List Part), p ∈ parts) :
    Only parts s_ (sokFault s) := by
  unfold sokFault
  repeat' (first
  | with_reducible assumption
  | exact sub_of hl (by decide)
  | with_reducible apply deviceEvent_only
  | split
  | (with_reducible apply Only.mk
     all_goals first | exact Or.inr rfl | exact Or.inl (hl _ (by decide)) | skip))

/-- What sealScan may change. -/
theorem sealScan_only {parts : List Part} {s_ s : State} (fwd rev : Nat)
    (h : Only parts s_ s)
    (hl : ∀ p ∈ ([.link, .ev, .cairn, .safety, .pw] : List Part), p ∈ parts) :
    Only parts s_ (sealScan fwd rev s) := by
  unfold sealScan
  repeat' (first
  | with_reducible assumption
  | exact sub_of hl (by decide)
  | with_reducible apply cairnK_only
  | with_reducible apply deviceEvent_only
  | with_reducible apply evrec_only
  | split
  | (with_reducible apply Only.mk
     all_goals first | exact Or.inr rfl | exact Or.inl (hl _ (by decide)) | skip)
  | dsimp only)

end Sys2Proof.Machine
end

