-- ==== Sys2Proof/Laws/FrameSystem.lean ====
section
/-!
SUPPORT. What each operation may change, to be cited in place of unfolding it: clocks, host link, logs and boot.
-/

namespace Sys2Proof.Machine

/-! Clocks -/

/-- What clkEvent may change. -/
theorem clkEvent_only {parts : List Part} {s_ s : State} 
    (h : Only parts s_ s)
    (hl : ∀ p ∈ ([.link] : List Part), p ∈ parts) :
    Only parts s_ (clkEvent s) := by
  unfold clkEvent
  repeat' (first
  | with_reducible assumption
  | exact sub_of hl (by decide)
  | with_reducible apply irqSet_only
  | (with_reducible apply Only.mk
     all_goals first | exact Or.inr rfl | exact Or.inl (hl _ (by decide)) | skip))

/-- What clockRec may change. -/
theorem clockRec_only {parts : List Part} {s_ s : State} (k : Clock) (kind : Nat)
    (h : Only parts s_ s)
    (hl : ∀ p ∈ ([.ev] : List Part), p ∈ parts) :
    Only parts s_ (clockRec k kind s) := by
  unfold clockRec
  repeat' (first
  | with_reducible assumption
  | exact sub_of hl (by decide)
  | with_reducible apply evrec_only
  | (with_reducible apply Only.mk
     all_goals first | exact Or.inr rfl | exact Or.inl (hl _ (by decide)) | skip))

/-- What setBusRun may change. -/
theorem setBusRun_only {parts : List Part} {s_ s : State} (v : Bool)
    (h : Only parts s_ s)
    (hl : ∀ p ∈ ([.clk, .link] : List Part), p ∈ parts) :
    Only parts s_ (setBusRun v s) := by
  unfold setBusRun
  repeat' (first
  | with_reducible assumption
  | exact sub_of hl (by decide)
  | with_reducible apply clkEvent_only
  | split
  | (with_reducible apply Only.mk
     all_goals first | exact Or.inr rfl | exact Or.inl (hl _ (by decide)) | skip))

/-- What rtcStopped may change. -/
theorem rtcStopped_only {parts : List Part} {s_ s : State} 
    (h : Only parts s_ s)
    (hl : ∀ p ∈ ([.clk, .link, .ev] : List Part), p ∈ parts) :
    Only parts s_ (rtcStopped s) := by
  unfold rtcStopped
  repeat' (first
  | with_reducible assumption
  | exact sub_of hl (by decide)
  | with_reducible apply clkEvent_only
  | with_reducible apply clockRec_only
  | (with_reducible apply Only.mk
     all_goals first | exact Or.inr rfl | exact Or.inl (hl _ (by decide)) | skip))

/-- What pllRelock may change. -/
theorem pllRelock_only {parts : List Part} {s_ s : State} (k : Clock)
    (h : Only parts s_ s)
    (hl : ∀ p ∈ ([.clk, .link, .ev, .disp] : List Part), p ∈ parts) :
    Only parts s_ (pllRelock k s) := by
  unfold pllRelock
  repeat' (first
  | with_reducible assumption
  | exact sub_of hl (by decide)
  | with_reducible apply clkEvent_only
  | with_reducible apply clockRec_only
  | split
  | (with_reducible apply Only.mk
     all_goals first | exact Or.inr rfl | exact Or.inl (hl _ (by decide)) | skip)
  | dsimp only)

/-- What fenceNf may change. -/
theorem fenceNf_only {parts : List Part} {s_ s : State} (i : Nat) (req : Bool) (cls det : Nat)
    (h : Only parts s_ s)
    (hl : ∀ p ∈ ([.boot, .link, .tabs, .ev, .ports, .fences, .pw] : List Part), p ∈ parts) :
    Only parts s_ (fenceNf i req cls det s) := by
  unfold fenceNf
  repeat' (first
  | with_reducible assumption
  | exact sub_of hl (by decide)
  | with_reducible apply fenceNow_only
  | (with_reducible apply Only.mk
     all_goals first | exact Or.inr rfl | exact Or.inl (hl _ (by decide)) | skip))

/-- What relockFailed may change. -/
theorem relockFailed_only {parts : List Part} {s_ s : State} (k : Clock)
    (h : Only parts s_ s)
    (hl : ∀ p ∈ ([.clk, .boot, .link, .tabs, .ev, .ports, .fences, .pw] : List Part), p ∈ parts) :
    Only parts s_ (relockFailed k s) := by
  unfold relockFailed
  repeat' (first
  | with_reducible assumption
  | exact sub_of hl (by decide)
  | with_reducible apply fenceNf_only
  | with_reducible apply fenceNow_only
  | split
  | (with_reducible apply Only.mk
     all_goals first | exact Or.inr rfl | exact Or.inl (hl _ (by decide)) | skip)
  | dsimp only)

/-- What rtcRestart may change. -/
theorem rtcRestart_only {parts : List Part} {s_ s : State} 
    (h : Only parts s_ s)
    (hl : ∀ p ∈ ([.clk, .link] : List Part), p ∈ parts) :
    Only parts s_ (rtcRestart s) := by
  unfold rtcRestart
  repeat' (first
  | with_reducible assumption
  | exact sub_of hl (by decide)
  | with_reducible apply clkEvent_only
  | split
  | (with_reducible apply Only.mk
     all_goals first | exact Or.inr rfl | exact Or.inl (hl _ (by decide)) | skip))

/-! Link -/

/-- What idleChan may change. -/
theorem idleChan_only {parts : List Part} {s_ s : State} (c : Nat)
    (h : Only parts s_ s)
    (hl : ∀ p ∈ ([.link] : List Part), p ∈ parts) :
    Only parts s_ (idleChan c s) := by
  unfold idleChan
  repeat' (first
  | with_reducible assumption
  | exact sub_of hl (by decide)
  | with_reducible apply setChan_only
  | split
  | (with_reducible apply Only.mk
     all_goals first | exact Or.inr rfl | exact Or.inl (hl _ (by decide)) | skip))

/-- What doorbell may change. -/
theorem doorbell_only {parts : List Part} {s_ s : State} (c : Nat)
    (h : Only parts s_ s)
    (hl : ∀ p ∈ ([.link] : List Part), p ∈ parts) :
    Only parts s_ (doorbell c s) := by
  unfold doorbell
  repeat' (first
  | with_reducible assumption
  | exact sub_of hl (by decide)
  | with_reducible apply hlErr_only
  | split
  | (with_reducible apply Only.mk
     all_goals first | exact Or.inr rfl | exact Or.inl (hl _ (by decide)) | skip)
  | dsimp only)

/-- What takeRoute may change. -/
theorem takeRoute_only {parts : List Part} {s_ s : State} (c : Nat)
    (h : Only parts s_ s)
    (hl : ∀ p ∈ ([.link] : List Part), p ∈ parts) :
    Only parts s_ (takeRoute c s) := by
  unfold takeRoute
  repeat' (first
  | with_reducible assumption
  | exact sub_of hl (by decide)
  | with_reducible apply setChan_only
  | split
  | (with_reducible apply Only.mk
     all_goals first | exact Or.inr rfl | exact Or.inl (hl _ (by decide)) | skip)
  | dsimp only)

/-- What responseRelease may change. -/
theorem responseRelease_only {parts : List Part} {s_ s : State} (c : Nat)
    (h : Only parts s_ s)
    (hl : ∀ p ∈ ([.link] : List Part), p ∈ parts) :
    Only parts s_ (responseRelease c s) := by
  unfold responseRelease
  repeat' (first
  | with_reducible assumption
  | exact sub_of hl (by decide)
  | with_reducible apply idleChan_only
  | with_reducible apply takeRoute_only
  | split
  | (with_reducible apply Only.mk
     all_goals first | exact Or.inr rfl | exact Or.inl (hl _ (by decide)) | skip)
  | dsimp only)

/-- What registerWrite may change. -/
theorem registerWrite_only {parts : List Part} {s_ s : State} (addr value : Nat)
    (h : Only parts s_ s)
    (hl : ∀ p ∈ ([.clk, .boot, .link] : List Part), p ∈ parts) :
    Only parts s_ (registerWrite addr value s) := by
  unfold registerWrite
  repeat' (first
  | with_reducible assumption
  | split
  | (with_reducible apply Only.mk
     all_goals first | exact Or.inr rfl | exact Or.inl (hl _ (by decide)) | skip)
  | dsimp only)

/-- What updImg may change. -/
theorem updImg_only {parts : List Part} {s_ s : State} (code : Nat) (f : Image → Image)
    (h : Only parts s_ s)
    (hl : ∀ p ∈ ([.boot] : List Part), p ∈ parts) :
    Only parts s_ (updImg code f s) := by
  unfold updImg
  repeat' (first
  | with_reducible assumption
  | split
  | (with_reducible apply Only.mk
     all_goals first | exact Or.inr rfl | exact Or.inl (hl _ (by decide)) | skip))

/-- What markVerifying may change. -/
theorem markVerifying_only {parts : List Part} {s_ s : State} 
    (h : Only parts s_ s)
    (hl : ∀ p ∈ ([.boot] : List Part), p ∈ parts) :
    Only parts s_ (markVerifying s) := by
  unfold markVerifying
  repeat' (first
  | with_reducible assumption
  | exact sub_of hl (by decide)
  | with_reducible apply updImg_only
  | split
  | (with_reducible apply Only.mk
     all_goals first | exact Or.inr rfl | exact Or.inl (hl _ (by decide)) | skip)
  | dsimp only)

/-- What bwSubmit may change. -/
theorem bwSubmit_only {parts : List Part} {s_ s : State} 
    (h : Only parts s_ s)
    (hl : ∀ p ∈ ([.boot] : List Part), p ∈ parts) :
    Only parts s_ (bwSubmit s) := by
  unfold bwSubmit
  repeat' (first
  | with_reducible assumption
  | exact sub_of hl (by decide)
  | with_reducible apply markVerifying_only
  | split
  | (with_reducible apply Only.mk
     all_goals first | exact Or.inr rfl | exact Or.inl (hl _ (by decide)) | skip)
  | dsimp only)

/-- What bwRelease may change. -/
theorem bwRelease_only {parts : List Part} {s_ s : State} 
    (h : Only parts s_ s)
    (hl : ∀ p ∈ ([.boot] : List Part), p ∈ parts) :
    Only parts s_ (bwRelease s) := by
  unfold bwRelease
  repeat' (first
  | with_reducible assumption
  | split
  | (with_reducible apply Only.mk
     all_goals first | exact Or.inr rfl | exact Or.inl (hl _ (by decide)) | skip))

/-- What bwAbort may change. -/
theorem bwAbort_only {parts : List Part} {s_ s : State} 
    (h : Only parts s_ s)
    (hl : ∀ p ∈ ([.boot] : List Part), p ∈ parts) :
    Only parts s_ (bwAbort s) := by
  unfold bwAbort
  repeat' (first
  | with_reducible assumption
  | exact sub_of hl (by decide)
  | with_reducible apply updImg_only
  | split
  | (with_reducible apply Only.mk
     all_goals first | exact Or.inr rfl | exact Or.inl (hl _ (by decide)) | skip)
  | dsimp only)

/-- What bwCtrl may change. -/
theorem bwCtrl_only {parts : List Part} {s_ s : State} (v : Nat)
    (h : Only parts s_ s)
    (hl : ∀ p ∈ ([.boot] : List Part), p ∈ parts) :
    Only parts s_ (bwCtrl v s) := by
  unfold bwCtrl
  repeat' (first
  | with_reducible assumption
  | exact sub_of hl (by decide)
  | with_reducible apply bwAbort_only
  | with_reducible apply bwRelease_only
  | with_reducible apply bwSubmit_only
  | split
  | (with_reducible apply Only.mk
     all_goals first | exact Or.inr rfl | exact Or.inl (hl _ (by decide)) | skip)
  | dsimp only)

/-- What idWrite may change. -/
theorem idWrite_only {parts : List Part} {s_ s : State} (addr value : Nat)
    (h : Only parts s_ s)
    (hl : ∀ p ∈ ([.clk, .boot, .link] : List Part), p ∈ parts) :
    Only parts s_ (idWrite addr value s) := by
  unfold idWrite
  repeat' (first
  | with_reducible assumption
  | exact sub_of hl (by decide)
  | with_reducible apply doorbell_only
  | with_reducible apply registerWrite_only
  | with_reducible apply responseRelease_only
  | with_reducible refine foldN_only _ ?_ (fun _ _ _ => ?_)
  | split
  | (with_reducible apply Only.mk
     all_goals first | exact Or.inr rfl | exact Or.inl (hl _ (by decide)) | skip)
  | dsimp only)

/-- What bwWrite may change. -/
theorem bwWrite_only {parts : List Part} {s_ s : State} (addr value : Nat)
    (h : Only parts s_ s)
    (hl : ∀ p ∈ ([.clk, .boot, .link, .hostMem] : List Part), p ∈ parts) :
    Only parts s_ (bwWrite addr value s) := by
  unfold bwWrite
  repeat' (first
  | with_reducible assumption
  | exact sub_of hl (by decide)
  | with_reducible apply bwCtrl_only
  | with_reducible apply registerWrite_only
  | split
  | (with_reducible apply Only.mk
     all_goals first | exact Or.inr rfl | exact Or.inl (hl _ (by decide)) | skip))

/-- What refuseWrite may change. -/
theorem refuseWrite_only {parts : List Part} {s_ s : State} 
    (h : Only parts s_ s)
    (hl : ∀ p ∈ ([.link] : List Part), p ∈ parts) :
    Only parts s_ (refuseWrite s) := by
  unfold refuseWrite
  repeat' (first
  | with_reducible assumption
  | exact sub_of hl (by decide)
  | with_reducible apply hlErr_only
  | (with_reducible apply Only.mk
     all_goals first | exact Or.inr rfl | exact Or.inl (hl _ (by decide)) | skip))

/-- What frameAbandoned may change. -/
theorem frameAbandoned_only {parts : List Part} {s_ s : State} (bus : Bool)
    (h : Only parts s_ s)
    (hl : ∀ p ∈ ([.link] : List Part), p ∈ parts) :
    Only parts s_ (frameAbandoned bus s) := by
  unfold frameAbandoned
  repeat' (first
  | with_reducible assumption
  | exact sub_of hl (by decide)
  | with_reducible apply hlErr_only
  | split
  | (with_reducible apply Only.mk
     all_goals first | exact Or.inr rfl | exact Or.inl (hl _ (by decide)) | skip)
  | dsimp only)

/-- What hcsEarlyRise may change. -/
theorem hcsEarlyRise_only {parts : List Part} {s_ s : State} 
    (h : Only parts s_ s)
    (hl : ∀ p ∈ ([.link] : List Part), p ∈ parts) :
    Only parts s_ (hcsEarlyRise s) := by
  unfold hcsEarlyRise
  repeat' (first
  | with_reducible assumption
  | exact sub_of hl (by decide)
  | with_reducible apply hlErr_only
  | split
  | (with_reducible apply Only.mk
     all_goals first | exact Or.inr rfl | exact Or.inl (hl _ (by decide)) | skip))

/-- What notificationDeliver may change. -/
theorem notificationDeliver_only {parts : List Part} {s_ s : State} 
    (h : Only parts s_ s)
    (hl : ∀ p ∈ ([.link, .hostMem] : List Part), p ∈ parts) :
    Only parts s_ (notificationDeliver s) := by
  unfold notificationDeliver
  repeat' (first
  | with_reducible assumption
  | exact sub_of hl (by decide)
  | with_reducible apply irqSet_only
  | with_reducible refine fwWrite_only _ (by decide) ?_
  | split
  | (with_reducible apply Only.mk
     all_goals first | exact Or.inr rfl | exact Or.inl (hl _ (by decide)) | skip)
  | dsimp only)

/-! Cairn -/

/-- What cairnStore may change. -/
theorem cairnStore_only {parts : List Part} {s_ s : State} (e : CairnEntry)
    (h : Only parts s_ s)
    (hl : ∀ p ∈ ([.link, .cairn] : List Part), p ∈ parts) :
    Only parts s_ (cairnStore e s) := by
  unfold cairnStore
  repeat' (first
  | with_reducible assumption
  | split
  | (with_reducible apply Only.mk
     all_goals first | exact Or.inr rfl | exact Or.inl (hl _ (by decide)) | skip)
  | dsimp only)

/-- What sealEntryEnds may change. -/
theorem sealEntryEnds_only {parts : List Part} {s_ s : State} (tok : Nat) (written : Bool)
    (h : Only parts s_ s)
    (hl : ∀ p ∈ ([.sealIn] : List Part), p ∈ parts) :
    Only parts s_ (sealEntryEnds tok written s) := by
  unfold sealEntryEnds
  repeat' (first
  | with_reducible assumption
  | split
  | (with_reducible apply Only.mk
     all_goals first | exact Or.inr rfl | exact Or.inl (hl _ (by decide)) | skip))

/-- What cairnWrite may change. -/
theorem cairnWrite_only {parts : List Part} {s_ s : State} 
    (h : Only parts s_ s)
    (hl : ∀ p ∈ ([.link, .cairn, .sealIn] : List Part), p ∈ parts) :
    Only parts s_ (cairnWrite s) := by
  unfold cairnWrite
  repeat' (first
  | with_reducible assumption
  | exact sub_of hl (by decide)
  | with_reducible apply cairnStore_only
  | with_reducible apply sealEntryEnds_only
  | split
  | (with_reducible apply Only.mk
     all_goals first | exact Or.inr rfl | exact Or.inl (hl _ (by decide)) | skip)
  | dsimp only)

/-! EvLog -/

/-- What raiseReserved may change. -/
theorem raiseReserved_only {parts : List Part} {s_ s : State} 
    (h : Only parts s_ s)
    (hl : ∀ p ∈ ([.ev] : List Part), p ∈ parts) :
    Only parts s_ (raiseReserved s) := by
  unfold raiseReserved
  repeat' (first
  | with_reducible assumption
  | with_reducible refine sysWrite_only _ _ (by decide) ?_ ?_
  | split
  | (with_reducible apply Only.mk
     all_goals first | exact Or.inr rfl | exact Or.inl (hl _ (by decide)) | skip)
  | dsimp only)

/-- What clearAnswer may change. -/
theorem clearAnswer_only {parts : List Part} {s_ s : State} (ch seq : Nat)
    (h : Only parts s_ s)
    (hl : ∀ p ∈ ([.link, .hostMem, .ev] : List Part), p ∈ parts) :
    Only parts s_ (clearAnswer ch seq s) := by
  unfold clearAnswer
  repeat' (first
  | with_reducible assumption
  | exact sub_of hl (by decide)
  | with_reducible apply answer_only
  | split
  | (with_reducible apply Only.mk
     all_goals first | exact Or.inr rfl | exact Or.inl (hl _ (by decide)) | skip)
  | dsimp only)

/-- What evClearBody may change. -/
theorem evClearBody_only {parts : List Part} {s_ s : State} (ch : Nat) (pl : List Byte)
    (h : Only parts s_ s)
    (hl : ∀ p ∈ ([.ev] : List Part), p ∈ parts) :
    Only parts s_ (evClearBody ch pl s).2 := by
  unfold evClearBody
  repeat' (first
  | with_reducible assumption
  | exact sub_of hl (by decide)
  | with_reducible apply evrec_only
  | with_reducible refine sysWrite_only _ _ (by decide) ?_ ?_
  | with_reducible apply ok_only
  | with_reducible apply no_only
  | split
  | (with_reducible apply Only.mk
     all_goals first | exact Or.inr rfl | exact Or.inl (hl _ (by decide)) | skip)
  | dsimp only)

/-! BootLoad -/

/-- What failImg may change. -/
theorem failImg_only {parts : List Part} {s_ s : State} (code : Nat)
    (h : Only parts s_ s)
    (hl : ∀ p ∈ ([.boot] : List Part), p ∈ parts) :
    Only parts s_ (failImg code s) := by
  unfold failImg
  repeat' (first
  | with_reducible assumption
  | exact sub_of hl (by decide)
  | with_reducible apply updImg_only
  | split
  | (with_reducible apply Only.mk
     all_goals first | exact Or.inr rfl | exact Or.inl (hl _ (by decide)) | skip)
  | dsimp only)

/-- What chunkDone may change. -/
theorem chunkDone_only {parts : List Part} {s_ s : State} (k : Chunk) (st : Nat)
    (h : Only parts s_ s)
    (hl : ∀ p ∈ ([.boot, .link] : List Part), p ∈ parts) :
    Only parts s_ (chunkDone k st s) := by
  unfold chunkDone
  repeat' (first
  | with_reducible assumption
  | exact sub_of hl (by decide)
  | with_reducible apply irqSet_only
  | with_reducible apply markVerifying_only
  | (with_reducible apply Only.mk
     all_goals first | exact Or.inr rfl | exact Or.inl (hl _ (by decide)) | skip)
  | dsimp only)

/-- What sealOr may change. -/
theorem sealOr_only {parts : List Part} {s_ s : State} (m : List Byte)
    (h : Only parts s_ s)
    (hl : ∀ p ∈ ([.boot] : List Part), p ∈ parts) :
    Only parts s_ (sealOr m s) := by
  unfold sealOr
  repeat' (first
  | with_reducible assumption
  | (with_reducible apply Only.mk
     all_goals first | exact Or.inr rfl | exact Or.inl (hl _ (by decide)) | skip))

/-- What closeWindow may change. -/
theorem closeWindow_only {parts : List Part} {s_ s : State} 
    (h : Only parts s_ s)
    (hl : ∀ p ∈ ([.boot] : List Part), p ∈ parts) :
    Only parts s_ (closeWindow s) := by
  unfold closeWindow
  repeat' (first
  | with_reducible assumption
  | split
  | (with_reducible apply Only.mk
     all_goals first | exact Or.inr rfl | exact Or.inl (hl _ (by decide)) | skip)
  | dsimp only)

end Sys2Proof.Machine
end

