-- ==== Sys2Proof/Laws/FrameMeter.lean ====
section
/-!
SUPPORT. What each operation may change, to be cited in place of unfolding it: metering, energy, fences and calibration.
-/

namespace Sys2Proof.Machine

/-! Decimate -/

/-- What decTick may change. -/
theorem decTick_only {parts : List Part} {s_ s : State} (i : TickIn)
    (h : Only parts s_ s)
    (hl : ∀ p ∈ ([.meter] : List Part), p ∈ parts) :
    Only parts s_ (decTick i s) := by
  unfold decTick
  repeat' (first
  | with_reducible assumption
  | exact sub_of hl (by decide)
  | with_reducible apply updStream_only
  | with_reducible refine foldl_only ?_ (fun _ _ _ => ?_)
  | (with_reducible apply Only.mk
     all_goals first | exact Or.inr rfl | exact Or.inl (hl _ (by decide)) | skip)
  | dsimp only)

/-! Meter -/

/-- What substReport may change. -/
theorem substReport_only {parts : List Part} {s_ s : State} (k : Nat) (failed : Bool)
    (h : Only parts s_ s)
    (hl : ∀ p ∈ ([.cairn, .meter] : List Part), p ∈ parts) :
    Only parts s_ (substReport k failed s) := by
  unfold substReport
  repeat' (first
  | with_reducible assumption
  | exact sub_of hl (by decide)
  | with_reducible apply cairnO_only
  | with_reducible apply updStream_only
  | split
  | (with_reducible apply Only.mk
     all_goals first | exact Or.inr rfl | exact Or.inl (hl _ (by decide)) | skip)
  | dsimp only)

/-- What holdEntry may change. -/
theorem holdEntry_only {parts : List Part} {s_ s : State} (p x mode dur : Nat)
    (h : Only parts s_ s)
    (hl : ∀ p ∈ ([.cairn] : List Part), p ∈ parts) :
    Only parts s_ (holdEntry p x mode dur s) := by
  unfold holdEntry
  repeat' (first
  | with_reducible assumption
  | exact sub_of hl (by decide)
  | with_reducible apply cairnO_only
  | (with_reducible apply Only.mk
     all_goals first | exact Or.inr rfl | exact Or.inl (hl _ (by decide)) | skip))

/-- What escapeEntry may change. -/
theorem escapeEntry_only {parts : List Part} {s_ s : State} (p x : Nat) (was : Nat)
    (h : Only parts s_ s)
    (hl : ∀ p ∈ ([.cairn] : List Part), p ∈ parts) :
    Only parts s_ (escapeEntry p x was s) := by
  unfold escapeEntry
  repeat' (first
  | with_reducible assumption
  | exact sub_of hl (by decide)
  | with_reducible apply holdEntry_only
  | split
  | (with_reducible apply Only.mk
     all_goals first | exact Or.inr rfl | exact Or.inl (hl _ (by decide)) | skip))

/-- What laneTick may change. -/
theorem laneTick_only {parts : List Part} {s_ s : State} (fqs : List (Option Rat)) (p : Nat)
    (h : Only parts s_ s)
    (hl : ∀ p ∈ ([.cairn, .meter] : List Part), p ∈ parts) :
    Only parts s_ (laneTick fqs p s) := by
  unfold laneTick
  repeat' (first
  | with_reducible assumption
  | exact sub_of hl (by decide)
  | with_reducible apply escapeEntry_only
  | with_reducible apply updPh_only
  | with_reducible refine foldN_only _ ?_ (fun _ _ _ => ?_)
  | split
  | (with_reducible apply Only.mk
     all_goals first | exact Or.inr rfl | exact Or.inl (hl _ (by decide)) | skip)
  | dsimp only)

/-- What lanesTick may change. -/
theorem lanesTick_only {parts : List Part} {s_ s0 : State} 
    (h : Only parts s_ s0)
    (hl : ∀ p ∈ ([.cairn, .meter] : List Part), p ∈ parts) :
    Only parts s_ (lanesTick s0) := by
  unfold lanesTick
  repeat' (first
  | with_reducible assumption
  | exact sub_of hl (by decide)
  | with_reducible apply laneTick_only
  | with_reducible apply updGrp_only
  | with_reducible refine foldN_only _ ?_ (fun _ _ _ => ?_)
  | with_reducible refine eachPort_only ?_ (fun _ _ _ => ?_)
  | split
  | (with_reducible apply Only.mk
     all_goals first | exact Or.inr rfl | exact Or.inl (hl _ (by decide)) | skip)
  | dsimp only)

/-- What meterTick may change. -/
theorem meterTick_only {parts : List Part} {s_ s : State} (i : TickIn)
    (h : Only parts s_ s)
    (hl : ∀ p ∈ ([.cairn, .meter] : List Part), p ∈ parts) :
    Only parts s_ (meterTick i s) := by
  unfold meterTick
  repeat' (first
  | with_reducible assumption
  | exact sub_of hl (by decide)
  | with_reducible apply lanesTick_only
  | with_reducible apply substReport_only
  | with_reducible apply updStream_only
  | with_reducible refine foldN_only _ ?_ (fun _ _ _ => ?_)
  | split
  | (with_reducible apply Only.mk
     all_goals first | exact Or.inr rfl | exact Or.inl (hl _ (by decide)) | skip)
  | dsimp only)

/-! Cycle -/

/-- What endHold may change. -/
theorem endHold_only {parts : List Part} {s_ s : State} (p x : Nat)
    (h : Only parts s_ s)
    (hl : ∀ p ∈ ([.cairn, .meter] : List Part), p ∈ parts) :
    Only parts s_ (endHold p x s) := by
  unfold endHold
  repeat' (first
  | with_reducible assumption
  | exact sub_of hl (by decide)
  | with_reducible apply holdEntry_only
  | with_reducible apply updPh_only
  | split
  | (with_reducible apply Only.mk
     all_goals first | exact Or.inr rfl | exact Or.inl (hl _ (by decide)) | skip)
  | dsimp only)

/-- What startHold may change. -/
theorem startHold_only {parts : List Part} {s_ s : State} (p x mode secs : Nat)
    (h : Only parts s_ s)
    (hl : ∀ p ∈ ([.cairn, .meter, .ports] : List Part), p ∈ parts) :
    Only parts s_ (startHold p x mode secs s) := by
  unfold startHold
  repeat' (first
  | with_reducible assumption
  | exact sub_of hl (by decide)
  | with_reducible apply endHold_only
  | with_reducible apply holdEnd_only
  | with_reducible apply holdEntry_only
  | with_reducible apply updPh_only
  | split
  | (with_reducible apply Only.mk
     all_goals first | exact Or.inr rfl | exact Or.inl (hl _ (by decide)) | skip)
  | dsimp only)

/-- What holdCycle may change. -/
theorem holdCycle_only {parts : List Part} {s_ s : State} (p x : Nat)
    (h : Only parts s_ s)
    (hl : ∀ p ∈ ([.cairn, .meter, .ports] : List Part), p ∈ parts) :
    Only parts s_ (holdCycle p x s) := by
  unfold holdCycle
  repeat' (first
  | with_reducible assumption
  | exact sub_of hl (by decide)
  | with_reducible apply endHold_only
  | with_reducible apply startHold_only
  | with_reducible apply updPh_only
  | split
  | (with_reducible apply Only.mk
     all_goals first | exact Or.inr rfl | exact Or.inl (hl _ (by decide)) | skip)
  | dsimp only)

/-- What lanePort may change. -/
theorem lanePort_only {parts : List Part} {s_ s : State} (e : CycEnd) (p : Nat)
    (h : Only parts s_ s)
    (hl : ∀ p ∈ ([.cairn, .meter, .ports] : List Part), p ∈ parts) :
    Only parts s_ (lanePort e p s) := by
  unfold lanePort
  repeat' (first
  | with_reducible assumption
  | exact sub_of hl (by decide)
  | with_reducible apply holdCycle_only
  | with_reducible apply updPh_only
  | with_reducible apply updPort_only
  | with_reducible refine foldN_only _ ?_ (fun _ _ _ => ?_)
  | (with_reducible apply Only.mk
     all_goals first | exact Or.inr rfl | exact Or.inl (hl _ (by decide)) | skip)
  | dsimp only)

/-- What evsCycle may change. -/
theorem evsCycle_only {parts : List Part} {s_ s : State} (g : Nat)
    (h : Only parts s_ s)
    (hl : ∀ p ∈ ([.meter] : List Part), p ∈ parts) :
    Only parts s_ (evsCycle s g) := by
  unfold evsCycle
  repeat' (first
  | with_reducible assumption
  | exact sub_of hl (by decide)
  | with_reducible apply updGrp_only
  | (with_reducible apply Only.mk
     all_goals first | exact Or.inr rfl | exact Or.inl (hl _ (by decide)) | skip)
  | dsimp only)

/-- What endCycle may change. -/
theorem endCycle_only {parts : List Part} {s_ s : State} (g : Nat) (e : CycEnd)
    (h : Only parts s_ s)
    (hl : ∀ p ∈ ([.cairn, .meter, .cal, .ports] : List Part), p ∈ parts) :
    Only parts s_ (endCycle g e s) := by
  unfold endCycle
  repeat' (first
  | with_reducible assumption
  | exact sub_of hl (by decide)
  | with_reducible apply evsCycle_only
  | with_reducible apply lanePort_only
  | with_reducible apply markSwap_only
  | with_reducible apply updGrp_only
  | with_reducible apply updPh_only
  | with_reducible apply updStream_only
  | with_reducible refine foldN_only _ ?_ (fun _ _ _ => ?_)
  | with_reducible refine eachPort_only ?_ (fun _ _ _ => ?_)
  | split
  | (with_reducible apply Only.mk
     all_goals first | exact Or.inr rfl | exact Or.inl (hl _ (by decide)) | skip)
  | dsimp only)

/-- What cycleRow may change. -/
theorem cycleRow_only {parts : List Part} {s_ s : State} (kind g : Nat)
    (h : Only parts s_ s)
    (hl : ∀ p ∈ ([.cairn, .meter, .cal, .ports] : List Part), p ∈ parts) :
    Only parts s_ (cycleRow kind g s) := by
  unfold cycleRow
  repeat' (first
  | with_reducible assumption
  | exact sub_of hl (by decide)
  | with_reducible apply endCycle_only
  | split
  | (with_reducible apply Only.mk
     all_goals first | exact Or.inr rfl | exact Or.inl (hl _ (by decide)) | skip)
  | dsimp only)

/-- What evReport may change. -/
theorem evReport_only {parts : List Part} {s_ s : State} (g ev st worst : Nat)
    (h : Only parts s_ s)
    (hl : ∀ p ∈ ([.link, .ev, .cairn, .pw] : List Part), p ∈ parts) :
    Only parts s_ (evReport g ev st worst s) := by
  unfold evReport
  repeat' (first
  | with_reducible assumption
  | exact sub_of hl (by decide)
  | with_reducible apply cairnO_only
  | with_reducible apply evrec_only
  | with_reducible apply notify_only
  | split
  | (with_reducible apply Only.mk
     all_goals first | exact Or.inr rfl | exact Or.inl (hl _ (by decide)) | skip)
  | dsimp only)

/-- What updEv may change. -/
theorem updEv_only {parts : List Part} {s_ s : State} (g ev : Nat) (f : SupEv → SupEv)
    (h : Only parts s_ s)
    (hl : ∀ p ∈ ([.meter] : List Part), p ∈ parts) :
    Only parts s_ (updEv g ev f s) := by
  unfold updEv
  repeat' (first
  | with_reducible assumption
  | exact sub_of hl (by decide)
  | with_reducible apply updGrp_only
  | (with_reducible apply Only.mk
     all_goals first | exact Or.inr rfl | exact Or.inl (hl _ (by decide)) | skip)
  | dsimp only)

/-- What supplyEventChange may change. -/
theorem supplyEventChange_only {parts : List Part} {s_ s : State} (g : Nat)
    (h : Only parts s_ s)
    (hl : ∀ p ∈ ([.boot, .link, .tabs, .ev, .cairn, .meter, .ports, .safety, .fences, .pw] : List Part), p ∈ parts) :
    Only parts s_ (supplyEventChange g s) := by
  unfold supplyEventChange
  repeat' (first
  | with_reducible assumption
  | exact sub_of hl (by decide)
  | with_reducible apply evReport_only
  | with_reducible apply startStop_only
  | with_reducible apply updEv_only
  | with_reducible apply updGrp_only
  | with_reducible refine eachPort_only ?_ (fun _ _ _ => ?_)
  | split
  | (with_reducible apply Only.mk
     all_goals first | exact Or.inr rfl | exact Or.inl (hl _ (by decide)) | skip)
  | dsimp only)

/-- What harmonicWindowEnd may change. -/
theorem harmonicWindowEnd_only {parts : List Part} {s_ s : State} (g : Nat)
    (h : Only parts s_ s)
    (hl : ∀ p ∈ ([.meter] : List Part), p ∈ parts) :
    Only parts s_ (harmonicWindowEnd g s) := by
  unfold harmonicWindowEnd
  repeat' (first
  | with_reducible assumption
  | exact sub_of hl (by decide)
  | with_reducible apply updGrp_only
  | with_reducible apply updPh_only
  | with_reducible refine foldN_only _ ?_ (fun _ _ _ => ?_)
  | with_reducible refine eachPort_only ?_ (fun _ _ _ => ?_)
  | split
  | (with_reducible apply Only.mk
     all_goals first | exact Or.inr rfl | exact Or.inl (hl _ (by decide)) | skip)
  | dsimp only)

/-! PulseOut -/

/-- What pulsesTick may change. -/
theorem pulsesTick_only {parts : List Part} {s_ s : State} (commit : Bool)
    (h : Only parts s_ s)
    (hl : ∀ p ∈ ([.meter] : List Part), p ∈ parts) :
    Only parts s_ (pulsesTick commit s) := by
  unfold pulsesTick
  repeat' (first
  | with_reducible assumption
  | (with_reducible apply Only.mk
     all_goals first | exact Or.inr rfl | exact Or.inl (hl _ (by decide)) | skip))

/-! Energy -/

/-- What commitRegs may change. -/
theorem commitRegs_only {parts : List Part} {s_ s : State} (words : List (Nat × Nat)) (forced : Bool)
    (h : Only parts s_ s)
    (hl : ∀ p ∈ ([.meter, .eg] : List Part), p ∈ parts) :
    Only parts s_ (commitRegs words forced s) := by
  unfold commitRegs
  repeat' (first
  | with_reducible assumption
  | with_reducible refine foldl_only ?_ (fun _ _ _ => ?_)
  | split
  | (with_reducible apply Only.mk
     all_goals first | exact Or.inr rfl | exact Or.inl (hl _ (by decide)) | skip)
  | dsimp only)

/-- What lossBegins may change. -/
theorem lossBegins_only {parts : List Part} {s_ s : State} (t : Nat)
    (h : Only parts s_ s)
    (hl : ∀ p ∈ ([.eg] : List Part), p ∈ parts) :
    Only parts s_ (lossBegins t s) := by
  unfold lossBegins
  repeat' (first
  | with_reducible assumption
  | split
  | (with_reducible apply Only.mk
     all_goals first | exact Or.inr rfl | exact Or.inl (hl _ (by decide)) | skip))

/-- What supplyReturn may change. -/
theorem supplyReturn_only {parts : List Part} {s_ s : State} (t : Nat)
    (h : Only parts s_ s)
    (hl : ∀ p ∈ ([.cairn, .eg] : List Part), p ∈ parts) :
    Only parts s_ (supplyReturn t s) := by
  unfold supplyReturn
  repeat' (first
  | with_reducible assumption
  | exact sub_of hl (by decide)
  | with_reducible apply cairnO_only
  | split
  | (with_reducible apply Only.mk
     all_goals first | exact Or.inr rfl | exact Or.inl (hl _ (by decide)) | skip)
  | dsimp only)

/-- What sealBehind may change. -/
theorem sealBehind_only {parts : List Part} {s_ s : State} 
    (h : Only parts s_ s)
    (hl : ∀ p ∈ ([.cairn] : List Part), p ∈ parts) :
    Only parts s_ (sealBehind s) := by
  unfold sealBehind
  repeat' (first
  | with_reducible assumption
  | (with_reducible apply Only.mk
     all_goals first | exact Or.inr rfl | exact Or.inl (hl _ (by decide)) | skip))

/-- What lossLogged may change. -/
theorem lossLogged_only {parts : List Part} {s_ s : State} 
    (h : Only parts s_ s)
    (hl : ∀ p ∈ ([.cairn, .safety] : List Part), p ∈ parts) :
    Only parts s_ (lossLogged s) := by
  unfold lossLogged
  repeat' (first
  | with_reducible assumption
  | exact sub_of hl (by decide)
  | with_reducible apply cairnO_only
  | with_reducible apply sealBehind_only
  | with_reducible apply writeKsRecord_only
  | split
  | (with_reducible apply Only.mk
     all_goals first | exact Or.inr rfl | exact Or.inl (hl _ (by decide)) | skip)
  | dsimp only)

/-- What lossAgain may change. -/
theorem lossAgain_only {parts : List Part} {s_ s : State} (t : Nat)
    (h : Only parts s_ s)
    (hl : ∀ p ∈ ([.cairn, .eg, .safety] : List Part), p ∈ parts) :
    Only parts s_ (lossAgain t s) := by
  unfold lossAgain
  repeat' (first
  | with_reducible assumption
  | exact sub_of hl (by decide)
  | with_reducible apply lossBegins_only
  | with_reducible apply lossLogged_only
  | with_reducible apply supplyReturn_only
  | split
  | (with_reducible apply Only.mk
     all_goals first | exact Or.inr rfl | exact Or.inl (hl _ (by decide)) | skip)
  | dsimp only)

/-- What afterForced may change. -/
theorem afterForced_only {parts : List Part} {s_ s : State} 
    (h : Only parts s_ s)
    (hl : ∀ p ∈ ([.cairn, .eg, .safety] : List Part), p ∈ parts) :
    Only parts s_ (afterForced s) := by
  unfold afterForced
  repeat' (first
  | with_reducible assumption
  | exact sub_of hl (by decide)
  | with_reducible apply lossAgain_only
  | with_reducible apply lossLogged_only
  | with_reducible apply supplyReturn_only
  | split
  | (with_reducible apply Only.mk
     all_goals first | exact Or.inr rfl | exact Or.inl (hl _ (by decide)) | skip)
  | dsimp only)

/-- What commitNow may change. -/
theorem commitNow_only {parts : List Part} {s_ s : State} (words : List (Nat × Nat))
    (h : Only parts s_ s)
    (hl : ∀ p ∈ ([.cairn, .meter, .eg, .safety] : List Part), p ∈ parts) :
    Only parts s_ (commitNow words s) := by
  unfold commitNow
  repeat' (first
  | with_reducible assumption
  | exact sub_of hl (by decide)
  | with_reducible apply afterForced_only
  | with_reducible apply commitRegs_only
  | split
  | (with_reducible apply Only.mk
     all_goals first | exact Or.inr rfl | exact Or.inl (hl _ (by decide)) | skip)
  | dsimp only)

/-- What rebuild may change. -/
theorem rebuild_only {parts : List Part} {s_ s : State} (errs : List Nat) (r e : Nat)
    (h : Only parts s_ s)
    (hl : ∀ p ∈ ([.cairn, .eg] : List Part), p ∈ parts) :
    Only parts s_ (rebuild errs r e s) := by
  unfold rebuild
  repeat' (first
  | with_reducible assumption
  | exact sub_of hl (by decide)
  | with_reducible apply cairnO_only
  | split
  | (with_reducible apply Only.mk
     all_goals first | exact Or.inr rfl | exact Or.inl (hl _ (by decide)) | skip)
  | dsimp only)

/-- What holdPort may change. -/
theorem holdPort_only {parts : List Part} {s_ s : State} (p r : Nat)
    (h : Only parts s_ s)
    (hl : ∀ p ∈ ([.cairn, .eg] : List Part), p ∈ parts) :
    Only parts s_ (holdPort p r s) := by
  unfold holdPort
  repeat' (first
  | with_reducible assumption
  | exact sub_of hl (by decide)
  | with_reducible apply cairnO_only
  | (with_reducible apply Only.mk
     all_goals first | exact Or.inr rfl | exact Or.inl (hl _ (by decide)) | skip)
  | dsimp only)

/-- What checkPort may change. -/
theorem checkPort_only {parts : List Part} {s_ s : State} (errs : List Nat) (p q : Nat)
    (h : Only parts s_ s)
    (hl : ∀ p ∈ ([.cairn, .eg] : List Part), p ∈ parts) :
    Only parts s_ (checkPort errs p q s) := by
  unfold checkPort
  repeat' (first
  | with_reducible assumption
  | exact sub_of hl (by decide)
  | with_reducible apply holdPort_only
  | with_reducible apply rebuild_only
  | with_reducible refine foldl_only ?_ (fun _ _ _ => ?_)
  | split
  | (with_reducible apply Only.mk
     all_goals first | exact Or.inr rfl | exact Or.inl (hl _ (by decide)) | skip)
  | dsimp only)

/-- What checkHub may change. -/
theorem checkHub_only {parts : List Part} {s_ s : State} (errs : List Nat) (q : Nat)
    (h : Only parts s_ s)
    (hl : ∀ p ∈ ([.cairn, .eg] : List Part), p ∈ parts) :
    Only parts s_ (checkHub errs q s) := by
  unfold checkHub
  repeat' (first
  | with_reducible assumption
  | exact sub_of hl (by decide)
  | with_reducible apply rebuild_only
  | with_reducible refine foldN_only _ ?_ (fun _ _ _ => ?_)
  | (with_reducible apply Only.mk
     all_goals first | exact Or.inr rfl | exact Or.inl (hl _ (by decide)) | skip)
  | dsimp only)

/-- What readImage may change. -/
theorem readImage_only {parts : List Part} {s_ s : State} (errs : List Nat)
    (h : Only parts s_ s)
    (hl : ∀ p ∈ ([.eg, .draws] : List Part), p ∈ parts) :
    Only parts s_ (readImage errs s) := by
  unfold readImage
  repeat' (first
  | with_reducible assumption
  | exact sub_of hl (by decide)
  | with_reducible apply draw_only
  | with_reducible refine foldl_only ?_ (fun _ _ _ => ?_)
  | (with_reducible apply Only.mk
     all_goals first | exact Or.inr rfl | exact Or.inl (hl _ (by decide)) | skip)
  | dsimp only)

/-- What restoreRegs may change. -/
theorem restoreRegs_only {parts : List Part} {s_ s : State} (errs : List Nat)
    (h : Only parts s_ s)
    (hl : ∀ p ∈ ([.cairn, .eg, .draws] : List Part), p ∈ parts) :
    Only parts s_ (restoreRegs errs s) := by
  unfold restoreRegs
  repeat' (first
  | with_reducible assumption
  | exact sub_of hl (by decide)
  | with_reducible apply cairnO_only
  | with_reducible apply checkHub_only
  | with_reducible apply checkPort_only
  | with_reducible apply readImage_only
  | with_reducible refine foldN_only _ ?_ (fun _ _ _ => ?_)
  | with_reducible refine eachPort_only ?_ (fun _ _ _ => ?_)
  | with_reducible refine foldl_only ?_ (fun _ _ _ => ?_)
  | split
  | (with_reducible apply Only.mk
     all_goals first | exact Or.inr rfl | exact Or.inl (hl _ (by decide)) | skip)
  | dsimp only)

/-! Fencing -/

/-- What stopFence may change. -/
theorem stopFence_only {parts : List Part} {s_ s : State} (p cause cls det : Nat) (req : Bool)
    (h : Only parts s_ s)
    (hl : ∀ p ∈ ([.boot, .link, .tabs, .ev, .ports, .safety, .fences, .pw] : List Part), p ∈ parts) :
    Only parts s_ (stopFence p cause cls det req s) := by
  unfold stopFence
  repeat' (first
  | with_reducible assumption
  | exact sub_of hl (by decide)
  | with_reducible apply endSequence_only
  | with_reducible apply startStop_only
  | split
  | (with_reducible apply Only.mk
     all_goals first | exact Or.inr rfl | exact Or.inl (hl _ (by decide)) | skip))

/-- What settleGroup may change. -/
theorem settleGroup_only {parts : List Part} {s_ s : State} (g : Nat)
    (h : Only parts s_ s)
    (hl : ∀ p ∈ ([.boot, .link, .tabs, .ev, .ports, .fences, .pw] : List Part), p ∈ parts) :
    Only parts s_ (settleGroup g s) := by
  unfold settleGroup
  repeat' (first
  | with_reducible assumption
  | exact sub_of hl (by decide)
  | with_reducible apply fenceNow_only
  | split
  | (with_reducible apply Only.mk
     all_goals first | exact Or.inr rfl | exact Or.inl (hl _ (by decide)) | skip)
  | dsimp only)

/-- What fenceGroup may change. -/
theorem fenceGroup_only {parts : List Part} {s_ s : State} (g cause cls det : Nat) (req : Bool)
    (h : Only parts s_ s)
    (hl : ∀ p ∈ ([.boot, .link, .tabs, .ev, .ports, .safety, .fences, .pw] : List Part), p ∈ parts) :
    Only parts s_ (fenceGroup g cause cls det req s) := by
  unfold fenceGroup
  repeat' (first
  | with_reducible assumption
  | exact sub_of hl (by decide)
  | with_reducible apply endSequence_only
  | with_reducible apply settleGroup_only
  | with_reducible apply startStop_only
  | with_reducible apply withdrawPermit_only
  | with_reducible refine eachPort_only ?_ (fun _ _ _ => ?_)
  | split
  | (with_reducible apply Only.mk
     all_goals first | exact Or.inr rfl | exact Or.inl (hl _ (by decide)) | skip)
  | dsimp only)

/-- What availCount may change. -/
theorem availCount_only {parts : List Part} {s_ s : State} (p kind n : Nat)
    (h : Only parts s_ s)
    (hl : ∀ p ∈ ([.ports] : List Part), p ∈ parts) :
    Only parts s_ (availCount p kind n s) := by
  unfold availCount
  repeat' (first
  | with_reducible assumption
  | exact sub_of hl (by decide)
  | with_reducible apply updPort_only
  | (with_reducible apply Only.mk
     all_goals first | exact Or.inr rfl | exact Or.inl (hl _ (by decide)) | skip)
  | dsimp only)

/-- What availMains may change. -/
theorem availMains_only {parts : List Part} {s_ s : State} (p n : Nat)
    (h : Only parts s_ s)
    (hl : ∀ p ∈ ([.ports] : List Part), p ∈ parts) :
    Only parts s_ (availMains p n s) := by
  unfold availMains
  repeat' (first
  | with_reducible assumption
  | exact sub_of hl (by decide)
  | with_reducible apply updPort_only
  | (with_reducible apply Only.mk
     all_goals first | exact Or.inr rfl | exact Or.inl (hl _ (by decide)) | skip)
  | dsimp only)

/-- What availTick may change. -/
theorem availTick_only {parts : List Part} {s_ s : State} 
    (h : Only parts s_ s)
    (hl : ∀ p ∈ ([.ports] : List Part), p ∈ parts) :
    Only parts s_ (availTick s) := by
  unfold availTick
  repeat' (first
  | with_reducible assumption
  | exact sub_of hl (by decide)
  | with_reducible apply availCount_only
  | with_reducible apply availMains_only
  | with_reducible refine eachPort_only ?_ (fun _ _ _ => ?_)
  | split
  | (with_reducible apply Only.mk
     all_goals first | exact Or.inr rfl | exact Or.inl (hl _ (by decide)) | skip)
  | dsimp only)

/-- What availReady may change. -/
theorem availReady_only {parts : List Part} {s_ s : State} (p : Nat)
    (h : Only parts s_ s)
    (hl : ∀ p ∈ ([.ports] : List Part), p ∈ parts) :
    Only parts s_ (availReady p s) := by
  unfold availReady
  repeat' (first
  | with_reducible assumption
  | exact sub_of hl (by decide)
  | with_reducible apply availCount_only
  | with_reducible apply availMains_only
  | split
  | (with_reducible apply Only.mk
     all_goals first | exact Or.inr rfl | exact Or.inl (hl _ (by decide)) | skip)
  | dsimp only)

/-- What availPause may change. -/
theorem availPause_only {parts : List Part} {s_ s : State} (pause : Nat)
    (h : Only parts s_ s)
    (hl : ∀ p ∈ ([.ports] : List Part), p ∈ parts) :
    Only parts s_ (availPause pause s) := by
  unfold availPause
  repeat' (first
  | with_reducible assumption
  | exact sub_of hl (by decide)
  | with_reducible apply availCount_only
  | with_reducible refine eachPort_only ?_ (fun _ _ _ => ?_)
  | split
  | (with_reducible apply Only.mk
     all_goals first | exact Or.inr rfl | exact Or.inl (hl _ (by decide)) | skip)
  | dsimp only)

/-- What spareEvent may change. -/
theorem spareEvent_only {parts : List Part} {s_ s : State} (dom idx : Nat) (left : Bool)
    (h : Only parts s_ s)
    (hl : ∀ p ∈ ([.link, .ev, .pw] : List Part), p ∈ parts) :
    Only parts s_ (spareEvent dom idx left s) := by
  unfold spareEvent
  repeat' (first
  | with_reducible assumption
  | exact sub_of hl (by decide)
  | with_reducible apply fenceEvent_only
  | split
  | (with_reducible apply Only.mk
     all_goals first | exact Or.inr rfl | exact Or.inl (hl _ (by decide)) | skip)
  | dsimp only)

/-- What updSar may change. -/
theorem updSar_only {parts : List Part} {s_ s : State} (k : Nat) (f : Sar → Sar)
    (h : Only parts s_ s)
    (hl : ∀ p ∈ ([.meter] : List Part), p ∈ parts) :
    Only parts s_ (updSar k f s) := by
  unfold updSar
  repeat' (first
  | with_reducible assumption
  | (with_reducible apply Only.mk
     all_goals first | exact Or.inr rfl | exact Or.inl (hl _ (by decide)) | skip))

/-- What sarFail may change. -/
theorem sarFail_only {parts : List Part} {s_ s : State} (k cls det : Nat) (req : Bool)
    (h : Only parts s_ s)
    (hl : ∀ p ∈ ([.boot, .link, .tabs, .ev, .meter, .ports, .safety, .fences, .pw] : List Part), p ∈ parts) :
    Only parts s_ (sarFail k cls det req s) := by
  unfold sarFail
  repeat' (first
  | with_reducible assumption
  | exact sub_of hl (by decide)
  | with_reducible apply availCount_only
  | with_reducible apply fenceNow_only
  | with_reducible apply spareEvent_only
  | with_reducible apply stopFence_only
  | with_reducible apply updSar_only
  | with_reducible refine foldl_only ?_ (fun _ _ _ => ?_)
  | split
  | (with_reducible apply Only.mk
     all_goals first | exact Or.inr rfl | exact Or.inl (hl _ (by decide)) | skip)
  | dsimp only)

/-- What sarTakeover may change. -/
theorem sarTakeover_only {parts : List Part} {s_ s : State} (k : Nat)
    (h : Only parts s_ s)
    (hl : ∀ p ∈ ([.boot, .link, .tabs, .ev, .meter, .ports, .safety, .fences, .pw] : List Part), p ∈ parts) :
    Only parts s_ (sarTakeover k s) := by
  unfold sarTakeover
  repeat' (first
  | with_reducible assumption
  | exact sub_of hl (by decide)
  | with_reducible apply sarFail_only
  | split
  | (with_reducible apply Only.mk
     all_goals first | exact Or.inr rfl | exact Or.inl (hl _ (by decide)) | skip))

/-- What sar5Fail may change. -/
theorem sar5Fail_only {parts : List Part} {s_ s : State} 
    (h : Only parts s_ s)
    (hl : ∀ p ∈ ([.boot, .link, .tabs, .ev, .meter, .ports, .safety, .fences, .pw] : List Part), p ∈ parts) :
    Only parts s_ (sar5Fail s) := by
  unfold sar5Fail
  repeat' (first
  | with_reducible assumption
  | exact sub_of hl (by decide)
  | with_reducible apply sarFail_only
  | split
  | (with_reducible apply Only.mk
     all_goals first | exact Or.inr rfl | exact Or.inl (hl _ (by decide)) | skip)
  | dsimp only)

/-- What sarTick may change. -/
theorem sarTick_only {parts : List Part} {s_ s : State} (refs : List (List Nat))
    (h : Only parts s_ s)
    (hl : ∀ p ∈ ([.meter] : List Part), p ∈ parts) :
    Only parts s_ (sarTick refs s) := by
  unfold sarTick
  repeat' (first
  | with_reducible assumption
  | exact sub_of hl (by decide)
  | with_reducible apply updSar_only
  | with_reducible refine foldN_only _ ?_ (fun _ _ _ => ?_)
  | split
  | (with_reducible apply Only.mk
     all_goals first | exact Or.inr rfl | exact Or.inl (hl _ (by decide)) | skip)
  | dsimp only)

/-- What updLanes may change. -/
theorem updLanes_only {parts : List Part} {s_ s : State} (f : Lanes → Lanes)
    (h : Only parts s_ s)
    (hl : ∀ p ∈ ([.meter] : List Part), p ∈ parts) :
    Only parts s_ (updLanes f s) := by
  unfold updLanes
  repeat' (first
  | with_reducible assumption
  | (with_reducible apply Only.mk
     all_goals first | exact Or.inr rfl | exact Or.inl (hl _ (by decide)) | skip))

/-- What withdrawLane may change. -/
theorem withdrawLane_only {parts : List Part} {s_ s : State} (l cls det : Nat) (req : Bool)
    (h : Only parts s_ s)
    (hl : ∀ p ∈ ([.boot, .link, .tabs, .ev, .meter, .ports, .fences, .pw] : List Part), p ∈ parts) :
    Only parts s_ (withdrawLane l cls det req s) := by
  unfold withdrawLane
  repeat' (first
  | with_reducible assumption
  | exact sub_of hl (by decide)
  | with_reducible apply fenceNow_only
  | with_reducible apply updLanes_only
  | split
  | (with_reducible apply Only.mk
     all_goals first | exact Or.inr rfl | exact Or.inl (hl _ (by decide)) | skip)
  | dsimp only)

/-- What takeLane may change. -/
theorem takeLane_only {parts : List Part} {s_ s : State} (l p : Nat)
    (h : Only parts s_ s)
    (hl : ∀ p ∈ ([.link, .ev, .meter, .pw] : List Part), p ∈ parts) :
    Only parts s_ (takeLane l p s) := by
  unfold takeLane
  repeat' (first
  | with_reducible assumption
  | exact sub_of hl (by decide)
  | with_reducible apply spareEvent_only
  | with_reducible apply updLanes_only
  | (with_reducible apply Only.mk
     all_goals first | exact Or.inr rfl | exact Or.inl (hl _ (by decide)) | skip)
  | dsimp only)

/-- What shadowSpare may change. -/
theorem shadowSpare_only {parts : List Part} {s_ s : State} (l : Nat)
    (h : Only parts s_ s)
    (hl : ∀ p ∈ ([.meter] : List Part), p ∈ parts) :
    Only parts s_ (shadowSpare l s) := by
  unfold shadowSpare
  repeat' (first
  | with_reducible assumption
  | exact sub_of hl (by decide)
  | with_reducible apply updLanes_only
  | split
  | (with_reducible apply Only.mk
     all_goals first | exact Or.inr rfl | exact Or.inl (hl _ (by decide)) | skip)
  | dsimp only)

/-- What shadowFree may change. -/
theorem shadowFree_only {parts : List Part} {s_ s : State} 
    (h : Only parts s_ s)
    (hl : ∀ p ∈ ([.meter] : List Part), p ∈ parts) :
    Only parts s_ (shadowFree s) := by
  unfold shadowFree
  repeat' (first
  | with_reducible assumption
  | exact sub_of hl (by decide)
  | with_reducible apply shadowSpare_only
  | with_reducible refine foldl_only ?_ (fun _ _ _ => ?_)
  | (with_reducible apply Only.mk
     all_goals first | exact Or.inr rfl | exact Or.inl (hl _ (by decide)) | skip)
  | dsimp only)

/-- What laneFail may change. -/
theorem laneFail_only {parts : List Part} {s_ s : State} (l cls det : Nat) (req : Bool)
    (h : Only parts s_ s)
    (hl : ∀ p ∈ ([.boot, .link, .tabs, .ev, .meter, .ports, .safety, .fences, .pw] : List Part), p ∈ parts) :
    Only parts s_ (laneFail l cls det req s) := by
  unfold laneFail
  repeat' (first
  | with_reducible assumption
  | exact sub_of hl (by decide)
  | with_reducible apply shadowFree_only
  | with_reducible apply stopFence_only
  | with_reducible apply takeLane_only
  | with_reducible apply withdrawLane_only
  | split
  | (with_reducible apply Only.mk
     all_goals first | exact Or.inr rfl | exact Or.inl (hl _ (by decide)) | skip)
  | dsimp only)

/-- What laneRotate may change. -/
theorem laneRotate_only {parts : List Part} {s_ s : State} 
    (h : Only parts s_ s)
    (hl : ∀ p ∈ ([.meter] : List Part), p ∈ parts) :
    Only parts s_ (laneRotate s) := by
  unfold laneRotate
  repeat' (first
  | with_reducible assumption
  | exact sub_of hl (by decide)
  | with_reducible apply updLanes_only
  | with_reducible refine foldl_only ?_ (fun _ _ _ => ?_)
  | split
  | (with_reducible apply Only.mk
     all_goals first | exact Or.inr rfl | exact Or.inl (hl _ (by decide)) | skip)
  | dsimp only)

/-- What laneMismatch may change. -/
theorem laneMismatch_only {parts : List Part} {s_ s : State} (l sp : Nat) (lanePass spPass : Bool)
    (h : Only parts s_ s)
    (hl : ∀ p ∈ ([.boot, .link, .tabs, .ev, .meter, .ports, .safety, .fences, .pw] : List Part), p ∈ parts) :
    Only parts s_ (laneMismatch l sp lanePass spPass s) := by
  unfold laneMismatch
  repeat' (first
  | with_reducible assumption
  | exact sub_of hl (by decide)
  | with_reducible apply evrec_only
  | with_reducible apply shadowFree_only
  | with_reducible apply stopFence_only
  | with_reducible apply takeLane_only
  | with_reducible apply withdrawLane_only
  | split
  | (with_reducible apply Only.mk
     all_goals first | exact Or.inr rfl | exact Or.inl (hl _ (by decide)) | skip)
  | dsimp only)

/-- What laneCheck may change. -/
theorem laneCheck_only {parts : List Part} {s_ s : State} (failed : List Nat)
    (h : Only parts s_ s)
    (hl : ∀ p ∈ ([.boot, .link, .tabs, .ev, .meter, .ports, .safety, .fences, .pw] : List Part), p ∈ parts) :
    Only parts s_ (laneCheck failed s) := by
  unfold laneCheck
  repeat' (first
  | with_reducible assumption
  | exact sub_of hl (by decide)
  | with_reducible apply laneFail_only
  | with_reducible apply updLanes_only
  | with_reducible refine foldl_only ?_ (fun _ _ _ => ?_)
  | split
  | (with_reducible apply Only.mk
     all_goals first | exact Or.inr rfl | exact Or.inl (hl _ (by decide)) | skip)
  | dsimp only)

/-- What lanesBoot may change. -/
theorem lanesBoot_only {parts : List Part} {s_ s : State} (failed : List Nat)
    (h : Only parts s_ s)
    (hl : ∀ p ∈ ([.boot, .link, .tabs, .ev, .meter, .ports, .fences, .pw] : List Part), p ∈ parts) :
    Only parts s_ (lanesBoot failed s) := by
  unfold lanesBoot
  repeat' (first
  | with_reducible assumption
  | exact sub_of hl (by decide)
  | with_reducible apply shadowFree_only
  | with_reducible apply takeLane_only
  | with_reducible apply unfenceNow_only
  | with_reducible apply updLanes_only
  | with_reducible apply withdrawLane_only
  | with_reducible refine foldN_only _ ?_ (fun _ _ _ => ?_)
  | with_reducible refine eachPort_only ?_ (fun _ _ _ => ?_)
  | split
  | (with_reducible apply Only.mk
     all_goals first | exact Or.inr rfl | exact Or.inl (hl _ (by decide)) | skip)
  | dsimp only)

/-- What liftTick may change. -/
theorem liftTick_only {parts : List Part} {s_ s : State} (p : Nat)
    (h : Only parts s_ s)
    (hl : ∀ p ∈ ([.ports] : List Part), p ∈ parts) :
    Only parts s_ (liftTick p s) := by
  unfold liftTick
  repeat' (first
  | with_reducible assumption
  | exact sub_of hl (by decide)
  | with_reducible apply beginSequence_only
  | with_reducible apply updPort_only
  | split
  | (with_reducible apply Only.mk
     all_goals first | exact Or.inr rfl | exact Or.inl (hl _ (by decide)) | skip)
  | dsimp only)

/-- What sarBack may change. -/
theorem sarBack_only {parts : List Part} {s_ s : State} (k : Nat)
    (h : Only parts s_ s)
    (hl : ∀ p ∈ ([.link, .ev, .meter, .ports, .fences, .pw] : List Part), p ∈ parts) :
    Only parts s_ (sarBack k s) := by
  unfold sarBack
  repeat' (first
  | with_reducible assumption
  | exact sub_of hl (by decide)
  | with_reducible apply unfenceNow_only
  | with_reducible apply updSar_only
  | split
  | (with_reducible apply Only.mk
     all_goals first | exact Or.inr rfl | exact Or.inl (hl _ (by decide)) | skip)
  | dsimp only)

/-- What fenceLiftAuto may change. -/
theorem fenceLiftAuto_only {parts : List Part} {s_ s : State} (dom idx : Nat)
    (h : Only parts s_ s)
    (hl : ∀ p ∈ ([.link, .ev, .meter, .ports, .fences, .pw] : List Part), p ∈ parts) :
    Only parts s_ (fenceLiftAuto dom idx s) := by
  unfold fenceLiftAuto
  repeat' (first
  | with_reducible assumption
  | exact sub_of hl (by decide)
  | with_reducible apply sarBack_only
  | with_reducible apply unfenceNow_only
  | split
  | (with_reducible apply Only.mk
     all_goals first | exact Or.inr rfl | exact Or.inl (hl _ (by decide)) | skip))

/-- What fenceDomain may change. -/
theorem fenceDomain_only {parts : List Part} {s_ s : State} (dom idx : Nat)
    (h : Only parts s_ s)
    (hl : ∀ p ∈ ([.boot, .link, .tabs, .ev, .meter, .ports, .safety, .fences, .pw] : List Part), p ∈ parts) :
    Only parts s_ (fenceDomain dom idx s) := by
  unfold fenceDomain
  repeat' (first
  | with_reducible assumption
  | exact sub_of hl (by decide)
  | with_reducible apply fenceGroup_only
  | with_reducible apply fenceNf_only
  | with_reducible apply fenceNow_only
  | with_reducible apply laneFail_only
  | with_reducible apply sarFail_only
  | with_reducible apply stopFence_only
  | with_reducible refine foldl_only ?_ (fun _ _ _ => ?_)
  | split
  | (with_reducible apply Only.mk
     all_goals first | exact Or.inr rfl | exact Or.inl (hl _ (by decide)) | skip)
  | dsimp only)

/-- What liftDomain may change. -/
theorem liftDomain_only {parts : List Part} {s_ s : State} (dom idx : Nat)
    (h : Only parts s_ s)
    (hl : ∀ p ∈ ([.link, .ev, .meter, .ports, .fences, .pw] : List Part), p ∈ parts) :
    Only parts s_ (liftDomain dom idx s) := by
  unfold liftDomain
  repeat' (first
  | with_reducible assumption
  | exact sub_of hl (by decide)
  | with_reducible apply sarBack_only
  | with_reducible apply shadowFree_only
  | with_reducible apply unfenceNow_only
  | with_reducible refine foldl_only ?_ (fun _ _ _ => ?_)
  | split
  | (with_reducible apply Only.mk
     all_goals first | exact Or.inr rfl | exact Or.inl (hl _ (by decide)) | skip)
  | dsimp only)

/-! FrontEnd -/

/-- What streamFault may change. -/
theorem streamFault_only {parts : List Part} {s_ s : State} (k cond : Nat)
    (h : Only parts s_ s)
    (hl : ∀ p ∈ ([.boot, .link, .tabs, .ev, .meter, .ports, .safety, .fences, .pw] : List Part), p ∈ parts) :
    Only parts s_ (streamFault k cond s) := by
  unfold streamFault
  repeat' (first
  | with_reducible assumption
  | exact sub_of hl (by decide)
  | with_reducible apply endSequence_only
  | with_reducible apply startStop_only
  | with_reducible apply updPort_only
  | with_reducible apply updStream_only
  | split
  | (with_reducible apply Only.mk
     all_goals first | exact Or.inr rfl | exact Or.inl (hl _ (by decide)) | skip)
  | dsimp only)

/-- What biasWindowEnd may change. -/
theorem biasWindowEnd_only {parts : List Part} {s_ s : State} (k : Nat)
    (h : Only parts s_ s)
    (hl : ∀ p ∈ ([.meter] : List Part), p ∈ parts) :
    Only parts s_ (biasWindowEnd k s) := by
  unfold biasWindowEnd
  repeat' (first
  | with_reducible assumption
  | exact sub_of hl (by decide)
  | with_reducible apply updStream_only
  | split
  | (with_reducible apply Only.mk
     all_goals first | exact Or.inr rfl | exact Or.inl (hl _ (by decide)) | skip)
  | dsimp only)

/-- What streamFailed may change. -/
theorem streamFailed_only {parts : List Part} {s_ s : State} (k : Nat)
    (h : Only parts s_ s)
    (hl : ∀ p ∈ ([.boot, .link, .tabs, .ev, .meter, .ports, .safety, .fences, .pw] : List Part), p ∈ parts) :
    Only parts s_ (streamFailed k s) := by
  unfold streamFailed
  repeat' (first
  | with_reducible assumption
  | exact sub_of hl (by decide)
  | with_reducible apply fenceGroup_only
  | with_reducible apply residualStream_only
  | with_reducible apply stopFence_only
  | with_reducible apply updStream_only
  | split
  | (with_reducible apply Only.mk
     all_goals first | exact Or.inr rfl | exact Or.inl (hl _ (by decide)) | skip)
  | dsimp only)

/-- What updPulse may change. -/
theorem updPulse_only {parts : List Part} {s_ s : State} (o : Nat) (f : Pulse → Pulse)
    (h : Only parts s_ s)
    (hl : ∀ p ∈ ([.meter] : List Part), p ∈ parts) :
    Only parts s_ (updPulse o f s) := by
  unfold updPulse
  repeat' (first
  | with_reducible assumption
  | (with_reducible apply Only.mk
     all_goals first | exact Or.inr rfl | exact Or.inl (hl _ (by decide)) | skip))

/-- What calPulseEnd may change. -/
theorem calPulseEnd_only {parts : List Part} {s_ s : State} (o : Nat)
    (h : Only parts s_ s)
    (hl : ∀ p ∈ ([.cairn] : List Part), p ∈ parts) :
    Only parts s_ (calPulseEnd o s) := by
  unfold calPulseEnd
  repeat' (first
  | with_reducible assumption
  | exact sub_of hl (by decide)
  | with_reducible apply cairnO_only
  | split
  | (with_reducible apply Only.mk
     all_goals first | exact Or.inr rfl | exact Or.inl (hl _ (by decide)) | skip)
  | dsimp only)

/-- What pulseSet may change. -/
theorem pulseSet_only {parts : List Part} {s_ s : State} (o : Nat) (k : PulseSel)
    (h : Only parts s_ s)
    (hl : ∀ p ∈ ([.meter] : List Part), p ∈ parts) :
    Only parts s_ (pulseSet o k s) := by
  unfold pulseSet
  repeat' (first
  | with_reducible assumption
  | exact sub_of hl (by decide)
  | with_reducible apply updPulse_only
  | (with_reducible apply Only.mk
     all_goals first | exact Or.inr rfl | exact Or.inl (hl _ (by decide)) | skip)
  | dsimp only)

/-! Calibration -/

/-- What calBegin may change. -/
theorem calBegin_only {parts : List Part} {s_ s : State} (t : Nat)
    (h : Only parts s_ s)
    (hl : ∀ p ∈ ([.cairn] : List Part), p ∈ parts) :
    Only parts s_ (calBegin s t).2 := by
  unfold calBegin
  repeat' (first
  | with_reducible assumption
  | exact sub_of hl (by decide)
  | with_reducible apply cairnO_only
  | (with_reducible apply Only.mk
     all_goals first | exact Or.inr rfl | exact Or.inl (hl _ (by decide)) | skip)
  | dsimp only)

/-- What calWrite may change. -/
theorem calWrite_only {parts : List Part} {s_ s : State} (j : CalJob)
    (h : Only parts s_ s)
    (hl : ∀ p ∈ ([.cal] : List Part), p ∈ parts) :
    Only parts s_ (calWrite j s) := by
  unfold calWrite
  repeat' (first
  | with_reducible assumption
  | exact sub_of hl (by decide)
  | with_reducible apply compose_only
  | with_reducible apply composeGroup_only
  | split
  | (with_reducible apply Only.mk
     all_goals first | exact Or.inr rfl | exact Or.inl (hl _ (by decide)) | skip)
  | dsimp only)

/-- What answerLate may change. -/
theorem answerLate_only {parts : List Part} {s_ s : State} (ch st : Nat) (pl : List Byte)
    (h : Only parts s_ s)
    (hl : ∀ p ∈ ([.link, .hostMem] : List Part), p ∈ parts) :
    Only parts s_ (answerLate ch st pl s) := by
  unfold answerLate
  repeat' (first
  | with_reducible assumption
  | exact sub_of hl (by decide)
  | with_reducible apply answer_only
  | split
  | (with_reducible apply Only.mk
     all_goals first | exact Or.inr rfl | exact Or.inl (hl _ (by decide)) | skip))

/-- What calAnswer may change. -/
theorem calAnswer_only {parts : List Part} {s_ s : State} (r : CalRun)
    (h : Only parts s_ s)
    (hl : ∀ p ∈ ([.link, .hostMem, .cal, .pl] : List Part), p ∈ parts) :
    Only parts s_ (calAnswer r s) := by
  unfold calAnswer
  repeat' (first
  | with_reducible assumption
  | exact sub_of hl (by decide)
  | with_reducible apply answerLate_only
  | split
  | (with_reducible apply Only.mk
     all_goals first | exact Or.inr rfl | exact Or.inl (hl _ (by decide)) | skip)
  | dsimp only)

/-- What calRunTick may change. -/
theorem calRunTick_only {parts : List Part} {s_ s : State} (drop : Bool)
    (h : Only parts s_ s)
    (hl : ∀ p ∈ ([.link, .hostMem, .cairn, .cal, .pl] : List Part), p ∈ parts) :
    Only parts s_ (calRunTick drop s) := by
  unfold calRunTick
  repeat' (first
  | with_reducible assumption
  | exact sub_of hl (by decide)
  | with_reducible apply calAnswer_only
  | with_reducible apply calWrite_only
  | with_reducible refine foldl_only ?_ (fun _ _ _ => ?_)
  | split
  | (with_reducible apply Only.mk
     all_goals first | exact Or.inr rfl | exact Or.inl (hl _ (by decide)) | skip)
  | dsimp only)

/-- What bootBand may change. -/
theorem bootBand_only {parts : List Part} {s_ s : State} 
    (h : Only parts s_ s)
    (hl : ∀ p ∈ ([.cal] : List Part), p ∈ parts) :
    Only parts s_ (bootBand s) := by
  unfold bootBand
  repeat' (first
  | with_reducible assumption
  | (with_reducible apply Only.mk
     all_goals first | exact Or.inr rfl | exact Or.inl (hl _ (by decide)) | skip)
  | dsimp only)

/-- What calTick may change. -/
theorem calTick_only {parts : List Part} {s_ s : State} (i : TickIn)
    (h : Only parts s_ s)
    (hl : ∀ p ∈ ([.link, .hostMem, .cairn, .cal, .pl] : List Part), p ∈ parts) :
    Only parts s_ (calTick i s) := by
  unfold calTick
  repeat' (first
  | with_reducible assumption
  | exact sub_of hl (by decide)
  | with_reducible apply bootBand_only
  | with_reducible apply calRunTick_only
  | with_reducible refine foldl_only ?_ (fun _ _ _ => ?_)
  | split
  | (with_reducible apply Only.mk
     all_goals first | exact Or.inr rfl | exact Or.inl (hl _ (by decide)) | skip)
  | dsimp only)

end Sys2Proof.Machine
end

