-- ==== Sys2Proof/Laws/FrameData.lean ====
section
/-!
SUPPORT. What each operation may change, to be cited in place of unfolding it: vault, tariffs, ledger and store.
-/

namespace Sys2Proof.Machine

/-! Vault -/

/-- What seAsk may change. -/
theorem seAsk_only {parts : List Part} {s_ s : State} (o : SeOp)
    (h : Only parts s_ s)
    (hl : ∀ p ∈ ([.qr] : List Part), p ∈ parts) :
    Only parts s_ (seAsk o s) := by
  unfold seAsk
  repeat' (first
  | with_reducible assumption
  | (with_reducible apply Only.mk
     all_goals first | exact Or.inr rfl | exact Or.inl (hl _ (by decide)) | skip))

/-- What randomBytes may change. -/
theorem randomBytes_only {parts : List Part} {s_ s : State} (n : Nat)
    (h : Only parts s_ s)
    (hl : ∀ p ∈ ([.vault] : List Part), p ∈ parts) :
    Only parts s_ (randomBytes n s).2 := by
  unfold randomBytes
  repeat' (first
  | with_reducible assumption
  | (with_reducible apply Only.mk
     all_goals first | exact Or.inr rfl | exact Or.inl (hl _ (by decide)) | skip)
  | dsimp only)

/-- What aesRun may change. -/
theorem aesRun_only {parts : List Part} {s_ s : State} (j : AesJob)
    (h : Only parts s_ s)
    (hl : ∀ p ∈ ([.vault] : List Part), p ∈ parts) :
    Only parts s_ (aesRun j s) := by
  unfold aesRun
  repeat' (first
  | with_reducible assumption
  | with_reducible refine foldl_only ?_ (fun _ _ _ => ?_)
  | (with_reducible apply Only.mk
     all_goals first | exact Or.inr rfl | exact Or.inl (hl _ (by decide)) | skip)
  | dsimp only)

/-- What aesAsk may change. -/
theorem aesAsk_only {parts : List Part} {s_ s : State} (j : AesJob)
    (h : Only parts s_ s)
    (hl : ∀ p ∈ ([.vault] : List Part), p ∈ parts) :
    Only parts s_ (aesAsk j s).2 := by
  unfold aesAsk
  repeat' (first
  | with_reducible assumption
  | (with_reducible apply Only.mk
     all_goals first | exact Or.inr rfl | exact Or.inl (hl _ (by decide)) | skip)
  | dsimp only)

/-- What aesTick may change. -/
theorem aesTick_only {parts : List Part} {s_ s : State} 
    (h : Only parts s_ s)
    (hl : ∀ p ∈ ([.vault] : List Part), p ∈ parts) :
    Only parts s_ (aesTick s) := by
  unfold aesTick
  repeat' (first
  | with_reducible assumption
  | split
  | (with_reducible apply Only.mk
     all_goals first | exact Or.inr rfl | exact Or.inl (hl _ (by decide)) | skip))

/-- What macJobs may change. -/
theorem macJobs_only {parts : List Part} {s_ s : State} (client n : Nat) (msg mac : List Byte)
    (h : Only parts s_ s)
    (hl : ∀ p ∈ ([.vault] : List Part), p ∈ parts) :
    Only parts s_ (macJobs client n msg mac s) := by
  unfold macJobs
  repeat' (first
  | with_reducible assumption
  | exact sub_of hl (by decide)
  | with_reducible apply aesRun_only
  | split
  | (with_reducible apply Only.mk
     all_goals first | exact Or.inr rfl | exact Or.inl (hl _ (by decide)) | skip)
  | dsimp only)

/-- What rindEvent may change. -/
theorem rindEvent_only {parts : List Part} {s_ s : State} (ev det value : Nat)
    (h : Only parts s_ s)
    (hl : ∀ p ∈ ([.link, .pw] : List Part), p ∈ parts) :
    Only parts s_ (rindEvent ev det value s) := by
  unfold rindEvent
  repeat' (first
  | with_reducible assumption
  | exact sub_of hl (by decide)
  | with_reducible apply notify_only
  | (with_reducible apply Only.mk
     all_goals first | exact Or.inr rfl | exact Or.inl (hl _ (by decide)) | skip))

/-- What setCell may change. -/
theorem setCell_only {parts : List Part} {s_ s : State} (k : Nat) (f : VCell → VCell)
    (h : Only parts s_ s)
    (hl : ∀ p ∈ ([.vault] : List Part), p ∈ parts) :
    Only parts s_ (setCell k f s) := by
  unfold setCell
  repeat' (first
  | with_reducible assumption
  | (with_reducible apply Only.mk
     all_goals first | exact Or.inr rfl | exact Or.inl (hl _ (by decide)) | skip))

/-- What writeSlot may change. -/
theorem writeSlot_only {parts : List Part} {s_ s : State} (n attr klen : Nat) (key : List Byte)
    (h : Only parts s_ s)
    (hl : ∀ p ∈ ([.vault] : List Part), p ∈ parts) :
    Only parts s_ (writeSlot n attr klen key s) := by
  unfold writeSlot
  repeat' (first
  | with_reducible assumption
  | exact sub_of hl (by decide)
  | with_reducible apply randomBytes_only
  | with_reducible apply setCell_only
  | split
  | (with_reducible apply Only.mk
     all_goals first | exact Or.inr rfl | exact Or.inl (hl _ (by decide)) | skip)
  | dsimp only)

/-- What askBlob may change. -/
theorem askBlob_only {parts : List Part} {s_ s : State} (n : Nat)
    (h : Only parts s_ s)
    (hl : ∀ p ∈ ([.vault, .qr] : List Part), p ∈ parts) :
    Only parts s_ (askBlob n s) := by
  unfold askBlob
  repeat' (first
  | with_reducible assumption
  | exact sub_of hl (by decide)
  | with_reducible apply aesAsk_only
  | with_reducible apply seAsk_only
  | split
  | (with_reducible apply Only.mk
     all_goals first | exact Or.inr rfl | exact Or.inl (hl _ (by decide)) | skip)
  | dsimp only)

/-- What blobsAfter may change. -/
theorem blobsAfter_only {parts : List Part} {s_ s : State} (n : Nat)
    (h : Only parts s_ s)
    (hl : ∀ p ∈ ([.vault, .qr] : List Part), p ∈ parts) :
    Only parts s_ (blobsAfter n s) := by
  unfold blobsAfter
  repeat' (first
  | with_reducible assumption
  | exact sub_of hl (by decide)
  | with_reducible apply askBlob_only
  | with_reducible refine foldN_only _ ?_ (fun _ _ _ => ?_)
  | split
  | (with_reducible apply Only.mk
     all_goals first | exact Or.inr rfl | exact Or.inl (hl _ (by decide)) | skip)
  | dsimp only)

/-- What askDrop may change. -/
theorem askDrop_only {parts : List Part} {s_ s : State} (n : Nat)
    (h : Only parts s_ s)
    (hl : ∀ p ∈ ([.qr] : List Part), p ∈ parts) :
    Only parts s_ (askDrop n s) := by
  unfold askDrop
  repeat' (first
  | with_reducible assumption
  | exact sub_of hl (by decide)
  | with_reducible apply seAsk_only
  | (with_reducible apply Only.mk
     all_goals first | exact Or.inr rfl | exact Or.inl (hl _ (by decide)) | skip))

/-- What zeroise may change. -/
theorem zeroise_only {parts : List Part} {s_ s : State} (source : Nat)
    (h : Only parts s_ s)
    (hl : ∀ p ∈ ([.boot, .link, .nf, .vault, .rind, .qr, .pw] : List Part), p ∈ parts) :
    Only parts s_ (zeroise source s) := by
  unfold zeroise
  repeat' (first
  | with_reducible assumption
  | exact sub_of hl (by decide)
  | with_reducible apply askDrop_only
  | with_reducible apply rindEvent_only
  | with_reducible apply setReady_only
  | (with_reducible apply Only.mk
     all_goals first | exact Or.inr rfl | exact Or.inl (hl _ (by decide)) | skip)
  | dsimp only)

/-- What keepPrevious may change. -/
theorem keepPrevious_only {parts : List Part} {s_ s : State} (n : Nat)
    (h : Only parts s_ s)
    (hl : ∀ p ∈ ([.vault] : List Part), p ∈ parts) :
    Only parts s_ (keepPrevious n s) := by
  unfold keepPrevious
  repeat' (first
  | with_reducible assumption
  | exact sub_of hl (by decide)
  | with_reducible apply writeSlot_only
  | split
  | (with_reducible apply Only.mk
     all_goals first | exact Or.inr rfl | exact Or.inl (hl _ (by decide)) | skip)
  | dsimp only)

/-- What kuEffect may change. -/
theorem kuEffect_only {parts : List Part} {s_ s : State} (m : List Byte)
    (h : Only parts s_ s)
    (hl : ∀ p ∈ ([.boot, .link, .ev, .nf, .vault, .rind, .qr, .pw] : List Part), p ∈ parts) :
    Only parts s_ (kuEffect m s) := by
  unfold kuEffect
  repeat' (first
  | with_reducible assumption
  | exact sub_of hl (by decide)
  | with_reducible apply askBlob_only
  | with_reducible apply askDrop_only
  | with_reducible apply blobsAfter_only
  | with_reducible apply evrec_only
  | with_reducible apply keepPrevious_only
  | with_reducible apply setCell_only
  | with_reducible apply writeSlot_only
  | with_reducible apply zeroise_only
  | with_reducible refine sysWrite_only _ _ (by decide) ?_ ?_
  | split
  | (with_reducible apply Only.mk
     all_goals first | exact Or.inr rfl | exact Or.inl (hl _ (by decide)) | skip)
  | dsimp only)

/-- What remaskCell may change. -/
theorem remaskCell_only {parts : List Part} {s_ s : State} (inv : Bool) (k : Nat) (bad : Bool)
    (h : Only parts s_ s)
    (hl : ∀ p ∈ ([.vault] : List Part), p ∈ parts) :
    Only parts s_ (remaskCell inv k bad s) := by
  unfold remaskCell
  repeat' (first
  | with_reducible assumption
  | exact sub_of hl (by decide)
  | with_reducible apply randomBytes_only
  | with_reducible apply setCell_only
  | split
  | (with_reducible apply Only.mk
     all_goals first | exact Or.inr rfl | exact Or.inl (hl _ (by decide)) | skip)
  | dsimp only)

/-- What dropCell may change. -/
theorem dropCell_only {parts : List Part} {s_ s : State} (k : Nat)
    (h : Only parts s_ s)
    (hl : ∀ p ∈ ([.boot, .link, .tabs, .ev, .ports, .fences, .vault, .pw] : List Part), p ∈ parts) :
    Only parts s_ (dropCell k s) := by
  unfold dropCell
  repeat' (first
  | with_reducible assumption
  | exact sub_of hl (by decide)
  | with_reducible apply fenceNow_only
  | with_reducible apply setCell_only
  | (with_reducible apply Only.mk
     all_goals first | exact Or.inr rfl | exact Or.inl (hl _ (by decide)) | skip)
  | dsimp only)

/-- What cellFails may change. -/
theorem cellFails_only {parts : List Part} {s_ s0 : State} (n : Nat)
    (h : Only parts s_ s0)
    (hl : ∀ p ∈ ([.boot, .link, .tabs, .ev, .ports, .fences, .vault, .pw] : List Part), p ∈ parts) :
    Only parts s_ (cellFails n s0) := by
  unfold cellFails
  repeat' (first
  | with_reducible assumption
  | exact sub_of hl (by decide)
  | with_reducible apply aesRun_only
  | with_reducible apply dropCell_only
  | with_reducible apply randomBytes_only
  | with_reducible apply rindEvent_only
  | with_reducible apply setCell_only
  | with_reducible apply spareEvent_only
  | split
  | (with_reducible apply Only.mk
     all_goals first | exact Or.inr rfl | exact Or.inl (hl _ (by decide)) | skip)
  | dsimp only)

/-- What remask may change. -/
theorem remask_only {parts : List Part} {s_ s : State} (bad kcvBad : List Nat)
    (h : Only parts s_ s)
    (hl : ∀ p ∈ ([.boot, .link, .tabs, .ev, .ports, .fences, .vault, .pw] : List Part), p ∈ parts) :
    Only parts s_ (remask bad kcvBad s) := by
  unfold remask
  repeat' (first
  | with_reducible assumption
  | exact sub_of hl (by decide)
  | with_reducible apply cellFails_only
  | with_reducible apply dropCell_only
  | with_reducible apply remaskCell_only
  | with_reducible refine foldl_only ?_ (fun _ _ _ => ?_)
  | split
  | (with_reducible apply Only.mk
     all_goals first | exact Or.inr rfl | exact Or.inl (hl _ (by decide)) | skip)
  | dsimp only)

/-- What rngFail may change. -/
theorem rngFail_only {parts : List Part} {s_ s : State} (continuous : Bool)
    (h : Only parts s_ s)
    (hl : ∀ p ∈ ([.ev, .vault] : List Part), p ∈ parts) :
    Only parts s_ (rngFail continuous s) := by
  unfold rngFail
  repeat' (first
  | with_reducible assumption
  | exact sub_of hl (by decide)
  | with_reducible apply evrec_only
  | split
  | (with_reducible apply Only.mk
     all_goals first | exact Or.inr rfl | exact Or.inl (hl _ (by decide)) | skip))

/-- What latchTamper may change. -/
theorem latchTamper_only {parts : List Part} {s_ s : State} (code : Nat) (data : List Byte)
    (h : Only parts s_ s)
    (hl : ∀ p ∈ ([.rind] : List Part), p ∈ parts) :
    Only parts s_ (latchTamper code data s) := by
  unfold latchTamper
  repeat' (first
  | with_reducible assumption
  | (with_reducible apply Only.mk
     all_goals first | exact Or.inr rfl | exact Or.inl (hl _ (by decide)) | skip))

/-- What meshBreak may change. -/
theorem meshBreak_only {parts : List Part} {s_ s : State} (reading : Nat)
    (h : Only parts s_ s)
    (hl : ∀ p ∈ ([.boot, .link, .nf, .vault, .rind, .qr, .pw] : List Part), p ∈ parts) :
    Only parts s_ (meshBreak reading s) := by
  unfold meshBreak
  repeat' (first
  | with_reducible assumption
  | exact sub_of hl (by decide)
  | with_reducible apply latchTamper_only
  | with_reducible apply rindEvent_only
  | with_reducible apply zeroise_only
  | split
  | (with_reducible apply Only.mk
     all_goals first | exact Or.inr rfl | exact Or.inl (hl _ (by decide)) | skip)
  | dsimp only)

/-- What coverOpen may change. -/
theorem coverOpen_only {parts : List Part} {s_ s : State} 
    (h : Only parts s_ s)
    (hl : ∀ p ∈ ([.boot, .link, .nf, .vault, .rind, .qr, .pw] : List Part), p ∈ parts) :
    Only parts s_ (coverOpen s) := by
  unfold coverOpen
  repeat' (first
  | with_reducible assumption
  | exact sub_of hl (by decide)
  | with_reducible apply latchTamper_only
  | with_reducible apply rindEvent_only
  | with_reducible apply zeroise_only
  | split
  | (with_reducible apply Only.mk
     all_goals first | exact Or.inr rfl | exact Or.inl (hl _ (by decide)) | skip)
  | dsimp only)

/-- What coverClosed may change. -/
theorem coverClosed_only {parts : List Part} {s_ s : State} 
    (h : Only parts s_ s)
    (hl : ∀ p ∈ ([.link, .rind, .pw] : List Part), p ∈ parts) :
    Only parts s_ (coverClosed s) := by
  unfold coverClosed
  repeat' (first
  | with_reducible assumption
  | exact sub_of hl (by decide)
  | with_reducible apply latchTamper_only
  | with_reducible apply rindEvent_only
  | split
  | (with_reducible apply Only.mk
     all_goals first | exact Or.inr rfl | exact Or.inl (hl _ (by decide)) | skip))

/-- What tamperEntry may change. -/
theorem tamperEntry_only {parts : List Part} {s_ s : State} 
    (h : Only parts s_ s)
    (hl : ∀ p ∈ ([.cairn, .rind] : List Part), p ∈ parts) :
    Only parts s_ (tamperEntry s) := by
  unfold tamperEntry
  repeat' (first
  | with_reducible assumption
  | exact sub_of hl (by decide)
  | with_reducible apply cairnQ_only
  | split
  | (with_reducible apply Only.mk
     all_goals first | exact Or.inr rfl | exact Or.inl (hl _ (by decide)) | skip)
  | dsimp only)

/-- What rindTick may change. -/
theorem rindTick_only {parts : List Part} {s_ s : State} (i : TickIn)
    (h : Only parts s_ s)
    (hl : ∀ p ∈ ([.rind] : List Part), p ∈ parts) :
    Only parts s_ (rindTick i s) := by
  unfold rindTick
  repeat' (first
  | with_reducible assumption
  | with_reducible refine foldl_only ?_ (fun _ _ _ => ?_)
  | split
  | (with_reducible apply Only.mk
     all_goals first | exact Or.inr rfl | exact Or.inl (hl _ (by decide)) | skip)
  | dsimp only)

/-- What magStart may change. -/
theorem magStart_only {parts : List Part} {s_ s : State} 
    (h : Only parts s_ s)
    (hl : ∀ p ∈ ([.link, .cairn, .rind, .pw] : List Part), p ∈ parts) :
    Only parts s_ (magStart s) := by
  unfold magStart
  repeat' (first
  | with_reducible assumption
  | exact sub_of hl (by decide)
  | with_reducible apply cairnK_only
  | with_reducible apply rindEvent_only
  | split
  | (with_reducible apply Only.mk
     all_goals first | exact Or.inr rfl | exact Or.inl (hl _ (by decide)) | skip)
  | dsimp only)

/-- What magStop may change. -/
theorem magStop_only {parts : List Part} {s_ s : State} 
    (h : Only parts s_ s)
    (hl : ∀ p ∈ ([.link, .cairn, .rind, .pw] : List Part), p ∈ parts) :
    Only parts s_ (magStop s) := by
  unfold magStop
  repeat' (first
  | with_reducible assumption
  | exact sub_of hl (by decide)
  | with_reducible apply cairnK_only
  | with_reducible apply rindEvent_only
  | (with_reducible apply Only.mk
     all_goals first | exact Or.inr rfl | exact Or.inl (hl _ (by decide)) | skip)
  | dsimp only)

/-- What magEnd may change. -/
theorem magEnd_only {parts : List Part} {s_ s : State} 
    (h : Only parts s_ s)
    (hl : ∀ p ∈ ([.link, .cairn, .rind, .pw] : List Part), p ∈ parts) :
    Only parts s_ (magEnd s) := by
  unfold magEnd
  repeat' (first
  | with_reducible assumption
  | exact sub_of hl (by decide)
  | with_reducible apply magStop_only
  | split
  | (with_reducible apply Only.mk
     all_goals first | exact Or.inr rfl | exact Or.inl (hl _ (by decide)) | skip)
  | dsimp only)

/-! Nand -/

/-- What updChip may change. -/
theorem updChip_only {parts : List Part} {s_ s : State} (i : Nat) (f : Chip → Chip)
    (h : Only parts s_ s)
    (hl : ∀ p ∈ ([.qr] : List Part), p ∈ parts) :
    Only parts s_ (updChip i f s) := by
  unfold updChip
  repeat' (first
  | with_reducible assumption
  | (with_reducible apply Only.mk
     all_goals first | exact Or.inr rfl | exact Or.inl (hl _ (by decide)) | skip))

/-- What updBlk may change. -/
theorem updBlk_only {parts : List Part} {s_ s : State} (i b : Nat) (f : Blk → Blk)
    (h : Only parts s_ s)
    (hl : ∀ p ∈ ([.qr] : List Part), p ∈ parts) :
    Only parts s_ (updBlk i b f s) := by
  unfold updBlk
  repeat' (first
  | with_reducible assumption
  | exact sub_of hl (by decide)
  | with_reducible apply updChip_only
  | (with_reducible apply Only.mk
     all_goals first | exact Or.inr rfl | exact Or.inl (hl _ (by decide)) | skip)
  | dsimp only)

/-- What askErase may change. -/
theorem askErase_only {parts : List Part} {s_ s : State} (i b : Nat)
    (h : Only parts s_ s)
    (hl : ∀ p ∈ ([.qr] : List Part), p ∈ parts) :
    Only parts s_ (askErase i b s) := by
  unfold askErase
  repeat' (first
  | with_reducible assumption
  | exact sub_of hl (by decide)
  | with_reducible apply seAsk_only
  | split
  | (with_reducible apply Only.mk
     all_goals first | exact Or.inr rfl | exact Or.inl (hl _ (by decide)) | skip))

/-- What ringFull may change. -/
theorem ringFull_only {parts : List Part} {s_ s : State} (i kind : Nat)
    (h : Only parts s_ s)
    (hl : ∀ p ∈ ([.qr] : List Part), p ∈ parts) :
    Only parts s_ (ringFull i kind s) := by
  unfold ringFull
  repeat' (first
  | with_reducible assumption
  | exact sub_of hl (by decide)
  | with_reducible apply askErase_only
  | split
  | (with_reducible apply Only.mk
     all_goals first | exact Or.inr rfl | exact Or.inl (hl _ (by decide)) | skip)
  | dsimp only)

/-- What shrinkZone may change. -/
theorem shrinkZone_only {parts : List Part} {s_ s : State} (i kind : Nat)
    (h : Only parts s_ s)
    (hl : ∀ p ∈ ([.qr] : List Part), p ∈ parts) :
    Only parts s_ (shrinkZone i kind s) := by
  unfold shrinkZone
  repeat' (first
  | with_reducible assumption
  | exact sub_of hl (by decide)
  | with_reducible apply askErase_only
  | split
  | (with_reducible apply Only.mk
     all_goals first | exact Or.inr rfl | exact Or.inl (hl _ (by decide)) | skip)
  | dsimp only)

/-- What dropUnit may change. -/
theorem dropUnit_only {parts : List Part} {s_ s : State} (u : NUnit)
    (h : Only parts s_ s)
    (hl : ∀ p ∈ ([.ev, .cairn, .qr] : List Part), p ∈ parts) :
    Only parts s_ (dropUnit u s) := by
  unfold dropUnit
  repeat' (first
  | with_reducible assumption
  | split
  | (with_reducible apply Only.mk
     all_goals first | exact Or.inr rfl | exact Or.inl (hl _ (by decide)) | skip)
  | dsimp only)

/-- What noteAged may change. -/
theorem noteAged_only {parts : List Part} {s_ s : State} (u : NUnit)
    (h : Only parts s_ s)
    (hl : ∀ p ∈ ([.qr] : List Part), p ∈ parts) :
    Only parts s_ (noteAged u s) := by
  unfold noteAged
  repeat' (first
  | with_reducible assumption
  | with_reducible refine foldl_only ?_ (fun _ _ _ => ?_)
  | split
  | (with_reducible apply Only.mk
     all_goals first | exact Or.inr rfl | exact Or.inl (hl _ (by decide)) | skip)
  | dsimp only)

/-- What ageUnit may change. -/
theorem ageUnit_only {parts : List Part} {s_ s : State} (u : NUnit)
    (h : Only parts s_ s)
    (hl : ∀ p ∈ ([.ev, .cairn, .qr] : List Part), p ∈ parts) :
    Only parts s_ (ageUnit u s) := by
  unfold ageUnit
  repeat' (first
  | with_reducible assumption
  | exact sub_of hl (by decide)
  | with_reducible apply dropUnit_only
  | with_reducible apply noteAged_only
  | split
  | (with_reducible apply Only.mk
     all_goals first | exact Or.inr rfl | exact Or.inl (hl _ (by decide)) | skip))

/-- What loseUnit may change. -/
theorem loseUnit_only {parts : List Part} {s_ s : State} (i b n : Nat)
    (h : Only parts s_ s)
    (hl : ∀ p ∈ ([.ev, .cairn, .qr] : List Part), p ∈ parts) :
    Only parts s_ (loseUnit i b n s) := by
  unfold loseUnit
  repeat' (first
  | with_reducible assumption
  | exact sub_of hl (by decide)
  | with_reducible apply dropUnit_only
  | with_reducible apply updBlk_only
  | split
  | (with_reducible apply Only.mk
     all_goals first | exact Or.inr rfl | exact Or.inl (hl _ (by decide)) | skip)
  | dsimp only)

/-- What writeBbt may change. -/
theorem writeBbt_only {parts : List Part} {s_ s : State} (i : Nat)
    (h : Only parts s_ s)
    (hl : ∀ p ∈ ([.qr] : List Part), p ∈ parts) :
    Only parts s_ (writeBbt i s) := by
  unfold writeBbt
  repeat' (first
  | with_reducible assumption
  | exact sub_of hl (by decide)
  | with_reducible apply updChip_only
  | (with_reducible apply Only.mk
     all_goals first | exact Or.inr rfl | exact Or.inl (hl _ (by decide)) | skip)
  | dsimp only)

/-- What retireBlk may change. -/
theorem retireBlk_only {parts : List Part} {s_ s : State} (i b : Nat)
    (h : Only parts s_ s)
    (hl : ∀ p ∈ ([.boot, .link, .tabs, .ev, .ports, .fences, .qr, .pw] : List Part), p ∈ parts) :
    Only parts s_ (retireBlk i b s) := by
  unfold retireBlk
  repeat' (first
  | with_reducible assumption
  | exact sub_of hl (by decide)
  | with_reducible apply fenceNow_only
  | with_reducible apply seAsk_only
  | with_reducible apply shrinkZone_only
  | with_reducible apply updBlk_only
  | with_reducible apply updChip_only
  | with_reducible apply writeBbt_only
  | with_reducible refine foldl_only ?_ (fun _ _ _ => ?_)
  | split
  | (with_reducible apply Only.mk
     all_goals first | exact Or.inr rfl | exact Or.inl (hl _ (by decide)) | skip)
  | dsimp only)

/-- What readDone may change. -/
theorem readDone_only {parts : List Part} {s_ s : State} (i b n out : Nat)
    (h : Only parts s_ s)
    (hl : ∀ p ∈ ([.boot, .link, .tabs, .ev, .cairn, .ports, .fences, .qr, .pw] : List Part), p ∈ parts) :
    Only parts s_ (readDone i b n out s) := by
  unfold readDone
  repeat' (first
  | with_reducible assumption
  | exact sub_of hl (by decide)
  | with_reducible apply loseUnit_only
  | with_reducible apply retireBlk_only
  | with_reducible apply updBlk_only
  | with_reducible apply updChip_only
  | split
  | (with_reducible apply Only.mk
     all_goals first | exact Or.inr rfl | exact Or.inl (hl _ (by decide)) | skip)
  | dsimp only)

/-- What eraseDone may change. -/
theorem eraseDone_only {parts : List Part} {s_ s : State} (code i b : Nat)
    (h : Only parts s_ s)
    (hl : ∀ p ∈ ([.ev, .cairn, .qr] : List Part), p ∈ parts) :
    Only parts s_ (eraseDone code i b s) := by
  unfold eraseDone
  repeat' (first
  | with_reducible assumption
  | exact sub_of hl (by decide)
  | with_reducible apply ageUnit_only
  | with_reducible apply updBlk_only
  | with_reducible refine foldl_only ?_ (fun _ _ _ => ?_)
  | split
  | (with_reducible apply Only.mk
     all_goals first | exact Or.inr rfl | exact Or.inl (hl _ (by decide)) | skip)
  | dsimp only)

/-- What freeBlk may change. -/
theorem freeBlk_only {parts : List Part} {s_ s : State} (i b : Nat)
    (h : Only parts s_ s)
    (hl : ∀ p ∈ ([.qr] : List Part), p ∈ parts) :
    Only parts s_ (freeBlk i b s) := by
  unfold freeBlk
  repeat' (first
  | with_reducible assumption
  | exact sub_of hl (by decide)
  | with_reducible apply updBlk_only
  | (with_reducible apply Only.mk
     all_goals first | exact Or.inr rfl | exact Or.inl (hl _ (by decide)) | skip)
  | dsimp only)

/-! Tariff -/

/-- What tariffEvent may change. -/
theorem tariffEvent_only {parts : List Part} {s_ s : State} (ev det flags tick : Nat) (value : Int)
    (h : Only parts s_ s)
    (hl : ∀ p ∈ ([.link, .pw] : List Part), p ∈ parts) :
    Only parts s_ (tariffEvent ev det flags tick value s) := by
  unfold tariffEvent
  repeat' (first
  | with_reducible assumption
  | exact sub_of hl (by decide)
  | with_reducible apply notify_only
  | (with_reducible apply Only.mk
     all_goals first | exact Or.inr rfl | exact Or.inl (hl _ (by decide)) | skip))

/-- What reschedule may change. -/
theorem reschedule_only {parts : List Part} {s_ s : State} 
    (h : Only parts s_ s)
    (hl : ∀ p ∈ ([.tar] : List Part), p ∈ parts) :
    Only parts s_ (reschedule s) := by
  unfold reschedule
  repeat' (first
  | with_reducible assumption
  | (with_reducible apply Only.mk
     all_goals first | exact Or.inr rfl | exact Or.inl (hl _ (by decide)) | skip)
  | dsimp only)

/-- What clearSubs may change. -/
theorem clearSubs_only {parts : List Part} {s_ s : State} 
    (h : Only parts s_ s)
    (hl : ∀ p ∈ ([.tar] : List Part), p ∈ parts) :
    Only parts s_ (clearSubs s) := by
  unfold clearSubs
  repeat' (first
  | with_reducible assumption
  | (with_reducible apply Only.mk
     all_goals first | exact Or.inr rfl | exact Or.inl (hl _ (by decide)) | skip))

/-- What enterUnknown may change. -/
theorem enterUnknown_only {parts : List Part} {s_ s : State} 
    (h : Only parts s_ s)
    (hl : ∀ p ∈ ([.link, .tar, .pw] : List Part), p ∈ parts) :
    Only parts s_ (enterUnknown s) := by
  unfold enterUnknown
  repeat' (first
  | with_reducible assumption
  | exact sub_of hl (by decide)
  | with_reducible apply clearSubs_only
  | with_reducible apply reschedule_only
  | with_reducible apply tariffEvent_only
  | (with_reducible apply Only.mk
     all_goals first | exact Or.inr rfl | exact Or.inl (hl _ (by decide)) | skip)
  | dsimp only)

/-- What timeClears may change. -/
theorem timeClears_only {parts : List Part} {s_ s : State} (reason : Nat)
    (h : Only parts s_ s)
    (hl : ∀ p ∈ ([.link, .cairn, .rtc, .tar, .pw] : List Part), p ∈ parts) :
    Only parts s_ (timeClears reason s) := by
  unfold timeClears
  repeat' (first
  | with_reducible assumption
  | exact sub_of hl (by decide)
  | with_reducible apply cairnO_only
  | with_reducible apply enterUnknown_only
  | split
  | (with_reducible apply Only.mk
     all_goals first | exact Or.inr rfl | exact Or.inl (hl _ (by decide)) | skip)
  | dsimp only)

/-- What orRise may change. -/
theorem orRise_only {parts : List Part} {s_ s : State}  (h : Only parts s_ s) (hl : ∀ p ∈ ([.tar] : List Part), p ∈ parts) :
    Only parts s_ (orRise s) := by
  unfold orRise
  repeat' (first
  | with_reducible assumption
  | exact sub_of hl (by decide)
  | with_reducible apply reschedule_only
  | split
  | (with_reducible apply Only.mk
     all_goals first | exact Or.inr rfl | exact Or.inl (hl _ (by decide)) | skip))

/-- What rtcTick may change. -/
theorem rtcTick_only {parts : List Part} {s_ s : State} 
    (h : Only parts s_ s)
    (hl : ∀ p ∈ ([.rtc, .tar] : List Part), p ∈ parts) :
    Only parts s_ (rtcTick s) := by
  unfold rtcTick
  repeat' (first
  | with_reducible assumption
  | (with_reducible apply Only.mk
     all_goals first | exact Or.inr rfl | exact Or.inl (hl _ (by decide)) | skip)
  | dsimp only)

/-- What tariffActivateBody may change. -/
theorem tariffActivateBody_only {parts : List Part} {s_ s : State} (pl : List Byte)
    (h : Only parts s_ s)
    (hl : ∀ p ∈ ([.tar] : List Part), p ∈ parts) :
    Only parts s_ (tariffActivateBody pl s).2 := by
  unfold tariffActivateBody
  repeat' (first
  | with_reducible assumption
  | with_reducible apply ok_only
  | with_reducible apply no_only
  | split
  | (with_reducible apply Only.mk
     all_goals first | exact Or.inr rfl | exact Or.inl (hl _ (by decide)) | skip)
  | dsimp only)

/-! Quarry -/

/-- What afterWrite may change. -/
theorem afterWrite_only {parts : List Part} {s_ s : State} (a : Nat) (f : Follow)
    (h : Only parts s_ s)
    (hl : ∀ p ∈ ([.qr] : List Part), p ∈ parts) :
    Only parts s_ (afterWrite a f s) := by
  unfold afterWrite
  repeat' (first
  | with_reducible assumption
  | split
  | (with_reducible apply Only.mk
     all_goals first | exact Or.inr rfl | exact Or.inl (hl _ (by decide)) | skip)
  | dsimp only)

/-- What refuseRead may change. -/
theorem refuseRead_only {parts : List Part} {s_ s : State} (a ch st : Nat) (pending : Bool)
    (h : Only parts s_ s)
    (hl : ∀ p ∈ ([.qr] : List Part), p ∈ parts) :
    Only parts s_ (refuseRead a ch st pending s).2 := by
  unfold refuseRead
  repeat' (first
  | with_reducible assumption
  | exact sub_of hl (by decide)
  | with_reducible apply afterWrite_only
  | with_reducible apply ok_only
  | with_reducible apply no_only
  | split
  | (with_reducible apply Only.mk
     all_goals first | exact Or.inr rfl | exact Or.inl (hl _ (by decide)) | skip))

/-- What readBucket may change. -/
theorem readBucket_only {parts : List Part} {s_ s : State} (a : Nat)
    (h : Only parts s_ s)
    (hl : ∀ p ∈ ([.qr] : List Part), p ∈ parts) :
    Only parts s_ (readBucket a s) := by
  unfold readBucket
  repeat' (first
  | with_reducible assumption
  | exact sub_of hl (by decide)
  | with_reducible apply seAsk_only
  | split
  | (with_reducible apply Only.mk
     all_goals first | exact Or.inr rfl | exact Or.inl (hl _ (by decide)) | skip)
  | dsimp only)

/-- What ledFetch may change. -/
theorem ledFetch_only {parts : List Part} {s_ s : State} (a : Nat)
    (h : Only parts s_ s)
    (hl : ∀ p ∈ ([.ev, .vault, .qr] : List Part), p ∈ parts) :
    Only parts s_ (ledFetch a s).2 := by
  unfold ledFetch
  repeat' (first
  | with_reducible assumption
  | exact sub_of hl (by decide)
  | with_reducible apply aesRun_only
  | with_reducible apply evrec_only
  | with_reducible apply readBucket_only
  | with_reducible apply seAsk_only
  | split
  | (with_reducible apply Only.mk
     all_goals first | exact Or.inr rfl | exact Or.inl (hl _ (by decide)) | skip)
  | dsimp only)

/-- What ledWriteAs may change. -/
theorem ledWriteAs_only {parts : List Part} {s_ s : State} (cls code a : Nat) (r : List Byte) (data : List (List Byte)) (after : List Follow)
    (h : Only parts s_ s)
    (hl : ∀ p ∈ ([.vault, .qr] : List Part), p ∈ parts) :
    Only parts s_ (ledWriteAs cls code a r data after s) := by
  unfold ledWriteAs
  repeat' (first
  | with_reducible assumption
  | exact sub_of hl (by decide)
  | with_reducible apply aesAsk_only
  | with_reducible apply seAsk_only
  | (with_reducible apply Only.mk
     all_goals first | exact Or.inr rfl | exact Or.inl (hl _ (by decide)) | skip)
  | dsimp only)

/-- What ledWrite may change. -/
theorem ledWrite_only {parts : List Part} {s_ s : State} (code a : Nat) (r : List Byte) (data : List (List Byte)) (after : List Follow)
    (h : Only parts s_ s)
    (hl : ∀ p ∈ ([.vault, .qr] : List Part), p ∈ parts) :
    Only parts s_ (ledWrite code a r data after s) := by
  unfold ledWrite
  repeat' (first
  | with_reducible assumption
  | exact sub_of hl (by decide)
  | with_reducible apply ledWriteAs_only
  | (with_reducible apply Only.mk
     all_goals first | exact Or.inr rfl | exact Or.inl (hl _ (by decide)) | skip))

/-- What setUid may change. -/
theorem setUid_only {parts : List Part} {s_ s : State} (i v : Nat)
    (h : Only parts s_ s)
    (hl : ∀ p ∈ ([.qr] : List Part), p ∈ parts) :
    Only parts s_ (setUid i v s) := by
  unfold setUid
  repeat' (first
  | with_reducible assumption
  | (with_reducible apply Only.mk
     all_goals first | exact Or.inr rfl | exact Or.inl (hl _ (by decide)) | skip))

/-- What mapBucket may change. -/
theorem mapBucket_only {parts : List Part} {s_ s : State} (key ad : Nat)
    (h : Only parts s_ s)
    (hl : ∀ p ∈ ([.qr] : List Part), p ∈ parts) :
    Only parts s_ (mapBucket key ad s) := by
  unfold mapBucket
  repeat' (first
  | with_reducible assumption
  | (with_reducible apply Only.mk
     all_goals first | exact Or.inr rfl | exact Or.inl (hl _ (by decide)) | skip))

/-- What takeOp may change. -/
theorem takeOp_only {parts : List Part} {s_ s : State} (o : SeOp)
    (h : Only parts s_ s)
    (hl : ∀ p ∈ ([.cairn, .eg, .qr] : List Part), p ∈ parts) :
    Only parts s_ (takeOp o s) := by
  unfold takeOp
  repeat' (first
  | with_reducible assumption
  | exact sub_of hl (by decide)
  | with_reducible apply rebuild_only
  | (with_reducible apply Only.mk
     all_goals first | exact Or.inr rfl | exact Or.inl (hl _ (by decide)) | skip)
  | dsimp only)

/-- What startNand may change. -/
theorem startNand_only {parts : List Part} {s_ s : State} (chan : Nat)
    (h : Only parts s_ s)
    (hl : ∀ p ∈ ([.qr] : List Part), p ∈ parts) :
    Only parts s_ (startNand chan s) := by
  unfold startNand
  repeat' (first
  | with_reducible assumption
  | split
  | (with_reducible apply Only.mk
     all_goals first | exact Or.inr rfl | exact Or.inl (hl _ (by decide)) | skip)
  | dsimp only)

/-- What startNands may change. -/
theorem startNands_only {parts : List Part} {s_ s : State} 
    (h : Only parts s_ s)
    (hl : ∀ p ∈ ([.qr] : List Part), p ∈ parts) :
    Only parts s_ (startNands s) := by
  unfold startNands
  repeat' (first
  | with_reducible assumption
  | exact sub_of hl (by decide)
  | with_reducible apply startNand_only
  | (with_reducible apply Only.mk
     all_goals first | exact Or.inr rfl | exact Or.inl (hl _ (by decide)) | skip))

/-- What ownWork may change. -/
theorem ownWork_only {parts : List Part} {s_ s : State} 
    (h : Only parts s_ s)
    (hl : ∀ p ∈ ([.cairn, .eg, .qr] : List Part), p ∈ parts) :
    Only parts s_ (ownWork s) := by
  unfold ownWork
  repeat' (first
  | with_reducible assumption
  | exact sub_of hl (by decide)
  | with_reducible apply seAsk_only
  | with_reducible apply takeOp_only
  | split
  | (with_reducible apply Only.mk
     all_goals first | exact Or.inr rfl | exact Or.inl (hl _ (by decide)) | skip)
  | dsimp only)

/-- What quarryJob may change. -/
theorem quarryJob_only {parts : List Part} {s_ s : State} 
    (h : Only parts s_ s)
    (hl : ∀ p ∈ ([.cairn, .eg, .qr] : List Part), p ∈ parts) :
    Only parts s_ (quarryJob s) := by
  unfold quarryJob
  repeat' (first
  | with_reducible assumption
  | exact sub_of hl (by decide)
  | with_reducible apply ownWork_only
  | with_reducible apply startNands_only
  | with_reducible apply takeOp_only
  | split
  | (with_reducible apply Only.mk
     all_goals first | exact Or.inr rfl | exact Or.inl (hl _ (by decide)) | skip)
  | dsimp only)

/-- What useTime may change. -/
theorem useTime_only {parts : List Part} {s_ s : State} (chan cls : Nat)
    (h : Only parts s_ s)
    (hl : ∀ p ∈ ([.qr] : List Part), p ∈ parts) :
    Only parts s_ (useTime chan cls s) := by
  unfold useTime
  repeat' (first
  | with_reducible assumption
  | split
  | (with_reducible apply Only.mk
     all_goals first | exact Or.inr rfl | exact Or.inl (hl _ (by decide)) | skip)
  | dsimp only)

/-- What setOp may change. -/
theorem setOp_only {parts : List Part} {s_ s : State} (o : SeOp)
    (h : Only parts s_ s)
    (hl : ∀ p ∈ ([.qr] : List Part), p ∈ parts) :
    Only parts s_ (setOp o s) := by
  unfold setOp
  repeat' (first
  | with_reducible assumption
  | split
  | (with_reducible apply Only.mk
     all_goals first | exact Or.inr rfl | exact Or.inl (hl _ (by decide)) | skip)
  | dsimp only)

/-- What addSess may change. -/
theorem addSess_only {parts : List Part} {s_ s : State} (d : List (List Byte))
    (h : Only parts s_ s)
    (hl : ∀ p ∈ ([.qr] : List Part), p ∈ parts) :
    Only parts s_ (addSess d s) := by
  unfold addSess
  repeat' (first
  | with_reducible assumption
  | (with_reducible apply Only.mk
     all_goals first | exact Or.inr rfl | exact Or.inl (hl _ (by decide)) | skip)
  | dsimp only)

/-- What applyCopies may change. -/
theorem applyCopies_only {parts : List Part} {s_ s : State} (o : SeOp)
    (h : Only parts s_ s)
    (hl : ∀ p ∈ ([.qr] : List Part), p ∈ parts) :
    Only parts s_ (applyCopies o s) := by
  unfold applyCopies
  repeat' (first
  | with_reducible assumption
  | exact sub_of hl (by decide)
  | with_reducible apply mapBucket_only
  | with_reducible apply updBlk_only
  | with_reducible refine foldl_only ?_ (fun _ _ _ => ?_)
  | split
  | (with_reducible apply Only.mk
     all_goals first | exact Or.inr rfl | exact Or.inl (hl _ (by decide)) | skip)
  | dsimp only)

/-- What journalClose may change. -/
theorem journalClose_only {parts : List Part} {s_ s : State} (o : SeOp) (u : NUnit) (ty : Nat)
    (h : Only parts s_ s)
    (hl : ∀ p ∈ ([.qr] : List Part), p ∈ parts) :
    Only parts s_ (journalClose o u ty s).2 := by
  unfold journalClose
  repeat' (first
  | with_reducible assumption
  | exact sub_of hl (by decide)
  | with_reducible apply addSess_only
  | with_reducible apply applyCopies_only
  | split
  | (with_reducible apply Only.mk
     all_goals first | exact Or.inr rfl | exact Or.inl (hl _ (by decide)) | skip)
  | dsimp only)

/-- What unitDone may change. -/
theorem unitDone_only {parts : List Part} {s_ s : State} (o : SeOp) (t : NStep) (ad : Nat)
    (h : Only parts s_ s)
    (hl : ∀ p ∈ ([.qr] : List Part), p ∈ parts) :
    Only parts s_ (unitDone o t ad s).2 := by
  unfold unitDone
  repeat' (first
  | with_reducible assumption
  | exact sub_of hl (by decide)
  | with_reducible apply mapBucket_only
  | with_reducible apply updBlk_only
  | split
  | (with_reducible apply Only.mk
     all_goals first | exact Or.inr rfl | exact Or.inl (hl _ (by decide)) | skip)
  | dsimp only)

/-- What programDone may change. -/
theorem programDone_only {parts : List Part} {s_ s : State} (o : SeOp) (t : NStep) (rest : List NStep) (u : NUnit) (ad : Nat)
    (h : Only parts s_ s)
    (hl : ∀ p ∈ ([.qr] : List Part), p ∈ parts) :
    Only parts s_ (programDone o t rest u ad s).2 := by
  unfold programDone
  repeat' (first
  | with_reducible assumption
  | exact sub_of hl (by decide)
  | with_reducible apply journalClose_only
  | with_reducible apply unitDone_only
  | split
  | (with_reducible apply Only.mk
     all_goals first | exact Or.inr rfl | exact Or.inl (hl _ (by decide)) | skip)
  | dsimp only)

/-- What nandLate may change. -/
theorem nandLate_only {parts : List Part} {s_ s : State} (chan chip : Nat)
    (h : Only parts s_ s)
    (hl : ∀ p ∈ ([.boot, .link, .tabs, .ev, .ports, .fences, .qr, .pw] : List Part), p ∈ parts) :
    Only parts s_ (nandLate chan chip s) := by
  unfold nandLate
  repeat' (first
  | with_reducible assumption
  | exact sub_of hl (by decide)
  | with_reducible apply fenceNow_only
  | with_reducible apply updChip_only
  | split
  | (with_reducible apply Only.mk
     all_goals first | exact Or.inr rfl | exact Or.inl (hl _ (by decide)) | skip)
  | dsimp only)

/-- What journalCheckpoint may change. -/
theorem journalCheckpoint_only {parts : List Part} {s_ s : State} 
    (h : Only parts s_ s)
    (hl : ∀ p ∈ ([.qr] : List Part), p ∈ parts) :
    Only parts s_ (journalCheckpoint s) := by
  unfold journalCheckpoint
  repeat' (first
  | with_reducible assumption
  | exact sub_of hl (by decide)
  | with_reducible apply seAsk_only
  | split
  | (with_reducible apply Only.mk
     all_goals first | exact Or.inr rfl | exact Or.inl (hl _ (by decide)) | skip))

/-- What ledgerReclaim may change. -/
theorem ledgerReclaim_only {parts : List Part} {s_ s : State} 
    (h : Only parts s_ s)
    (hl : ∀ p ∈ ([.qr] : List Part), p ∈ parts) :
    Only parts s_ (ledgerReclaim s) := by
  unfold ledgerReclaim
  repeat' (first
  | with_reducible assumption
  | exact sub_of hl (by decide)
  | with_reducible apply seAsk_only
  | with_reducible refine foldN_only _ ?_ (fun _ _ _ => ?_)
  | split
  | (with_reducible apply Only.mk
     all_goals first | exact Or.inr rfl | exact Or.inl (hl _ (by decide)) | skip)
  | dsimp only)

/-- What staticMove may change. -/
theorem staticMove_only {parts : List Part} {s_ s : State} 
    (h : Only parts s_ s)
    (hl : ∀ p ∈ ([.qr] : List Part), p ∈ parts) :
    Only parts s_ (staticMove s) := by
  unfold staticMove
  repeat' (first
  | with_reducible assumption
  | exact sub_of hl (by decide)
  | with_reducible apply seAsk_only
  | with_reducible refine foldN_only _ ?_ (fun _ _ _ => ?_)
  | with_reducible refine foldl_only ?_ (fun _ _ _ => ?_)
  | split
  | (with_reducible apply Only.mk
     all_goals first | exact Or.inr rfl | exact Or.inl (hl _ (by decide)) | skip)
  | dsimp only)

/-- What scrub may change. -/
theorem scrub_only {parts : List Part} {s_ s : State}  (h : Only parts s_ s) (hl : ∀ p ∈ ([.qr] : List Part), p ∈ parts) :
    Only parts s_ (scrub s) := by
  unfold scrub
  repeat' (first
  | with_reducible assumption
  | exact sub_of hl (by decide)
  | with_reducible apply seAsk_only
  | with_reducible apply updBlk_only
  | with_reducible refine foldN_only _ ?_ (fun _ _ _ => ?_)
  | split
  | (with_reducible apply Only.mk
     all_goals first | exact Or.inr rfl | exact Or.inl (hl _ (by decide)) | skip)
  | dsimp only)

/-- What sessionSweep may change. -/
theorem sessionSweep_only {parts : List Part} {s_ s : State} 
    (h : Only parts s_ s)
    (hl : ∀ p ∈ ([.qr] : List Part), p ∈ parts) :
    Only parts s_ (sessionSweep s) := by
  unfold sessionSweep
  repeat' (first
  | with_reducible assumption
  | exact sub_of hl (by decide)
  | with_reducible apply seAsk_only
  | split
  | (with_reducible apply Only.mk
     all_goals first | exact Or.inr rfl | exact Or.inl (hl _ (by decide)) | skip)
  | dsimp only)

/-- What evSpill may change. -/
theorem evSpill_only {parts : List Part} {s_ s : State} 
    (h : Only parts s_ s)
    (hl : ∀ p ∈ ([.ev, .qr] : List Part), p ∈ parts) :
    Only parts s_ (evSpill s) := by
  unfold evSpill
  repeat' (first
  | with_reducible assumption
  | exact sub_of hl (by decide)
  | with_reducible apply seAsk_only
  | split
  | (with_reducible apply Only.mk
     all_goals first | exact Or.inr rfl | exact Or.inl (hl _ (by decide)) | skip)
  | dsimp only)

/-- What readItems may change. -/
theorem readItems_only {parts : List Part} {s_ s : State} (kind : Nat) (items : List (List Byte))
    (h : Only parts s_ s)
    (hl : ∀ p ∈ ([.qr] : List Part), p ∈ parts) :
    Only parts s_ (readItems kind items s) := by
  unfold readItems
  repeat' (first
  | with_reducible assumption
  | exact sub_of hl (by decide)
  | with_reducible apply seAsk_only
  | split
  | (with_reducible apply Only.mk
     all_goals first | exact Or.inr rfl | exact Or.inl (hl _ (by decide)) | skip)
  | dsimp only)

/-- What askBill may change. -/
theorem askBill_only {parts : List Part} {s_ s : State} (b : List Byte)
    (h : Only parts s_ s)
    (hl : ∀ p ∈ ([.qr] : List Part), p ∈ parts) :
    Only parts s_ (askBill b s) := by
  unfold askBill
  repeat' (first
  | with_reducible assumption
  | exact sub_of hl (by decide)
  | with_reducible apply seAsk_only
  | (with_reducible apply Only.mk
     all_goals first | exact Or.inr rfl | exact Or.inl (hl _ (by decide)) | skip))

/-- What askBills may change. -/
theorem askBills_only {parts : List Part} {s_ s : State}  (h : Only parts s_ s) (hl : ∀ p ∈ ([.qr] : List Part), p ∈ parts) :
    Only parts s_ (askBills s) := by
  unfold askBills
  repeat' (first
  | with_reducible assumption
  | exact sub_of hl (by decide)
  | with_reducible apply askBill_only
  | with_reducible refine foldl_only ?_ (fun _ _ _ => ?_)
  | split
  | (with_reducible apply Only.mk
     all_goals first | exact Or.inr rfl | exact Or.inl (hl _ (by decide)) | skip)
  | dsimp only)

/-! Accounts -/

/-- What creditEvent may change. -/
theorem creditEvent_only {parts : List Part} {s_ s : State} (port ev old new acct : Nat) (value : Int)
    (h : Only parts s_ s)
    (hl : ∀ p ∈ ([.link, .pw] : List Part), p ∈ parts) :
    Only parts s_ (creditEvent port ev old new acct value s) := by
  unfold creditEvent
  repeat' (first
  | with_reducible assumption
  | exact sub_of hl (by decide)
  | with_reducible apply notify_only
  | (with_reducible apply Only.mk
     all_goals first | exact Or.inr rfl | exact Or.inl (hl _ (by decide)) | skip))

/-- What updSess may change. -/
theorem updSess_only {parts : List Part} {s_ s : State} (p : Nat) (f : Session → Session)
    (h : Only parts s_ s)
    (hl : ∀ p ∈ ([.ports] : List Part), p ∈ parts) :
    Only parts s_ (updSess p f s) := by
  unfold updSess
  repeat' (first
  | with_reducible assumption
  | exact sub_of hl (by decide)
  | with_reducible apply updPort_only
  | (with_reducible apply Only.mk
     all_goals first | exact Or.inr rfl | exact Or.inl (hl _ (by decide)) | skip)
  | dsimp only)

/-- What askOpen may change. -/
theorem askOpen_only {parts : List Part} {s_ s : State} (p acct : Nat) (r : List Byte)
    (h : Only parts s_ s)
    (hl : ∀ p ∈ ([.ports, .vault, .qr] : List Part), p ∈ parts) :
    Only parts s_ (askOpen p acct r s) := by
  unfold askOpen
  repeat' (first
  | with_reducible assumption
  | exact sub_of hl (by decide)
  | with_reducible apply ledWriteAs_only
  | with_reducible apply updSess_only
  | (with_reducible apply Only.mk
     all_goals first | exact Or.inr rfl | exact Or.inl (hl _ (by decide)) | skip)
  | dsimp only)

/-- What askSettle may change. -/
theorem askSettle_only {parts : List Part} {s_ s : State} (acct id charge energy : Nat) (endRec : Nat → List Byte) (after : Nat → List Follow)
    (h : Only parts s_ s)
    (hl : ∀ p ∈ ([.ev, .vault, .qr] : List Part), p ∈ parts) :
    Only parts s_ (askSettle acct id charge energy endRec after s) := by
  unfold askSettle
  repeat' (first
  | with_reducible assumption
  | exact sub_of hl (by decide)
  | with_reducible apply ledFetch_only
  | with_reducible apply ledWrite_only
  | with_reducible apply seAsk_only
  | split
  | (with_reducible apply Only.mk
     all_goals first | exact Or.inr rfl | exact Or.inl (hl _ (by decide)) | skip)
  | dsimp only)

/-- What settlePort may change. -/
theorem settlePort_only {parts : List Part} {s_ s : State} (p : Nat)
    (h : Only parts s_ s)
    (hl : ∀ p ∈ ([.ev, .ports, .vault, .qr] : List Part), p ∈ parts) :
    Only parts s_ (settlePort p s) := by
  unfold settlePort
  repeat' (first
  | with_reducible assumption
  | exact sub_of hl (by decide)
  | with_reducible apply askSettle_only
  | with_reducible apply updSess_only
  | (with_reducible apply Only.mk
     all_goals first | exact Or.inr rfl | exact Or.inl (hl _ (by decide)) | skip)
  | dsimp only)

/-- What sessionSettle may change. -/
theorem sessionSettle_only {parts : List Part} {s_ s : State} 
    (h : Only parts s_ s)
    (hl : ∀ p ∈ ([.ev, .ports, .vault, .qr] : List Part), p ∈ parts) :
    Only parts s_ (sessionSettle s) := by
  unfold sessionSettle
  repeat' (first
  | with_reducible assumption
  | exact sub_of hl (by decide)
  | with_reducible apply settlePort_only
  | split
  | (with_reducible apply Only.mk
     all_goals first | exact Or.inr rfl | exact Or.inl (hl _ (by decide)) | skip)
  | dsimp only)

/-- What reservationAccept may change. -/
theorem reservationAccept_only {parts : List Part} {s_ s : State} 
    (h : Only parts s_ s)
    (hl : ∀ p ∈ ([.link, .hostMem, .ev, .ports, .vault, .qr] : List Part), p ∈ parts) :
    Only parts s_ (reservationAccept s) := by
  unfold reservationAccept
  repeat' (first
  | with_reducible assumption
  | exact sub_of hl (by decide)
  | with_reducible apply answerLate_only
  | with_reducible apply askOpen_only
  | with_reducible apply grantPermit_only
  | with_reducible apply settlePort_only
  | with_reducible apply updSess_only
  | with_reducible apply withdrawPermit_only
  | split
  | (with_reducible apply Only.mk
     all_goals first | exact Or.inr rfl | exact Or.inl (hl _ (by decide)) | skip)
  | dsimp only)

/-- What chargeAll may change. -/
theorem chargeAll_only {parts : List Part} {s_ s : State} (b : List Byte)
    (h : Only parts s_ s)
    (hl : ∀ p ∈ ([.ports] : List Part), p ∈ parts) :
    Only parts s_ (chargeAll b s) := by
  unfold chargeAll
  repeat' (first
  | with_reducible assumption
  | exact sub_of hl (by decide)
  | with_reducible apply updSess_only
  | with_reducible refine eachPort_only ?_ (fun _ _ _ => ?_)
  | split
  | (with_reducible apply Only.mk
     all_goals first | exact Or.inr rfl | exact Or.inl (hl _ (by decide)) | skip)
  | dsimp only)

/-- What segmentAll may change. -/
theorem segmentAll_only {parts : List Part} {s_ s : State} (new : Nat)
    (h : Only parts s_ s)
    (hl : ∀ p ∈ ([.ports, .qr] : List Part), p ∈ parts) :
    Only parts s_ (segmentAll new s) := by
  unfold segmentAll
  repeat' (first
  | with_reducible assumption
  | exact sub_of hl (by decide)
  | with_reducible apply seAsk_only
  | with_reducible apply updSess_only
  | with_reducible refine eachPort_only ?_ (fun _ _ _ => ?_)
  | split
  | (with_reducible apply Only.mk
     all_goals first | exact Or.inr rfl | exact Or.inl (hl _ (by decide)) | skip)
  | dsimp only)

/-- What creditTick may change. -/
theorem creditTick_only {parts : List Part} {s_ s : State} 
    (h : Only parts s_ s)
    (hl : ∀ p ∈ ([.link, .ev, .ports, .pw] : List Part), p ∈ parts) :
    Only parts s_ (creditTick s) := by
  unfold creditTick
  repeat' (first
  | with_reducible assumption
  | exact sub_of hl (by decide)
  | with_reducible apply creditEvent_only
  | with_reducible apply evrec_only
  | with_reducible apply updPort_only
  | with_reducible apply updSess_only
  | with_reducible refine eachPort_only ?_ (fun _ _ _ => ?_)
  | split
  | (with_reducible apply Only.mk
     all_goals first | exact Or.inr rfl | exact Or.inl (hl _ (by decide)) | skip)
  | dsimp only)

/-- What reservationUpdate may change. -/
theorem reservationUpdate_only {parts : List Part} {s_ s : State} (a : Nat)
    (h : Only parts s_ s)
    (hl : ∀ p ∈ ([.ports] : List Part), p ∈ parts) :
    Only parts s_ (reservationUpdate a s) := by
  unfold reservationUpdate
  repeat' (first
  | with_reducible assumption
  | exact sub_of hl (by decide)
  | with_reducible apply updSess_only
  | split
  | (with_reducible apply Only.mk
     all_goals first | exact Or.inr rfl | exact Or.inl (hl _ (by decide)) | skip)
  | dsimp only)

/-- What blockSession may change. -/
theorem blockSession_only {parts : List Part} {s_ s : State} (a : Nat)
    (h : Only parts s_ s)
    (hl : ∀ p ∈ ([.link, .hostMem, .ev, .ports, .safety, .vault, .qr] : List Part), p ∈ parts) :
    Only parts s_ (blockSession a s) := by
  unfold blockSession
  repeat' (first
  | with_reducible assumption
  | exact sub_of hl (by decide)
  | with_reducible apply answerLate_only
  | with_reducible apply endSequence_only
  | with_reducible apply settlePort_only
  | with_reducible apply updPort_only
  | with_reducible apply updSess_only
  | with_reducible apply withdrawPermit_only
  | split
  | (with_reducible apply Only.mk
     all_goals first | exact Or.inr rfl | exact Or.inl (hl _ (by decide)) | skip)
  | dsimp only)

/-- What sessionCheckpoint may change. -/
theorem sessionCheckpoint_only {parts : List Part} {s_ s : State} 
    (h : Only parts s_ s)
    (hl : ∀ p ∈ ([.ports, .qr] : List Part), p ∈ parts) :
    Only parts s_ (sessionCheckpoint s) := by
  unfold sessionCheckpoint
  repeat' (first
  | with_reducible assumption
  | exact sub_of hl (by decide)
  | with_reducible apply updSess_only
  | with_reducible refine eachPort_only ?_ (fun _ _ _ => ?_)
  | split
  | (with_reducible apply Only.mk
     all_goals first | exact Or.inr rfl | exact Or.inl (hl _ (by decide)) | skip)
  | dsimp only)

/-- What restoreSettlement may change. -/
theorem restoreSettlement_only {parts : List Part} {s_ s : State} 
    (h : Only parts s_ s)
    (hl : ∀ p ∈ ([.ev, .vault, .qr] : List Part), p ∈ parts) :
    Only parts s_ (restoreSettlement s) := by
  unfold restoreSettlement
  repeat' (first
  | with_reducible assumption
  | exact sub_of hl (by decide)
  | with_reducible apply askSettle_only
  | split
  | (with_reducible apply Only.mk
     all_goals first | exact Or.inr rfl | exact Or.inl (hl _ (by decide)) | skip)
  | dsimp only)

/-- What refuseUid may change. -/
theorem refuseUid_only {parts : List Part} {s_ s : State} (holder : Option Nat) (a ch : Nat) (pending : Bool)
    (h : Only parts s_ s)
    (hl : ∀ p ∈ ([.qr] : List Part), p ∈ parts) :
    Only parts s_ (refuseUid holder a ch pending s).2 := by
  unfold refuseUid
  repeat' (first
  | with_reducible assumption
  | exact sub_of hl (by decide)
  | with_reducible apply afterWrite_only
  | with_reducible apply refuseRead_only
  | with_reducible apply ok_only
  | with_reducible apply no_only
  | split
  | (with_reducible apply Only.mk
     all_goals first | exact Or.inr rfl | exact Or.inl (hl _ (by decide)) | skip)
  | dsimp only)

/-! Boundary -/

/-- What setWord may change. -/
theorem setWord_only {parts : List Part} {s_ s : State} (i v r : Nat)
    (h : Only parts s_ s)
    (hl : ∀ p ∈ ([.eg] : List Part), p ∈ parts) :
    Only parts s_ (setWord i v r s) := by
  unfold setWord
  repeat' (first
  | with_reducible assumption
  | (with_reducible apply Only.mk
     all_goals first | exact Or.inr rfl | exact Or.inl (hl _ (by decide)) | skip))

/-- What closeDemand may change. -/
theorem closeDemand_only {parts : List Part} {s_ s : State} (end_ flags : Nat) (cr : Credits)
    (h : Only parts s_ s)
    (hl : ∀ p ∈ ([.link, .eg, .tar, .pw] : List Part), p ∈ parts) :
    Only parts s_ (closeDemand end_ flags cr s) := by
  unfold closeDemand
  repeat' (first
  | with_reducible assumption
  | exact sub_of hl (by decide)
  | with_reducible apply setWord_only
  | with_reducible apply tariffEvent_only
  | with_reducible refine foldN_only _ ?_ (fun _ _ _ => ?_)
  | with_reducible refine foldl_only ?_ (fun _ _ _ => ?_)
  | split
  | (with_reducible apply Only.mk
     all_goals first | exact Or.inr rfl | exact Or.inl (hl _ (by decide)) | skip)
  | dsimp only)

/-- What closeProfile may change. -/
theorem closeProfile_only {parts : List Part} {s_ s : State} (end_ : Nat) (cr : Credits)
    (h : Only parts s_ s)
    (hl : ∀ p ∈ ([.tar, .qr] : List Part), p ∈ parts) :
    Only parts s_ (closeProfile end_ cr s) := by
  unfold closeProfile
  repeat' (first
  | with_reducible assumption
  | exact sub_of hl (by decide)
  | with_reducible apply seAsk_only
  | split
  | (with_reducible apply Only.mk
     all_goals first | exact Or.inr rfl | exact Or.inl (hl _ (by decide)) | skip))

/-- What writeSnap may change. -/
theorem writeSnap_only {parts : List Part} {s_ s : State} (b : List Byte)
    (h : Only parts s_ s)
    (hl : ∀ p ∈ ([.tar, .qr] : List Part), p ∈ parts) :
    Only parts s_ (writeSnap b s) := by
  unfold writeSnap
  repeat' (first
  | with_reducible assumption
  | exact sub_of hl (by decide)
  | with_reducible apply askBill_only
  | (with_reducible apply Only.mk
     all_goals first | exact Or.inr rfl | exact Or.inl (hl _ (by decide)) | skip))

/-- What closeBill may change. -/
theorem closeBill_only {parts : List Part} {s_ s : State} (end_ skipped flags : Nat) (newTab : List Byte)
    (h : Only parts s_ s)
    (hl : ∀ p ∈ ([.link, .cairn, .eg, .tar, .pw] : List Part), p ∈ parts) :
    Only parts s_ (closeBill end_ skipped flags newTab s) := by
  unfold closeBill
  repeat' (first
  | with_reducible assumption
  | exact sub_of hl (by decide)
  | with_reducible apply cairnO_only
  | with_reducible apply setWord_only
  | with_reducible apply tariffEvent_only
  | with_reducible refine foldN_only _ ?_ (fun _ _ _ => ?_)
  | (with_reducible apply Only.mk
     all_goals first | exact Or.inr rfl | exact Or.inl (hl _ (by decide)) | skip)
  | dsimp only)

/-- What exchange may change. -/
theorem exchange_only {parts : List Part} {s_ s : State} (r : TableRec)
    (h : Only parts s_ s)
    (hl : ∀ p ∈ ([.tabs, .tar] : List Part), p ∈ parts) :
    Only parts s_ (exchange r s) := by
  unfold exchange
  repeat' (first
  | with_reducible assumption
  | (with_reducible apply Only.mk
     all_goals first | exact Or.inr rfl | exact Or.inl (hl _ (by decide)) | skip)
  | dsimp only)

/-- What stateWords may change. -/
theorem stateWords_only {parts : List Part} {s_ s : State} (rate : Nat) (tcm closing : Bool)
    (h : Only parts s_ s)
    (hl : ∀ p ∈ ([.eg] : List Part), p ∈ parts) :
    Only parts s_ (stateWords rate tcm closing s) := by
  unfold stateWords
  repeat' (first
  | with_reducible assumption
  | exact sub_of hl (by decide)
  | with_reducible apply setWord_only
  | with_reducible refine foldN_only _ ?_ (fun _ _ _ => ?_)
  | split
  | (with_reducible apply Only.mk
     all_goals first | exact Or.inr rfl | exact Or.inl (hl _ (by decide)) | skip)
  | dsimp only)

/-- What commitTick may change. -/
theorem commitTick_only {parts : List Part} {s_ s : State} 
    (h : Only parts s_ s)
    (hl : ∀ p ∈ ([.cairn, .meter, .eg, .ports, .safety] : List Part), p ∈ parts) :
    Only parts s_ (commitTick s) := by
  unfold commitTick
  repeat' (first
  | with_reducible assumption
  | exact sub_of hl (by decide)
  | with_reducible apply chargeAll_only
  | with_reducible apply commitNow_only
  | split
  | (with_reducible apply Only.mk
     all_goals first | exact Or.inr rfl | exact Or.inl (hl _ (by decide)) | skip))

/-- What rebuildSnap may change. -/
theorem rebuildSnap_only {parts : List Part} {s_ s : State} 
    (h : Only parts s_ s)
    (hl : ∀ p ∈ ([.tar, .qr] : List Part), p ∈ parts) :
    Only parts s_ (rebuildSnap s) := by
  unfold rebuildSnap
  repeat' (first
  | with_reducible assumption
  | exact sub_of hl (by decide)
  | with_reducible apply writeSnap_only
  | split
  | (with_reducible apply Only.mk
     all_goals first | exact Or.inr rfl | exact Or.inl (hl _ (by decide)) | skip)
  | dsimp only)

end Sys2Proof.Machine
end

