-- ==== Sys2Proof/Laws/FrameUnits.lean ====
section
/-!
SUPPORT. What each operation may change, to be cited in place of unfolding it: contactless, powerline, store, update, display, power states, tables, supply, reset and tick.
-/

namespace Sys2Proof.Machine

/-! Contactless -/

/-- What updNf may change. -/
theorem updNf_only {parts : List Part} {s_ s : State} (n : Nat) (f : Nf → Nf)
    (h : Only parts s_ s)
    (hl : ∀ p ∈ ([.nf] : List Part), p ∈ parts) :
    Only parts s_ (updNf n f s) := by
  unfold updNf
  repeat' (first
  | with_reducible assumption
  | (with_reducible apply Only.mk
     all_goals first | exact Or.inr rfl | exact Or.inl (hl _ (by decide)) | skip))

/-- What updCard may change. -/
theorem updCard_only {parts : List Part} {s_ s : State} (n : Nat) (f : CardRun → CardRun)
    (h : Only parts s_ s)
    (hl : ∀ p ∈ ([.nf] : List Part), p ∈ parts) :
    Only parts s_ (updCard n f s) := by
  unfold updCard
  repeat' (first
  | with_reducible assumption
  | exact sub_of hl (by decide)
  | with_reducible apply updNf_only
  | (with_reducible apply Only.mk
     all_goals first | exact Or.inr rfl | exact Or.inl (hl _ (by decide)) | skip)
  | dsimp only)

/-- What cardEvent may change. -/
theorem cardEvent_only {parts : List Part} {s_ s : State} (n ev result : Nat) (uid : List Byte)
    (h : Only parts s_ s)
    (hl : ∀ p ∈ ([.link, .pw] : List Part), p ∈ parts) :
    Only parts s_ (cardEvent n ev result uid s) := by
  unfold cardEvent
  repeat' (first
  | with_reducible assumption
  | exact sub_of hl (by decide)
  | with_reducible apply notify_only
  | (with_reducible apply Only.mk
     all_goals first | exact Or.inr rfl | exact Or.inl (hl _ (by decide)) | skip))

/-- What cardEv may change. -/
theorem cardEv_only {parts : List Part} {s_ s : State} (n ev result : Nat)
    (h : Only parts s_ s)
    (hl : ∀ p ∈ ([.link, .pw] : List Part), p ∈ parts) :
    Only parts s_ (cardEv n ev result s) := by
  unfold cardEv
  repeat' (first
  | with_reducible assumption
  | exact sub_of hl (by decide)
  | with_reducible apply cardEvent_only
  | (with_reducible apply Only.mk
     all_goals first | exact Or.inr rfl | exact Or.inl (hl _ (by decide)) | skip))

/-- What nfSend may change. -/
theorem nfSend_only {parts : List Part} {s_ s : State} (n ph : Nat) (b : List Byte)
    (h : Only parts s_ s)
    (hl : ∀ p ∈ ([.nf] : List Part), p ∈ parts) :
    Only parts s_ (nfSend n ph b s) := by
  unfold nfSend
  repeat' (first
  | with_reducible assumption
  | exact sub_of hl (by decide)
  | with_reducible apply updNf_only
  | (with_reducible apply Only.mk
     all_goals first | exact Or.inr rfl | exact Or.inl (hl _ (by decide)) | skip)
  | dsimp only)

/-- What sendReqa may change. -/
theorem sendReqa_only {parts : List Part} {s_ s : State} (n k : Nat)
    (h : Only parts s_ s)
    (hl : ∀ p ∈ ([.nf] : List Part), p ∈ parts) :
    Only parts s_ (sendReqa n k s) := by
  unfold sendReqa
  repeat' (first
  | with_reducible assumption
  | exact sub_of hl (by decide)
  | with_reducible apply nfSend_only
  | with_reducible apply updNf_only
  | (with_reducible apply Only.mk
     all_goals first | exact Or.inr rfl | exact Or.inl (hl _ (by decide)) | skip)
  | dsimp only)

/-- What endPoll may change. -/
theorem endPoll_only {parts : List Part} {s_ s : State} (n : Nat)
    (h : Only parts s_ s)
    (hl : ∀ p ∈ ([.nf] : List Part), p ∈ parts) :
    Only parts s_ (endPoll n s) := by
  unfold endPoll
  repeat' (first
  | with_reducible assumption
  | exact sub_of hl (by decide)
  | with_reducible apply updNf_only
  | (with_reducible apply Only.mk
     all_goals first | exact Or.inr rfl | exact Or.inl (hl _ (by decide)) | skip)
  | dsimp only)

/-- What startPoll may change. -/
theorem startPoll_only {parts : List Part} {s_ s : State} (n : Nat)
    (h : Only parts s_ s)
    (hl : ∀ p ∈ ([.nf] : List Part), p ∈ parts) :
    Only parts s_ (startPoll n s) := by
  unfold startPoll
  repeat' (first
  | with_reducible assumption
  | exact sub_of hl (by decide)
  | with_reducible apply sendReqa_only
  | with_reducible apply updNf_only
  | (with_reducible apply Only.mk
     all_goals first | exact Or.inr rfl | exact Or.inl (hl _ (by decide)) | skip)
  | dsimp only)

/-- What applyCfg may change. -/
theorem applyCfg_only {parts : List Part} {s_ s : State} (n : Nat)
    (h : Only parts s_ s)
    (hl : ∀ p ∈ ([.boot, .link, .nf] : List Part), p ∈ parts) :
    Only parts s_ (applyCfg n s) := by
  unfold applyCfg
  repeat' (first
  | with_reducible assumption
  | exact sub_of hl (by decide)
  | with_reducible apply setReady_only
  | with_reducible apply updNf_only
  | split
  | (with_reducible apply Only.mk
     all_goals first | exact Or.inr rfl | exact Or.inl (hl _ (by decide)) | skip)
  | dsimp only)

/-- What nfBootLift may change. -/
theorem nfBootLift_only {parts : List Part} {s_ s : State} (n : Nat)
    (h : Only parts s_ s)
    (hl : ∀ p ∈ ([.link, .ev, .ports, .fences, .pw] : List Part), p ∈ parts) :
    Only parts s_ (nfBootLift n s) := by
  unfold nfBootLift
  repeat' (first
  | with_reducible assumption
  | exact sub_of hl (by decide)
  | with_reducible apply bootLift_only
  | split
  | (with_reducible apply Only.mk
     all_goals first | exact Or.inr rfl | exact Or.inl (hl _ (by decide)) | skip)
  | dsimp only)

/-- What nfPing may change. -/
theorem nfPing_only {parts : List Part} {s_ s0 : State} (n a : Nat) (phi : Int)
    (h : Only parts s_ s0)
    (hl : ∀ p ∈ ([.boot, .link, .ev, .ports, .nf, .fences, .pw] : List Part), p ∈ parts) :
    Only parts s_ (nfPing n a phi s0) := by
  unfold nfPing
  repeat' (first
  | with_reducible assumption
  | exact sub_of hl (by decide)
  | with_reducible apply applyCfg_only
  | with_reducible apply nfBootLift_only
  | with_reducible apply startPoll_only
  | with_reducible apply updNf_only
  | split
  | (with_reducible apply Only.mk
     all_goals first | exact Or.inr rfl | exact Or.inl (hl _ (by decide)) | skip)
  | dsimp only)

/-- What nfBaseline may change. -/
theorem nfBaseline_only {parts : List Part} {s_ s0 : State} (n : Nat) (l : List (Nat × Int))
    (h : Only parts s_ s0)
    (hl : ∀ p ∈ ([.boot, .link, .ev, .ports, .nf, .fences, .pw] : List Part), p ∈ parts) :
    Only parts s_ (nfBaseline n l s0) := by
  unfold nfBaseline
  repeat' (first
  | with_reducible assumption
  | exact sub_of hl (by decide)
  | with_reducible apply applyCfg_only
  | with_reducible apply nfBootLift_only
  | with_reducible apply setReady_only
  | with_reducible apply updNf_only
  | with_reducible refine foldl_only ?_ (fun _ _ _ => ?_)
  | split
  | (with_reducible apply Only.mk
     all_goals first | exact Or.inr rfl | exact Or.inl (hl _ (by decide)) | skip)
  | dsimp only)

/-- What sendAnti may change. -/
theorem sendAnti_only {parts : List Part} {s_ s : State} (n : Nat)
    (h : Only parts s_ s)
    (hl : ∀ p ∈ ([.nf] : List Part), p ∈ parts) :
    Only parts s_ (sendAnti n s) := by
  unfold sendAnti
  repeat' (first
  | with_reducible assumption
  | exact sub_of hl (by decide)
  | with_reducible apply nfSend_only
  | (with_reducible apply Only.mk
     all_goals first | exact Or.inr rfl | exact Or.inl (hl _ (by decide)) | skip)
  | dsimp only)

/-- What haltCard may change. -/
theorem haltCard_only {parts : List Part} {s_ s : State} (n : Nat)
    (h : Only parts s_ s)
    (hl : ∀ p ∈ ([.nf] : List Part), p ∈ parts) :
    Only parts s_ (haltCard n s) := by
  unfold haltCard
  repeat' (first
  | with_reducible assumption
  | exact sub_of hl (by decide)
  | with_reducible apply nfSend_only
  | with_reducible apply updNf_only
  | split
  | (with_reducible apply Only.mk
     all_goals first | exact Or.inr rfl | exact Or.inl (hl _ (by decide)) | skip)
  | dsimp only)

/-- What refuse may change. -/
theorem refuse_only {parts : List Part} {s_ s : State} (n result : Nat)
    (h : Only parts s_ s)
    (hl : ∀ p ∈ ([.link, .nf, .pw] : List Part), p ∈ parts) :
    Only parts s_ (refuse n result s) := by
  unfold refuse
  repeat' (first
  | with_reducible assumption
  | exact sub_of hl (by decide)
  | with_reducible apply cardEv_only
  | with_reducible apply haltCard_only
  | (with_reducible apply Only.mk
     all_goals first | exact Or.inr rfl | exact Or.inl (hl _ (by decide)) | skip))

/-- What finishCard may change. -/
theorem finishCard_only {parts : List Part} {s_ s : State} (n : Nat)
    (h : Only parts s_ s)
    (hl : ∀ p ∈ ([.link, .nf, .pw] : List Part), p ∈ parts) :
    Only parts s_ (finishCard n s) := by
  unfold finishCard
  repeat' (first
  | with_reducible assumption
  | exact sub_of hl (by decide)
  | with_reducible apply cardEv_only
  | with_reducible apply haltCard_only
  | (with_reducible apply Only.mk
     all_goals first | exact Or.inr rfl | exact Or.inl (hl _ (by decide)) | skip))

/-- What sendPart may change. -/
theorem sendPart_only {parts : List Part} {s_ s : State} (n ph : Nat)
    (h : Only parts s_ s)
    (hl : ∀ p ∈ ([.nf] : List Part), p ∈ parts) :
    Only parts s_ (sendPart n ph s) := by
  unfold sendPart
  repeat' (first
  | with_reducible assumption
  | exact sub_of hl (by decide)
  | with_reducible apply nfSend_only
  | with_reducible apply updCard_only
  | (with_reducible apply Only.mk
     all_goals first | exact Or.inr rfl | exact Or.inl (hl _ (by decide)) | skip)
  | dsimp only)

/-- What nfApp may change. -/
theorem nfApp_only {parts : List Part} {s_ s : State} (n ph : Nat) (b : List Byte)
    (h : Only parts s_ s)
    (hl : ∀ p ∈ ([.nf] : List Part), p ∈ parts) :
    Only parts s_ (nfApp n ph b s) := by
  unfold nfApp
  repeat' (first
  | with_reducible assumption
  | exact sub_of hl (by decide)
  | with_reducible apply sendPart_only
  | with_reducible apply updCard_only
  | (with_reducible apply Only.mk
     all_goals first | exact Or.inr rfl | exact Or.inl (hl _ (by decide)) | skip)
  | dsimp only)

/-- What sendRead may change. -/
theorem sendRead_only {parts : List Part} {s_ s : State} (n ph rcd : Nat)
    (h : Only parts s_ s)
    (hl : ∀ p ∈ ([.nf, .vault] : List Part), p ∈ parts) :
    Only parts s_ (sendRead n ph rcd s) := by
  unfold sendRead
  repeat' (first
  | with_reducible assumption
  | exact sub_of hl (by decide)
  | with_reducible apply aesRun_only
  | with_reducible apply nfApp_only
  | with_reducible apply updCard_only
  | (with_reducible apply Only.mk
     all_goals first | exact Or.inr rfl | exact Or.inl (hl _ (by decide)) | skip)
  | dsimp only)

/-- What sendWrite may change. -/
theorem sendWrite_only {parts : List Part} {s_ s : State} (n ph rcd : Nat) (b : List Byte)
    (h : Only parts s_ s)
    (hl : ∀ p ∈ ([.nf, .vault] : List Part), p ∈ parts) :
    Only parts s_ (sendWrite n ph rcd b s) := by
  unfold sendWrite
  repeat' (first
  | with_reducible assumption
  | exact sub_of hl (by decide)
  | with_reducible apply aesRun_only
  | with_reducible apply nfApp_only
  | with_reducible apply updCard_only
  | (with_reducible apply Only.mk
     all_goals first | exact Or.inr rfl | exact Or.inl (hl _ (by decide)) | skip)
  | dsimp only)

/-- What doProfile may change. -/
theorem doProfile_only {parts : List Part} {s_ s : State} (n : Nat)
    (h : Only parts s_ s)
    (hl : ∀ p ∈ ([.link, .nf, .vault, .pw, .draws] : List Part), p ∈ parts) :
    Only parts s_ (doProfile n s) := by
  unfold doProfile
  repeat' (first
  | with_reducible assumption
  | exact sub_of hl (by decide)
  | with_reducible apply cardEv_only
  | with_reducible apply draw_only
  | with_reducible apply finishCard_only
  | with_reducible apply sendWrite_only
  | with_reducible apply updCard_only
  | split
  | (with_reducible apply Only.mk
     all_goals first | exact Or.inr rfl | exact Or.inl (hl _ (by decide)) | skip)
  | dsimp only)

/-- What waitRecord may change. -/
theorem waitRecord_only {parts : List Part} {s_ s : State} (n a step : Nat)
    (h : Only parts s_ s)
    (hl : ∀ p ∈ ([.nf, .qr] : List Part), p ∈ parts) :
    Only parts s_ (waitRecord n a step s) := by
  unfold waitRecord
  repeat' (first
  | with_reducible assumption
  | exact sub_of hl (by decide)
  | with_reducible apply afterWrite_only
  | with_reducible apply nfSend_only
  | with_reducible apply updCard_only
  | (with_reducible apply Only.mk
     all_goals first | exact Or.inr rfl | exact Or.inl (hl _ (by decide)) | skip)
  | dsimp only)

/-- What absorb may change. -/
theorem absorb_only {parts : List Part} {s_ s : State} (n : Nat)
    (h : Only parts s_ s)
    (hl : ∀ p ∈ ([.link, .nf, .vault, .qr, .pw, .draws] : List Part), p ∈ parts) :
    Only parts s_ (absorb n s) := by
  unfold absorb
  repeat' (first
  | with_reducible assumption
  | exact sub_of hl (by decide)
  | with_reducible apply doProfile_only
  | with_reducible apply ledWrite_only
  | with_reducible apply nfSend_only
  | with_reducible apply updCard_only
  | with_reducible apply waitRecord_only
  | split
  | (with_reducible apply Only.mk
     all_goals first | exact Or.inr rfl | exact Or.inl (hl _ (by decide)) | skip)
  | dsimp only)

/-- What resolvePurse may change. -/
theorem resolvePurse_only {parts : List Part} {s_ s : State} (n : Nat)
    (h : Only parts s_ s)
    (hl : ∀ p ∈ ([.link, .nf, .vault, .qr, .pw, .draws] : List Part), p ∈ parts) :
    Only parts s_ (resolvePurse n s) := by
  unfold resolvePurse
  repeat' (first
  | with_reducible assumption
  | exact sub_of hl (by decide)
  | with_reducible apply absorb_only
  | with_reducible apply creditEvent_only
  | with_reducible apply doProfile_only
  | with_reducible apply ledWrite_only
  | with_reducible apply nfSend_only
  | with_reducible apply updCard_only
  | with_reducible apply waitRecord_only
  | split
  | (with_reducible apply Only.mk
     all_goals first | exact Or.inr rfl | exact Or.inl (hl _ (by decide)) | skip)
  | dsimp only)

/-- What selectApp may change. -/
theorem selectApp_only {parts : List Part} {s_ s : State} (n : Nat)
    (h : Only parts s_ s)
    (hl : ∀ p ∈ ([.nf] : List Part), p ∈ parts) :
    Only parts s_ (selectApp n s) := by
  unfold selectApp
  repeat' (first
  | with_reducible assumption
  | exact sub_of hl (by decide)
  | with_reducible apply nfApp_only
  | (with_reducible apply Only.mk
     all_goals first | exact Or.inr rfl | exact Or.inl (hl _ (by decide)) | skip))

/-- What onAnti may change. -/
theorem onAnti_only {parts : List Part} {s_ s : State} (n : Nat) (ans : List Byte) (pos : Nat)
    (h : Only parts s_ s)
    (hl : ∀ p ∈ ([.link, .nf, .pw] : List Part), p ∈ parts) :
    Only parts s_ (onAnti n ans pos s) := by
  unfold onAnti
  repeat' (first
  | with_reducible assumption
  | exact sub_of hl (by decide)
  | with_reducible apply cardEv_only
  | with_reducible apply endPoll_only
  | with_reducible apply nfSend_only
  | with_reducible apply sendAnti_only
  | with_reducible apply updCard_only
  | split
  | (with_reducible apply Only.mk
     all_goals first | exact Or.inr rfl | exact Or.inl (hl _ (by decide)) | skip)
  | dsimp only)

/-- What onRats may change. -/
theorem onRats_only {parts : List Part} {s_ s : State} (n : Nat) (ats : List Byte)
    (h : Only parts s_ s)
    (hl : ∀ p ∈ ([.nf] : List Part), p ∈ parts) :
    Only parts s_ (onRats n ats s) := by
  unfold onRats
  repeat' (first
  | with_reducible assumption
  | exact sub_of hl (by decide)
  | with_reducible apply nfSend_only
  | with_reducible apply selectApp_only
  | with_reducible apply updCard_only
  | split
  | (with_reducible apply Only.mk
     all_goals first | exact Or.inr rfl | exact Or.inl (hl _ (by decide)) | skip)
  | dsimp only)

/-- What onAuth1 may change. -/
theorem onAuth1_only {parts : List Part} {s_ s : State} (n : Nat) (ans : List Byte)
    (h : Only parts s_ s)
    (hl : ∀ p ∈ ([.link, .nf, .vault, .pw] : List Part), p ∈ parts) :
    Only parts s_ (onAuth1 n ans s) := by
  unfold onAuth1
  repeat' (first
  | with_reducible assumption
  | exact sub_of hl (by decide)
  | with_reducible apply aesRun_only
  | with_reducible apply nfApp_only
  | with_reducible apply randomBytes_only
  | with_reducible apply refuse_only
  | with_reducible apply updCard_only
  | split
  | (with_reducible apply Only.mk
     all_goals first | exact Or.inr rfl | exact Or.inl (hl _ (by decide)) | skip)
  | dsimp only)

/-- What onAuth2 may change. -/
theorem onAuth2_only {parts : List Part} {s_ s : State} (n : Nat) (ans : List Byte)
    (h : Only parts s_ s)
    (hl : ∀ p ∈ ([.link, .nf, .vault, .pw] : List Part), p ∈ parts) :
    Only parts s_ (onAuth2 n ans s) := by
  unfold onAuth2
  repeat' (first
  | with_reducible assumption
  | exact sub_of hl (by decide)
  | with_reducible apply aesRun_only
  | with_reducible apply refuse_only
  | with_reducible apply sendRead_only
  | with_reducible apply updCard_only
  | split
  | (with_reducible apply Only.mk
     all_goals first | exact Or.inr rfl | exact Or.inl (hl _ (by decide)) | skip)
  | dsimp only)

/-- What valueAbort may change. -/
theorem valueAbort_only {parts : List Part} {s_ s : State} (n result : Nat)
    (h : Only parts s_ s)
    (hl : ∀ p ∈ ([.link, .nf, .pw] : List Part), p ∈ parts) :
    Only parts s_ (valueAbort n result s) := by
  unfold valueAbort
  repeat' (first
  | with_reducible assumption
  | exact sub_of hl (by decide)
  | with_reducible apply cardEv_only
  | with_reducible apply haltCard_only
  | with_reducible apply updNf_only
  | (with_reducible apply Only.mk
     all_goals first | exact Or.inr rfl | exact Or.inl (hl _ (by decide)) | skip)
  | dsimp only)

/-- What onValueWrite may change. -/
theorem onValueWrite_only {parts : List Part} {s_ s : State} (n : Nat) (ans : List Byte)
    (h : Only parts s_ s)
    (hl : ∀ p ∈ ([.link, .nf, .vault, .pw] : List Part), p ∈ parts) :
    Only parts s_ (onValueWrite n ans s) := by
  unfold onValueWrite
  repeat' (first
  | with_reducible assumption
  | exact sub_of hl (by decide)
  | with_reducible apply sendRead_only
  | with_reducible apply valueAbort_only
  | split
  | (with_reducible apply Only.mk
     all_goals first | exact Or.inr rfl | exact Or.inl (hl _ (by decide)) | skip)
  | dsimp only)

/-- What onValueRead may change. -/
theorem onValueRead_only {parts : List Part} {s_ s : State} (n : Nat) (ans : List Byte)
    (h : Only parts s_ s)
    (hl : ∀ p ∈ ([.link, .nf, .vault, .qr, .pw, .draws] : List Part), p ∈ parts) :
    Only parts s_ (onValueRead n ans s) := by
  unfold onValueRead
  repeat' (first
  | with_reducible assumption
  | exact sub_of hl (by decide)
  | with_reducible apply doProfile_only
  | with_reducible apply nfSend_only
  | with_reducible apply seAsk_only
  | with_reducible apply sendWrite_only
  | with_reducible apply updCard_only
  | with_reducible apply valueAbort_only
  | split
  | (with_reducible apply Only.mk
     all_goals first | exact Or.inr rfl | exact Or.inl (hl _ (by decide)) | skip)
  | dsimp only)

/-- What creditPurse may change. -/
theorem creditPurse_only {parts : List Part} {s_ s : State} (a : Nat) (after : List Follow)
    (h : Only parts s_ s)
    (hl : ∀ p ∈ ([.vault, .qr] : List Part), p ∈ parts) :
    Only parts s_ (creditPurse a after s) := by
  unfold creditPurse
  repeat' (first
  | with_reducible assumption
  | exact sub_of hl (by decide)
  | with_reducible apply ledWrite_only
  | split
  | (with_reducible apply Only.mk
     all_goals first | exact Or.inr rfl | exact Or.inl (hl _ (by decide)) | skip)
  | dsimp only)

/-- What onVerified may change. -/
theorem onVerified_only {parts : List Part} {s_ s : State} (n a : Nat)
    (h : Only parts s_ s)
    (hl : ∀ p ∈ ([.nf, .vault, .qr] : List Part), p ∈ parts) :
    Only parts s_ (onVerified n a s) := by
  unfold onVerified
  repeat' (first
  | with_reducible assumption
  | exact sub_of hl (by decide)
  | with_reducible apply creditPurse_only
  | with_reducible apply updCard_only
  | split
  | (with_reducible apply Only.mk
     all_goals first | exact Or.inr rfl | exact Or.inl (hl _ (by decide)) | skip)
  | dsimp only)

/-- What onPurse may change. -/
theorem onPurse_only {parts : List Part} {s_ s : State} (n : Nat)
    (h : Only parts s_ s)
    (hl : ∀ p ∈ ([.link, .nf, .vault, .qr, .pw, .draws] : List Part), p ∈ parts) :
    Only parts s_ (onPurse n s) := by
  unfold onPurse
  repeat' (first
  | with_reducible assumption
  | exact sub_of hl (by decide)
  | with_reducible apply absorb_only
  | with_reducible apply aesRun_only
  | with_reducible apply doProfile_only
  | with_reducible apply refuse_only
  | with_reducible apply resolvePurse_only
  | with_reducible apply sendWrite_only
  | with_reducible apply updCard_only
  | split
  | (with_reducible apply Only.mk
     all_goals first | exact Or.inr rfl | exact Or.inl (hl _ (by decide)) | skip)
  | dsimp only)

/-- What onProfWrite may change. -/
theorem onProfWrite_only {parts : List Part} {s_ s : State} (n : Nat) (ans : List Byte)
    (h : Only parts s_ s)
    (hl : ∀ p ∈ ([.link, .nf, .vault, .pw] : List Part), p ∈ parts) :
    Only parts s_ (onProfWrite n ans s) := by
  unfold onProfWrite
  repeat' (first
  | with_reducible assumption
  | exact sub_of hl (by decide)
  | with_reducible apply cardEv_only
  | with_reducible apply finishCard_only
  | with_reducible apply sendRead_only
  | split
  | (with_reducible apply Only.mk
     all_goals first | exact Or.inr rfl | exact Or.inl (hl _ (by decide)) | skip)
  | dsimp only)

/-- What onProfRead may change. -/
theorem onProfRead_only {parts : List Part} {s_ s : State} (n : Nat) (ans : List Byte)
    (h : Only parts s_ s)
    (hl : ∀ p ∈ ([.link, .nf, .pw] : List Part), p ∈ parts) :
    Only parts s_ (onProfRead n ans s) := by
  unfold onProfRead
  repeat' (first
  | with_reducible assumption
  | exact sub_of hl (by decide)
  | with_reducible apply cardEv_only
  | with_reducible apply finishCard_only
  | split
  | (with_reducible apply Only.mk
     all_goals first | exact Or.inr rfl | exact Or.inl (hl _ (by decide)) | skip)
  | dsimp only)

/-- What cardExpiry may change. -/
theorem cardExpiry_only {parts : List Part} {s_ s : State} (n : Nat)
    (h : Only parts s_ s)
    (hl : ∀ p ∈ ([.link, .nf, .pw] : List Part), p ∈ parts) :
    Only parts s_ (cardExpiry n s) := by
  unfold cardExpiry
  repeat' (first
  | with_reducible assumption
  | exact sub_of hl (by decide)
  | with_reducible apply cardEv_only
  | with_reducible apply endPoll_only
  | with_reducible apply sendReqa_only
  | with_reducible apply updNf_only
  | split
  | (with_reducible apply Only.mk
     all_goals first | exact Or.inr rfl | exact Or.inl (hl _ (by decide)) | skip)
  | dsimp only)

/-- What fieldDetect may change. -/
theorem fieldDetect_only {parts : List Part} {s_ s : State} (n : Nat)
    (h : Only parts s_ s)
    (hl : ∀ p ∈ ([.clk, .link, .nf, .vault, .pw] : List Part), p ∈ parts) :
    Only parts s_ (fieldDetect n s) := by
  unfold fieldDetect
  repeat' (first
  | with_reducible assumption
  | exact sub_of hl (by decide)
  | with_reducible apply cardEvent_only
  | with_reducible apply randomBytes_only
  | with_reducible apply updNf_only
  | with_reducible apply wakeFire_only
  | split
  | (with_reducible apply Only.mk
     all_goals first | exact Or.inr rfl | exact Or.inl (hl _ (by decide)) | skip)
  | dsimp only)

/-- What closeMaint may change. -/
theorem closeMaint_only {parts : List Part} {s_ s : State} (n : Nat)
    (h : Only parts s_ s)
    (hl : ∀ p ∈ ([.link, .nf, .pw] : List Part), p ∈ parts) :
    Only parts s_ (closeMaint n s) := by
  unfold closeMaint
  repeat' (first
  | with_reducible assumption
  | exact sub_of hl (by decide)
  | with_reducible apply cardEvent_only
  | with_reducible apply updNf_only
  | split
  | (with_reducible apply Only.mk
     all_goals first | exact Or.inr rfl | exact Or.inl (hl _ (by decide)) | skip)
  | dsimp only)

/-- What fieldEnd may change. -/
theorem fieldEnd_only {parts : List Part} {s_ s : State} (n : Nat)
    (h : Only parts s_ s)
    (hl : ∀ p ∈ ([.clk, .link, .nf, .pw] : List Part), p ∈ parts) :
    Only parts s_ (fieldEnd n s) := by
  unfold fieldEnd
  repeat' (first
  | with_reducible assumption
  | exact sub_of hl (by decide)
  | with_reducible apply closeMaint_only
  | with_reducible apply updNf_only
  | split
  | (with_reducible apply Only.mk
     all_goals first | exact Or.inr rfl | exact Or.inl (hl _ (by decide)) | skip)
  | dsimp only)

/-- What emulationFrame may change. -/
theorem emulationFrame_only {parts : List Part} {s_ s : State} (n : Nat) (f : List Byte)
    (h : Only parts s_ s)
    (hl : ∀ p ∈ ([.link, .nf, .pw] : List Part), p ∈ parts) :
    Only parts s_ (emulationFrame n f s) := by
  unfold emulationFrame
  repeat' (first
  | with_reducible assumption
  | exact sub_of hl (by decide)
  | with_reducible apply closeMaint_only
  | with_reducible apply updNf_only
  | split
  | (with_reducible apply Only.mk
     all_goals first | exact Or.inr rfl | exact Or.inl (hl _ (by decide)) | skip)
  | dsimp only)

/-- What maintTx may change. -/
theorem maintTx_only {parts : List Part} {s_ s : State} (n ty ctr : Nat) (body mac : List Byte)
    (h : Only parts s_ s)
    (hl : ∀ p ∈ ([.nf] : List Part), p ∈ parts) :
    Only parts s_ (maintTx n ty ctr body mac s) := by
  unfold maintTx
  repeat' (first
  | with_reducible assumption
  | exact sub_of hl (by decide)
  | with_reducible apply updNf_only
  | (with_reducible apply Only.mk
     all_goals first | exact Or.inr rfl | exact Or.inl (hl _ (by decide)) | skip)
  | dsimp only)

/-- What maintErr may change. -/
theorem maintErr_only {parts : List Part} {s_ s : State} (n reason : Nat)
    (h : Only parts s_ s)
    (hl : ∀ p ∈ ([.nf] : List Part), p ∈ parts) :
    Only parts s_ (maintErr n reason s) := by
  unfold maintErr
  repeat' (first
  | with_reducible assumption
  | exact sub_of hl (by decide)
  | with_reducible apply maintTx_only
  | (with_reducible apply Only.mk
     all_goals first | exact Or.inr rfl | exact Or.inl (hl _ (by decide)) | skip))

/-- What maintAuth2 may change. -/
theorem maintAuth2_only {parts : List Part} {s_ s : State} (n : Nat) (body : List Byte)
    (h : Only parts s_ s)
    (hl : ∀ p ∈ ([.link, .nf, .vault, .pw] : List Part), p ∈ parts) :
    Only parts s_ (maintAuth2 n body s) := by
  unfold maintAuth2
  repeat' (first
  | with_reducible assumption
  | exact sub_of hl (by decide)
  | with_reducible apply aesRun_only
  | with_reducible apply cardEvent_only
  | with_reducible apply maintErr_only
  | with_reducible apply maintTx_only
  | with_reducible apply updNf_only
  | split
  | (with_reducible apply Only.mk
     all_goals first | exact Or.inr rfl | exact Or.inl (hl _ (by decide)) | skip)
  | dsimp only)

/-- What maintMessage may change. -/
theorem maintMessage_only {parts : List Part} {s_ s : State} (n : Nat) (env : List Byte)
    (h : Only parts s_ s)
    (hl : ∀ p ∈ ([.link, .hostMem, .nf] : List Part), p ∈ parts) :
    Only parts s_ (maintMessage n env s) := by
  unfold maintMessage
  repeat' (first
  | with_reducible assumption
  | exact sub_of hl (by decide)
  | with_reducible apply maintErr_only
  | with_reducible apply updNf_only
  | with_reducible refine fwWrite_only _ (by decide) ?_
  | split
  | (with_reducible apply Only.mk
     all_goals first | exact Or.inr rfl | exact Or.inl (hl _ (by decide)) | skip)
  | dsimp only)

/-- What maintEnvelope may change. -/
theorem maintEnvelope_only {parts : List Part} {s_ s : State} (n : Nat) (env : List Byte)
    (h : Only parts s_ s)
    (hl : ∀ p ∈ ([.link, .hostMem, .nf, .vault, .pw] : List Part), p ∈ parts) :
    Only parts s_ (maintEnvelope n env s) := by
  unfold maintEnvelope
  repeat' (first
  | with_reducible assumption
  | exact sub_of hl (by decide)
  | with_reducible apply aesRun_only
  | with_reducible apply cardEvent_only
  | with_reducible apply maintAuth2_only
  | with_reducible apply maintErr_only
  | with_reducible apply maintMessage_only
  | with_reducible apply maintTx_only
  | with_reducible apply randomBytes_only
  | with_reducible apply updNf_only
  | split
  | (with_reducible apply Only.mk
     all_goals first | exact Or.inr rfl | exact Or.inl (hl _ (by decide)) | skip)
  | dsimp only)

/-- What maintTimeout may change. -/
theorem maintTimeout_only {parts : List Part} {s_ s : State} (n : Nat)
    (h : Only parts s_ s)
    (hl : ∀ p ∈ ([.link, .nf, .pw] : List Part), p ∈ parts) :
    Only parts s_ (maintTimeout n s) := by
  unfold maintTimeout
  repeat' (first
  | with_reducible assumption
  | exact sub_of hl (by decide)
  | with_reducible apply closeMaint_only
  | split
  | (with_reducible apply Only.mk
     all_goals first | exact Or.inr rfl | exact Or.inl (hl _ (by decide)) | skip))

/-- What maintReturn may change. -/
theorem maintReturn_only {parts : List Part} {s_ s : State} (n : Nat)
    (h : Only parts s_ s)
    (hl : ∀ p ∈ ([.link, .nf, .vault] : List Part), p ∈ parts) :
    Only parts s_ (maintReturn n s) := by
  unfold maintReturn
  repeat' (first
  | with_reducible assumption
  | exact sub_of hl (by decide)
  | with_reducible apply aesRun_only
  | with_reducible apply setChan_only
  | with_reducible apply updNf_only
  | split
  | (with_reducible apply Only.mk
     all_goals first | exact Or.inr rfl | exact Or.inl (hl _ (by decide)) | skip)
  | dsimp only)

/-- What nfTick may change. -/
theorem nfTick_only {parts : List Part} {s_ s : State} 
    (h : Only parts s_ s)
    (hl : ∀ p ∈ ([.boot, .link, .nf, .vault] : List Part), p ∈ parts) :
    Only parts s_ (nfTick s) := by
  unfold nfTick
  repeat' (first
  | with_reducible assumption
  | exact sub_of hl (by decide)
  | with_reducible apply applyCfg_only
  | with_reducible apply maintReturn_only
  | with_reducible apply updNf_only
  | with_reducible refine foldN_only _ ?_ (fun _ _ _ => ?_)
  | split
  | (with_reducible apply Only.mk
     all_goals first | exact Or.inr rfl | exact Or.inl (hl _ (by decide)) | skip)
  | dsimp only)

/-- What nfCut may change. -/
theorem nfCut_only {parts : List Part} {s_ s : State}  (h : Only parts s_ s) (hl : ∀ p ∈ ([.nf] : List Part), p ∈ parts) :
    Only parts s_ (nfCut s) := by
  unfold nfCut
  repeat' (first
  | with_reducible assumption
  | exact sub_of hl (by decide)
  | with_reducible apply updNf_only
  | with_reducible refine foldN_only _ ?_ (fun _ _ _ => ?_)
  | split
  | (with_reducible apply Only.mk
     all_goals first | exact Or.inr rfl | exact Or.inl (hl _ (by decide)) | skip)
  | dsimp only)

/-- What profileExpiry may change. -/
theorem profileExpiry_only {parts : List Part} {s_ s : State} 
    (h : Only parts s_ s)
    (hl : ∀ p ∈ ([.nf] : List Part), p ∈ parts) :
    Only parts s_ (profileExpiry s) := by
  unfold profileExpiry
  repeat' (first
  | with_reducible assumption
  | (with_reducible apply Only.mk
     all_goals first | exact Or.inr rfl | exact Or.inl (hl _ (by decide)) | skip)
  | dsimp only)

/-! Powerline -/

/-- What updZc may change. -/
theorem updZc_only {parts : List Part} {s_ s : State} (k : Nat) (f : Zc → Zc)
    (h : Only parts s_ s)
    (hl : ∀ p ∈ ([.pl] : List Part), p ∈ parts) :
    Only parts s_ (updZc k f s) := by
  unfold updZc
  repeat' (first
  | with_reducible assumption
  | (with_reducible apply Only.mk
     all_goals first | exact Or.inr rfl | exact Or.inl (hl _ (by decide)) | skip))

/-- What plEvent may change. -/
theorem plEvent_only {parts : List Part} {s_ s : State} (ev src : Nat) (data : List Byte) (fcnt : Nat)
    (h : Only parts s_ s)
    (hl : ∀ p ∈ ([.link, .pw] : List Part), p ∈ parts) :
    Only parts s_ (plEvent ev src data fcnt s) := by
  unfold plEvent
  repeat' (first
  | with_reducible assumption
  | exact sub_of hl (by decide)
  | with_reducible apply notify_only
  | (with_reducible apply Only.mk
     all_goals first | exact Or.inr rfl | exact Or.inl (hl _ (by decide)) | skip))

/-- What takePhase may change. -/
theorem takePhase_only {parts : List Part} {s_ s : State} 
    (h : Only parts s_ s)
    (hl : ∀ p ∈ ([.link, .pl, .pw] : List Part), p ∈ parts) :
    Only parts s_ (takePhase s) := by
  unfold takePhase
  repeat' (first
  | with_reducible assumption
  | exact sub_of hl (by decide)
  | with_reducible apply plEvent_only
  | split
  | (with_reducible apply Only.mk
     all_goals first | exact Or.inr rfl | exact Or.inl (hl _ (by decide)) | skip)
  | dsimp only)

/-- What superframe may change. -/
theorem superframe_only {parts : List Part} {s_ s : State} 
    (h : Only parts s_ s)
    (hl : ∀ p ∈ ([.lintel, .pl] : List Part), p ∈ parts) :
    Only parts s_ (superframe s) := by
  unfold superframe
  repeat' (first
  | with_reducible assumption
  | (with_reducible apply Only.mk
     all_goals first | exact Or.inr rfl | exact Or.inl (hl _ (by decide)) | skip)
  | dsimp only)

/-- What countPair may change. -/
theorem countPair_only {parts : List Part} {s_ s : State} (at_ : Nat)
    (h : Only parts s_ s)
    (hl : ∀ p ∈ ([.pl] : List Part), p ∈ parts) :
    Only parts s_ (countPair at_ s) := by
  unfold countPair
  repeat' (first
  | with_reducible assumption
  | split
  | (with_reducible apply Only.mk
     all_goals first | exact Or.inr rfl | exact Or.inl (hl _ (by decide)) | skip)
  | dsimp only)

/-- What openWindow may change. -/
theorem openWindow_only {parts : List Part} {s_ s : State} 
    (h : Only parts s_ s)
    (hl : ∀ p ∈ ([.clk, .pl] : List Part), p ∈ parts) :
    Only parts s_ (openWindow s) := by
  unfold openWindow
  repeat' (first
  | with_reducible assumption
  | split
  | (with_reducible apply Only.mk
     all_goals first | exact Or.inr rfl | exact Or.inl (hl _ (by decide)) | skip)
  | dsimp only)

/-- What refCrossing may change. -/
theorem refCrossing_only {parts : List Part} {s_ s : State} (stamp : Nat)
    (h : Only parts s_ s)
    (hl : ∀ p ∈ ([.clk, .link, .lintel, .pl, .pw] : List Part), p ∈ parts) :
    Only parts s_ (refCrossing stamp s) := by
  unfold refCrossing
  repeat' (first
  | with_reducible assumption
  | exact sub_of hl (by decide)
  | with_reducible apply countPair_only
  | with_reducible apply openWindow_only
  | with_reducible apply superframe_only
  | with_reducible apply takePhase_only
  | split
  | (with_reducible apply Only.mk
     all_goals first | exact Or.inr rfl | exact Or.inl (hl _ (by decide)) | skip)
  | dsimp only)

/-- What zcBaseLost may change. -/
theorem zcBaseLost_only {parts : List Part} {s_ s : State} 
    (h : Only parts s_ s)
    (hl : ∀ p ∈ ([.boot, .link, .pl] : List Part), p ∈ parts) :
    Only parts s_ (zcBaseLost s) := by
  unfold zcBaseLost
  repeat' (first
  | with_reducible assumption
  | exact sub_of hl (by decide)
  | with_reducible apply setReady_only
  | with_reducible refine foldN_only _ ?_ (fun _ _ _ => ?_)
  | split
  | (with_reducible apply Only.mk
     all_goals first | exact Or.inr rfl | exact Or.inl (hl _ (by decide)) | skip)
  | dsimp only)

/-- What refUpTo may change. -/
theorem refUpTo_only {parts : List Part} {s_ s : State} (k : Nat)
    (h : Only parts s_ s)
    (hl : ∀ p ∈ ([.clk, .link, .lintel, .pl, .pw] : List Part), p ∈ parts) :
    Only parts s_ (refUpTo k s) := by
  unfold refUpTo
  repeat' (first
  | with_reducible assumption
  | exact sub_of hl (by decide)
  | with_reducible apply refCrossing_only
  | with_reducible refine foldN_only _ ?_ (fun _ _ _ => ?_)
  | split
  | (with_reducible apply Only.mk
     all_goals first | exact Or.inr rfl | exact Or.inl (hl _ (by decide)) | skip)
  | dsimp only)

/-- What zcEdge may change. -/
theorem zcEdge_only {parts : List Part} {s_ s : State} (k stamp noise : Nat)
    (h : Only parts s_ s)
    (hl : ∀ p ∈ ([.clk, .boot, .link, .tabs, .ev, .cal, .ports, .lintel, .safety, .fences, .pl, .pw] : List Part), p ∈ parts) :
    Only parts s_ (zcEdge k stamp noise s) := by
  unfold zcEdge
  repeat' (first
  | with_reducible assumption
  | exact sub_of hl (by decide)
  | with_reducible apply bootLift_only
  | with_reducible apply locked_only
  | with_reducible apply refUpTo_only
  | with_reducible apply setReady_only
  | with_reducible apply updZc_only
  | with_reducible apply zcBaseLost_only
  | split
  | (with_reducible apply Only.mk
     all_goals first | exact Or.inr rfl | exact Or.inl (hl _ (by decide)) | skip)
  | dsimp only)

/-- What zcLost may change. -/
theorem zcLost_only {parts : List Part} {s_ s : State} (k : Nat)
    (h : Only parts s_ s)
    (hl : ∀ p ∈ ([.clk, .boot, .link, .tabs, .ev, .ports, .lintel, .safety, .fences, .pl, .pw] : List Part), p ∈ parts) :
    Only parts s_ (zcLost k s) := by
  unfold zcLost
  repeat' (first
  | with_reducible assumption
  | exact sub_of hl (by decide)
  | with_reducible apply locked_only
  | with_reducible apply refUpTo_only
  | with_reducible apply updZc_only
  | with_reducible apply zcBaseLost_only
  | split
  | (with_reducible apply Only.mk
     all_goals first | exact Or.inr rfl | exact Or.inl (hl _ (by decide)) | skip)
  | dsimp only)

/-- What plAes may change. -/
theorem plAes_only {parts : List Part} {s_ s : State} (m : List Byte)
    (h : Only parts s_ s)
    (hl : ∀ p ∈ ([.vault] : List Part), p ∈ parts) :
    Only parts s_ (plAes m s) := by
  unfold plAes
  repeat' (first
  | with_reducible assumption
  | exact sub_of hl (by decide)
  | with_reducible apply aesRun_only
  | (with_reducible apply Only.mk
     all_goals first | exact Or.inr rfl | exact Or.inl (hl _ (by decide)) | skip))

/-- What plVerify may change. -/
theorem plVerify_only {parts : List Part} {s_ s : State} (m : List Byte)
    (h : Only parts s_ s)
    (hl : ∀ p ∈ ([.vault] : List Part), p ∈ parts) :
    Only parts s_ (plVerify m s) := by
  unfold plVerify
  repeat' (first
  | with_reducible assumption
  | exact sub_of hl (by decide)
  | with_reducible apply macJobs_only
  | (with_reducible apply Only.mk
     all_goals first | exact Or.inr rfl | exact Or.inl (hl _ (by decide)) | skip))

/-- What takeFcnt may change. -/
theorem takeFcnt_only {parts : List Part} {s_ s : State}  (h : Only parts s_ s) (hl : ∀ p ∈ ([.pl] : List Part), p ∈ parts) :
    Only parts s_ (takeFcnt s).2 := by
  unfold takeFcnt
  repeat' (first
  | with_reducible assumption
  | with_reducible refine sysWrite_only _ _ (by decide) ?_ ?_
  | split
  | (with_reducible apply Only.mk
     all_goals first | exact Or.inr rfl | exact Or.inl (hl _ (by decide)) | skip)
  | dsimp only)

/-- What putHigh may change. -/
theorem putHigh_only {parts : List Part} {s_ s : State} (src f : Nat)
    (h : Only parts s_ s)
    (hl : ∀ p ∈ ([.pl] : List Part), p ∈ parts) :
    Only parts s_ (putHigh src f s) := by
  unfold putHigh
  repeat' (first
  | with_reducible assumption
  | with_reducible refine sysWrite_only _ _ (by decide) ?_ ?_
  | (with_reducible apply Only.mk
     all_goals first | exact Or.inr rfl | exact Or.inl (hl _ (by decide)) | skip)
  | dsimp only)

/-- What plEnqueue may change. -/
theorem plEnqueue_only {parts : List Part} {s_ s : State} (ty dst : Nat) (ackReq robust : Bool) (body : List Byte)
    (h : Only parts s_ s)
    (hl : ∀ p ∈ ([.pl, .draws] : List Part), p ∈ parts) :
    Only parts s_ (plEnqueue ty dst ackReq robust body s).2 := by
  unfold plEnqueue
  repeat' (first
  | with_reducible assumption
  | exact sub_of hl (by decide)
  | with_reducible apply draw_only
  | with_reducible apply takeFcnt_only
  | (with_reducible apply Only.mk
     all_goals first | exact Or.inr rfl | exact Or.inl (hl _ (by decide)) | skip)
  | dsimp only)

/-- What creditResult may change. -/
theorem creditResult_only {parts : List Part} {s_ s : State} (account serial status : Nat) (balance : Int)
    (h : Only parts s_ s)
    (hl : ∀ p ∈ ([.pl, .draws] : List Part), p ∈ parts) :
    Only parts s_ (creditResult account serial status balance s) := by
  unfold creditResult
  repeat' (first
  | with_reducible assumption
  | exact sub_of hl (by decide)
  | with_reducible apply plEnqueue_only
  | split
  | (with_reducible apply Only.mk
     all_goals first | exact Or.inr rfl | exact Or.inl (hl _ (by decide)) | skip))

/-- What transmit may change. -/
theorem transmit_only {parts : List Part} {s_ s : State} (robust : Bool) (info len : Nat) (ack : Bool) (mpdu : List Byte) (off : List Bool)
    (h : Only parts s_ s)
    (hl : ∀ p ∈ ([.boot, .link, .tabs, .ev, .ports, .fences, .pl, .pw] : List Part), p ∈ parts) :
    Only parts s_ (transmit robust info len ack mpdu off s) := by
  unfold transmit
  repeat' (first
  | with_reducible assumption
  | exact sub_of hl (by decide)
  | with_reducible apply fenceNow_only
  | with_reducible apply updZc_only
  | with_reducible refine foldl_only ?_ (fun _ _ _ => ?_)
  | split
  | (with_reducible apply Only.mk
     all_goals first | exact Or.inr rfl | exact Or.inl (hl _ (by decide)) | skip)
  | dsimp only)

/-- What sendMpdu may change. -/
theorem sendMpdu_only {parts : List Part} {s_ s : State} (robust : Bool) (pos : Nat) (m : List Byte) (off : List Bool)
    (h : Only parts s_ s)
    (hl : ∀ p ∈ ([.boot, .link, .tabs, .ev, .ports, .fences, .vault, .pl, .pw] : List Part), p ∈ parts) :
    Only parts s_ (sendMpdu robust pos m off s) := by
  unfold sendMpdu
  repeat' (first
  | with_reducible assumption
  | exact sub_of hl (by decide)
  | with_reducible apply plAes_only
  | with_reducible apply transmit_only
  | split
  | (with_reducible apply Only.mk
     all_goals first | exact Or.inr rfl | exact Or.inl (hl _ (by decide)) | skip)
  | dsimp only)

/-- What sendHead may change. -/
theorem sendHead_only {parts : List Part} {s_ s : State} (pos : Nat) (off : List Bool)
    (h : Only parts s_ s)
    (hl : ∀ p ∈ ([.boot, .link, .tabs, .ev, .ports, .fences, .vault, .pl, .pw] : List Part), p ∈ parts) :
    Only parts s_ (sendHead pos off s) := by
  unfold sendHead
  repeat' (first
  | with_reducible assumption
  | exact sub_of hl (by decide)
  | with_reducible apply plEvent_only
  | with_reducible apply sendMpdu_only
  | split
  | (with_reducible apply Only.mk
     all_goals first | exact Or.inr rfl | exact Or.inl (hl _ (by decide)) | skip)
  | dsimp only)

/-- What sendBudget may change. -/
theorem sendBudget_only {parts : List Part} {s_ s : State} (ty pos : Nat) (body : List Byte) (off : List Bool)
    (h : Only parts s_ s)
    (hl : ∀ p ∈ ([.boot, .link, .tabs, .ev, .ports, .fences, .vault, .pl, .pw] : List Part), p ∈ parts) :
    Only parts s_ (sendBudget ty pos body off s) := by
  unfold sendBudget
  repeat' (first
  | with_reducible assumption
  | exact sub_of hl (by decide)
  | with_reducible apply sendMpdu_only
  | with_reducible apply takeFcnt_only
  | (with_reducible apply Only.mk
     all_goals first | exact Or.inr rfl | exact Or.inl (hl _ (by decide)) | skip)
  | dsimp only)

/-- What plFrameTx may change. -/
theorem plFrameTx_only {parts : List Part} {s_ s : State} (off : List Bool)
    (h : Only parts s_ s)
    (hl : ∀ p ∈ ([.boot, .link, .tabs, .ev, .ports, .lintel, .fences, .vault, .pl, .pw] : List Part), p ∈ parts) :
    Only parts s_ (plFrameTx off s) := by
  unfold plFrameTx
  repeat' (first
  | with_reducible assumption
  | exact sub_of hl (by decide)
  | with_reducible apply sendBudget_only
  | with_reducible apply sendHead_only
  | with_reducible apply superframeStart_only
  | with_reducible apply transmit_only
  | split
  | (with_reducible apply Only.mk
     all_goals first | exact Or.inr rfl | exact Or.inl (hl _ (by decide)) | skip)
  | dsimp only)

/-- What plAckTimeout may change. -/
theorem plAckTimeout_only {parts : List Part} {s_ s : State} 
    (h : Only parts s_ s)
    (hl : ∀ p ∈ ([.link, .pl, .pw, .draws] : List Part), p ∈ parts) :
    Only parts s_ (plAckTimeout s) := by
  unfold plAckTimeout
  repeat' (first
  | with_reducible assumption
  | exact sub_of hl (by decide)
  | with_reducible apply draw_only
  | with_reducible apply plEvent_only
  | split
  | (with_reducible apply Only.mk
     all_goals first | exact Or.inr rfl | exact Or.inl (hl _ (by decide)) | skip)
  | dsimp only)

/-- What hearEpoch may change. -/
theorem hearEpoch_only {parts : List Part} {s_ s : State} (e : Nat)
    (h : Only parts s_ s)
    (hl : ∀ p ∈ ([.link, .lintel, .pw] : List Part), p ∈ parts) :
    Only parts s_ (hearEpoch e s) := by
  unfold hearEpoch
  repeat' (first
  | with_reducible assumption
  | exact sub_of hl (by decide)
  | with_reducible apply lintelEvent_only
  | split
  | (with_reducible apply Only.mk
     all_goals first | exact Or.inr rfl | exact Or.inl (hl _ (by decide)) | skip)
  | dsimp only)

/-- What onDemand may change. -/
theorem onDemand_only {parts : List Part} {s_ s : State} (src : Nat) (body : List Byte)
    (h : Only parts s_ s)
    (hl : ∀ p ∈ ([.link, .lintel, .pl, .pw] : List Part), p ∈ parts) :
    Only parts s_ (onDemand src body s) := by
  unfold onDemand
  repeat' (first
  | with_reducible assumption
  | exact sub_of hl (by decide)
  | with_reducible apply hearEpoch_only
  | split
  | (with_reducible apply Only.mk
     all_goals first | exact Or.inr rfl | exact Or.inl (hl _ (by decide)) | skip)
  | dsimp only)

/-- What onAck may change. -/
theorem onAck_only {parts : List Part} {s_ s : State} (info : Nat)
    (h : Only parts s_ s)
    (hl : ∀ p ∈ ([.link, .pl, .pw] : List Part), p ∈ parts) :
    Only parts s_ (onAck info s) := by
  unfold onAck
  repeat' (first
  | with_reducible assumption
  | exact sub_of hl (by decide)
  | with_reducible apply plEvent_only
  | split
  | (with_reducible apply Only.mk
     all_goals first | exact Or.inr rfl | exact Or.inl (hl _ (by decide)) | skip)
  | dsimp only)

/-- What plFail may change. -/
theorem plFail_only {parts : List Part} {s_ s : State} (k : Nat)
    (h : Only parts s_ s)
    (hl : ∀ p ∈ ([.pl] : List Part), p ∈ parts) :
    Only parts s_ (plFail k s) := by
  unfold plFail
  repeat' (first
  | with_reducible assumption
  | (with_reducible apply Only.mk
     all_goals first | exact Or.inr rfl | exact Or.inl (hl _ (by decide)) | skip))

/-- What plUnsettled may change. -/
theorem plUnsettled_only {parts : List Part} {s_ s : State} 
    (h : Only parts s_ s)
    (hl : ∀ p ∈ ([.pl] : List Part), p ∈ parts) :
    Only parts s_ (plUnsettled s) := by
  unfold plUnsettled
  repeat' (first
  | with_reducible assumption
  | exact sub_of hl (by decide)
  | with_reducible apply updZc_only
  | with_reducible refine foldN_only _ ?_ (fun _ _ _ => ?_)
  | split
  | (with_reducible apply Only.mk
     all_goals first | exact Or.inr rfl | exact Or.inl (hl _ (by decide)) | skip)
  | dsimp only)

/-- What plCounted may change. -/
theorem plCounted_only {parts : List Part} {s_ s : State} (rx : List (List Int))
    (h : Only parts s_ s)
    (hl : ∀ p ∈ ([.pl] : List Part), p ∈ parts) :
    Only parts s_ (plCounted rx s) := by
  unfold plCounted
  repeat' (first
  | with_reducible assumption
  | exact sub_of hl (by decide)
  | with_reducible apply plUnsettled_only
  | with_reducible apply updZc_only
  | with_reducible refine foldl_only ?_ (fun _ _ _ => ?_)
  | (with_reducible apply Only.mk
     all_goals first | exact Or.inr rfl | exact Or.inl (hl _ (by decide)) | skip)
  | dsimp only)

/-- What wakeHeard may change. -/
theorem wakeHeard_only {parts : List Part} {s_ s : State} (r : Bool × Nat × List Byte) (rx : List (List Int))
    (h : Only parts s_ s)
    (hl : ∀ p ∈ ([.pl, .pw] : List Part), p ∈ parts) :
    Only parts s_ (wakeHeard r rx s) := by
  unfold wakeHeard
  repeat' (first
  | with_reducible assumption
  | exact sub_of hl (by decide)
  | with_reducible apply wakeFire_only
  | split
  | (with_reducible apply Only.mk
     all_goals first | exact Or.inr rfl | exact Or.inl (hl _ (by decide)) | skip)
  | dsimp only)

/-- What wakePreamble may change. -/
theorem wakePreamble_only {parts : List Part} {s_ s : State} (rx : List (List Int))
    (h : Only parts s_ s)
    (hl : ∀ p ∈ ([.pl, .pw] : List Part), p ∈ parts) :
    Only parts s_ (wakePreamble rx s) := by
  unfold wakePreamble
  repeat' (first
  | with_reducible assumption
  | exact sub_of hl (by decide)
  | with_reducible apply wakeHeard_only
  | (with_reducible apply Only.mk
     all_goals first | exact Or.inr rfl | exact Or.inl (hl _ (by decide)) | skip))

/-- What paenTick may change. -/
theorem paenTick_only {parts : List Part} {s_ s : State}  (h : Only parts s_ s) (hl : ∀ p ∈ ([.pl] : List Part), p ∈ parts) :
    Only parts s_ (paenTick s) := by
  unfold paenTick
  repeat' (first
  | with_reducible assumption
  | split
  | (with_reducible apply Only.mk
     all_goals first | exact Or.inr rfl | exact Or.inl (hl _ (by decide)) | skip))

/-- What shutWindow may change. -/
theorem shutWindow_only {parts : List Part} {s_ s : State} 
    (h : Only parts s_ s)
    (hl : ∀ p ∈ ([.clk, .pl] : List Part), p ∈ parts) :
    Only parts s_ (shutWindow s) := by
  unfold shutWindow
  repeat' (first
  | with_reducible assumption
  | split
  | (with_reducible apply Only.mk
     all_goals first | exact Or.inr rfl | exact Or.inl (hl _ (by decide)) | skip)
  | dsimp only)

/-- What plTick may change. -/
theorem plTick_only {parts : List Part} {s_ s0 : State} 
    (h : Only parts s_ s0)
    (hl : ∀ p ∈ ([.clk, .link, .pl, .pw] : List Part), p ∈ parts) :
    Only parts s_ (plTick s0) := by
  unfold plTick
  repeat' (first
  | with_reducible assumption
  | exact sub_of hl (by decide)
  | with_reducible apply paenTick_only
  | with_reducible apply plEvent_only
  | with_reducible apply shutWindow_only
  | with_reducible apply updZc_only
  | with_reducible refine foldN_only _ ?_ (fun _ _ _ => ?_)
  | split
  | (with_reducible apply Only.mk
     all_goals first | exact Or.inr rfl | exact Or.inl (hl _ (by decide)) | skip)
  | dsimp only)

/-- What plStart may change. -/
theorem plStart_only {parts : List Part} {s_ s : State}  (h : Only parts s_ s) (hl : ∀ p ∈ ([.pl] : List Part), p ∈ parts) :
    Only parts s_ (plStart s) := by
  unfold plStart
  repeat' (first
  | with_reducible assumption
  | (with_reducible apply Only.mk
     all_goals first | exact Or.inr rfl | exact Or.inl (hl _ (by decide)) | skip)
  | dsimp only)

/-! Store -/

/-- What dropVerified may change. -/
theorem dropVerified_only {parts : List Part} {s_ s : State} (a : Nat)
    (h : Only parts s_ s)
    (hl : ∀ p ∈ ([.qr] : List Part), p ∈ parts) :
    Only parts s_ (dropVerified a s) := by
  unfold dropVerified
  repeat' (first
  | with_reducible assumption
  | split
  | (with_reducible apply Only.mk
     all_goals first | exact Or.inr rfl | exact Or.inl (hl _ (by decide)) | skip)
  | dsimp only)

/-- What storeBlob may change. -/
theorem storeBlob_only {parts : List Part} {s_ s : State} (slot : Nat) (data : List (List Byte))
    (h : Only parts s_ s)
    (hl : ∀ p ∈ ([.qr] : List Part), p ∈ parts) :
    Only parts s_ (storeBlob slot data s) := by
  unfold storeBlob
  repeat' (first
  | with_reducible assumption
  | split
  | (with_reducible apply Only.mk
     all_goals first | exact Or.inr rfl | exact Or.inl (hl _ (by decide)) | skip))

/-- What storeTable may change. -/
theorem storeTable_only {parts : List Part} {s_ s : State} (id : Nat) (data : List (List Byte))
    (h : Only parts s_ s)
    (hl : ∀ p ∈ ([.qr] : List Part), p ∈ parts) :
    Only parts s_ (storeTable id data s) := by
  unfold storeTable
  repeat' (first
  | with_reducible assumption
  | (with_reducible apply Only.mk
     all_goals first | exact Or.inr rfl | exact Or.inl (hl _ (by decide)) | skip)
  | dsimp only)

/-- What killOld may change. -/
theorem killOld_only {parts : List Part} {s_ s : State} (kind idx : Nat) (o : SeOp)
    (h : Only parts s_ s)
    (hl : ∀ p ∈ ([.qr] : List Part), p ∈ parts) :
    Only parts s_ (killOld kind idx o s) := by
  unfold killOld
  repeat' (first
  | with_reducible assumption
  | exact sub_of hl (by decide)
  | with_reducible apply updChip_only
  | with_reducible refine foldl_only ?_ (fun _ _ _ => ?_)
  | split
  | (with_reducible apply Only.mk
     all_goals first | exact Or.inr rfl | exact Or.inl (hl _ (by decide)) | skip)
  | dsimp only)

/-- What unfollow may change. -/
theorem unfollow_only {parts : List Part} {s_ s : State} (f : Follow)
    (h : Only parts s_ s)
    (hl : ∀ p ∈ ([.link, .hostMem, .ports, .nf, .pl, .pw, .draws] : List Part), p ∈ parts) :
    Only parts s_ (unfollow f s) := by
  unfold unfollow
  repeat' (first
  | with_reducible assumption
  | exact sub_of hl (by decide)
  | with_reducible apply answerLate_only
  | with_reducible apply creditResult_only
  | with_reducible apply refuse_only
  | with_reducible apply updPort_only
  | with_reducible apply updSess_only
  | split
  | (with_reducible apply Only.mk
     all_goals first | exact Or.inr rfl | exact Or.inl (hl _ (by decide)) | skip)
  | dsimp only)

/-- What dropFailed may change. -/
theorem dropFailed_only {parts : List Part} {s_ s : State} 
    (h : Only parts s_ s)
    (hl : ∀ p ∈ ([.link, .hostMem, .ports, .nf, .vault, .qr, .pl, .pw, .draws] : List Part), p ∈ parts) :
    Only parts s_ (dropFailed s) := by
  unfold dropFailed
  repeat' (first
  | with_reducible assumption
  | exact sub_of hl (by decide)
  | with_reducible apply unfollow_only
  | with_reducible refine foldl_only ?_ (fun _ _ _ => ?_)
  | (with_reducible apply Only.mk
     all_goals first | exact Or.inr rfl | exact Or.inl (hl _ (by decide)) | skip)
  | dsimp only)

/-- What packDone may change. -/
theorem packDone_only {parts : List Part} {s_ s : State} (o : SeOp)
    (h : Only parts s_ s)
    (hl : ∀ p ∈ ([.qr] : List Part), p ∈ parts) :
    Only parts s_ (packDone o s) := by
  unfold packDone
  repeat' (first
  | with_reducible assumption
  | split
  | (with_reducible apply Only.mk
     all_goals first | exact Or.inr rfl | exact Or.inl (hl _ (by decide)) | skip))

/-- What ckptDone may change. -/
theorem ckptDone_only {parts : List Part} {s_ s : State}  (h : Only parts s_ s) (hl : ∀ p ∈ ([.qr] : List Part), p ∈ parts) :
    Only parts s_ (ckptDone s) := by
  unfold ckptDone
  repeat' (first
  | with_reducible assumption
  | exact sub_of hl (by decide)
  | with_reducible apply askErase_only
  | with_reducible refine foldl_only ?_ (fun _ _ _ => ?_)
  | (with_reducible apply Only.mk
     all_goals first | exact Or.inr rfl | exact Or.inl (hl _ (by decide)) | skip)
  | dsimp only)

/-- What freeVictim may change. -/
theorem freeVictim_only {parts : List Part} {s_ s : State} (o : SeOp)
    (h : Only parts s_ s)
    (hl : ∀ p ∈ ([.qr] : List Part), p ∈ parts) :
    Only parts s_ (freeVictim o s) := by
  unfold freeVictim
  repeat' (first
  | with_reducible assumption
  | exact sub_of hl (by decide)
  | with_reducible apply freeBlk_only
  | split
  | (with_reducible apply Only.mk
     all_goals first | exact Or.inr rfl | exact Or.inl (hl _ (by decide)) | skip)
  | dsimp only)

/-- What rebuildCopy may change. -/
theorem rebuildCopy_only {parts : List Part} {s_ s : State} (c : Nat)
    (h : Only parts s_ s)
    (hl : ∀ p ∈ ([.cairn, .eg, .qr] : List Part), p ∈ parts) :
    Only parts s_ (rebuildCopy c s) := by
  unfold rebuildCopy
  repeat' (first
  | with_reducible assumption
  | exact sub_of hl (by decide)
  | with_reducible apply rebuild_only
  | with_reducible apply seAsk_only
  | with_reducible refine foldl_only ?_ (fun _ _ _ => ?_)
  | split
  | (with_reducible apply Only.mk
     all_goals first | exact Or.inr rfl | exact Or.inl (hl _ (by decide)) | skip)
  | dsimp only)

/-- What loadBad may change. -/
theorem loadBad_only {parts : List Part} {s_ s : State} (i : Nat)
    (h : Only parts s_ s)
    (hl : ∀ p ∈ ([.qr] : List Part), p ∈ parts) :
    Only parts s_ (loadBad i s) := by
  unfold loadBad
  repeat' (first
  | with_reducible assumption
  | exact sub_of hl (by decide)
  | with_reducible apply updBlk_only
  | with_reducible apply updChip_only
  | with_reducible apply writeBbt_only
  | with_reducible refine foldl_only ?_ (fun _ _ _ => ?_)
  | split
  | (with_reducible apply Only.mk
     all_goals first | exact Or.inr rfl | exact Or.inl (hl _ (by decide)) | skip)
  | dsimp only)

/-- What mountChip may change. -/
theorem mountChip_only {parts : List Part} {s_ s0 : State} (i : Nat)
    (h : Only parts s_ s0)
    (hl : ∀ p ∈ ([.boot, .link, .tabs, .ev, .ports, .fences, .qr, .pw] : List Part), p ∈ parts) :
    Only parts s_ (mountChip i s0) := by
  unfold mountChip
  repeat' (first
  | with_reducible assumption
  | exact sub_of hl (by decide)
  | with_reducible apply bootLift_only
  | with_reducible apply fenceNow_only
  | with_reducible apply loadBad_only
  | with_reducible apply updChip_only
  | split
  | (with_reducible apply Only.mk
     all_goals first | exact Or.inr rfl | exact Or.inl (hl _ (by decide)) | skip)
  | dsimp only)

/-- What formatChip may change. -/
theorem formatChip_only {parts : List Part} {s_ s : State} (i : Nat)
    (h : Only parts s_ s)
    (hl : ∀ p ∈ ([.ev, .qr] : List Part), p ∈ parts) :
    Only parts s_ (formatChip i s) := by
  unfold formatChip
  repeat' (first
  | with_reducible assumption
  | exact sub_of hl (by decide)
  | with_reducible apply evrec_only
  | with_reducible apply updChip_only
  | with_reducible refine sysWrite_only _ _ (by decide) ?_ ?_
  | split
  | (with_reducible apply Only.mk
     all_goals first | exact Or.inr rfl | exact Or.inl (hl _ (by decide)) | skip)
  | dsimp only)

/-- What zonesHeld may change. -/
theorem zonesHeld_only {parts : List Part} {s_ s : State} 
    (h : Only parts s_ s)
    (hl : ∀ p ∈ ([.ev, .cairn, .qr] : List Part), p ∈ parts) :
    Only parts s_ (zonesHeld s) := by
  unfold zonesHeld
  repeat' (first
  | with_reducible assumption
  | split
  | (with_reducible apply Only.mk
     all_goals first | exact Or.inr rfl | exact Or.inl (hl _ (by decide)) | skip)
  | dsimp only)

/-- What addData may change. -/
theorem addData_only {parts : List Part} {s_ s : State} (b : List Byte)
    (h : Only parts s_ s)
    (hl : ∀ p ∈ ([.cairn, .qr] : List Part), p ∈ parts) :
    Only parts s_ (addData b s) := by
  unfold addData
  repeat' (first
  | with_reducible assumption
  | split
  | (with_reducible apply Only.mk
     all_goals first | exact Or.inr rfl | exact Or.inl (hl _ (by decide)) | skip)
  | dsimp only)

/-- What applyUnit may change. -/
theorem applyUnit_only {parts : List Part} {s_ s : State} (us : List NUnit) (u : NUnit)
    (h : Only parts s_ s)
    (hl : ∀ p ∈ ([.cairn, .qr] : List Part), p ∈ parts) :
    Only parts s_ (applyUnit us u s) := by
  unfold applyUnit
  repeat' (first
  | with_reducible assumption
  | exact sub_of hl (by decide)
  | with_reducible apply addData_only
  | with_reducible apply addSess_only
  | with_reducible apply mapBucket_only
  | with_reducible refine foldl_only ?_ (fun _ _ _ => ?_)
  | split
  | (with_reducible apply Only.mk
     all_goals first | exact Or.inr rfl | exact Or.inl (hl _ (by decide)) | skip)
  | dsimp only)

/-- What loadErases may change. -/
theorem loadErases_only {parts : List Part} {s_ s : State} (c : Ckpt) (us : List NUnit)
    (h : Only parts s_ s)
    (hl : ∀ p ∈ ([.qr] : List Part), p ∈ parts) :
    Only parts s_ (loadErases c us s) := by
  unfold loadErases
  repeat' (first
  | with_reducible assumption
  | exact sub_of hl (by decide)
  | with_reducible apply updBlk_only
  | with_reducible refine foldl_only ?_ (fun _ _ _ => ?_)
  | split
  | (with_reducible apply Only.mk
     all_goals first | exact Or.inr rfl | exact Or.inl (hl _ (by decide)) | skip)
  | dsimp only)

/-- What promote may change. -/
theorem promote_only {parts : List Part} {s_ s : State} (i b : Nat)
    (h : Only parts s_ s)
    (hl : ∀ p ∈ ([.qr] : List Part), p ∈ parts) :
    Only parts s_ (promote i b s) := by
  unfold promote
  repeat' (first
  | with_reducible assumption
  | exact sub_of hl (by decide)
  | with_reducible apply updChip_only
  | split
  | (with_reducible apply Only.mk
     all_goals first | exact Or.inr rfl | exact Or.inl (hl _ (by decide)) | skip)
  | dsimp only)

/-- What restoreOpens may change. -/
theorem restoreOpens_only {parts : List Part} {s_ s : State} 
    (h : Only parts s_ s)
    (hl : ∀ p ∈ ([.tabs] : List Part), p ∈ parts) :
    Only parts s_ (restoreOpens s) := by
  unfold restoreOpens
  repeat' (first
  | with_reducible assumption
  | (with_reducible apply Only.mk
     all_goals first | exact Or.inr rfl | exact Or.inl (hl _ (by decide)) | skip)
  | dsimp only)

/-! Update -/

/-- What updEvent may change. -/
theorem updEvent_only {parts : List Part} {s_ s : State} (ev code value : Nat)
    (h : Only parts s_ s)
    (hl : ∀ p ∈ ([.link, .pw] : List Part), p ∈ parts) :
    Only parts s_ (updEvent ev code value s) := by
  unfold updEvent
  repeat' (first
  | with_reducible assumption
  | exact sub_of hl (by decide)
  | with_reducible apply notify_only
  | (with_reducible apply Only.mk
     all_goals first | exact Or.inr rfl | exact Or.inl (hl _ (by decide)) | skip))

/-- What updClose may change. -/
theorem updClose_only {parts : List Part} {s_ s : State} (code : Nat)
    (h : Only parts s_ s)
    (hl : ∀ p ∈ ([.upd] : List Part), p ∈ parts) :
    Only parts s_ (updClose code s) := by
  unfold updClose
  repeat' (first
  | with_reducible assumption
  | (with_reducible apply Only.mk
     all_goals first | exact Or.inr rfl | exact Or.inl (hl _ (by decide)) | skip))

/-- What clearPause may change. -/
theorem clearPause_only {parts : List Part} {s_ s : State} (code : Nat)
    (h : Only parts s_ s)
    (hl : ∀ p ∈ ([.boot, .link] : List Part), p ∈ parts) :
    Only parts s_ (clearPause code s) := by
  unfold clearPause
  repeat' (first
  | with_reducible assumption
  | exact sub_of hl (by decide)
  | with_reducible apply setReady_only
  | with_reducible refine eachPort_only ?_ (fun _ _ _ => ?_)
  | split
  | (with_reducible apply Only.mk
     all_goals first | exact Or.inr rfl | exact Or.inl (hl _ (by decide)) | skip)
  | dsimp only)

/-- What updSwitch may change. -/
theorem updSwitch_only {parts : List Part} {s_ s : State} 
    (h : Only parts s_ s)
    (hl : ∀ p ∈ ([.boot, .upd] : List Part), p ∈ parts) :
    Only parts s_ (updSwitch s) := by
  unfold updSwitch
  repeat' (first
  | with_reducible assumption
  | exact sub_of hl (by decide)
  | with_reducible apply updImg_only
  | (with_reducible apply Only.mk
     all_goals first | exact Or.inr rfl | exact Or.inl (hl _ (by decide)) | skip)
  | dsimp only)

/-- What updGo may change. -/
theorem updGo_only {parts : List Part} {s_ s : State} 
    (h : Only parts s_ s)
    (hl : ∀ p ∈ ([.clk, .boot, .link, .safety, .nf, .upd, .pl, .pw] : List Part), p ∈ parts) :
    Only parts s_ (updGo s) := by
  unfold updGo
  repeat' (first
  | with_reducible assumption
  | exact sub_of hl (by decide)
  | with_reducible apply clearPause_only
  | with_reducible apply nfCut_only
  | with_reducible apply updEvent_only
  | with_reducible apply updSwitch_only
  | split
  | (with_reducible apply Only.mk
     all_goals first | exact Or.inr rfl | exact Or.inl (hl _ (by decide)) | skip)
  | dsimp only)

/-- What updAnswer may change. -/
theorem updAnswer_only {parts : List Part} {s_ s : State} (status outcome code pause : Nat)
    (h : Only parts s_ s)
    (hl : ∀ p ∈ ([.link, .hostMem, .upd] : List Part), p ∈ parts) :
    Only parts s_ (updAnswer status outcome code pause s) := by
  unfold updAnswer
  repeat' (first
  | with_reducible assumption
  | exact sub_of hl (by decide)
  | with_reducible apply answerLate_only
  | split
  | (with_reducible apply Only.mk
     all_goals first | exact Or.inr rfl | exact Or.inl (hl _ (by decide)) | skip)
  | dsimp only)

/-- What pauseEnd may change. -/
theorem pauseEnd_only {parts : List Part} {s_ s : State} (pause : Nat)
    (h : Only parts s_ s)
    (hl : ∀ p ∈ ([.clk, .boot, .link, .hostMem, .ports, .upd, .pw] : List Part), p ∈ parts) :
    Only parts s_ (pauseEnd pause s) := by
  unfold pauseEnd
  repeat' (first
  | with_reducible assumption
  | exact sub_of hl (by decide)
  | with_reducible apply availPause_only
  | with_reducible apply setReady_only
  | with_reducible apply updAnswer_only
  | with_reducible apply updClose_only
  | with_reducible apply updEvent_only
  | split
  | (with_reducible apply Only.mk
     all_goals first | exact Or.inr rfl | exact Or.inl (hl _ (by decide)) | skip)
  | dsimp only)

/-- What updAbandon may change. -/
theorem updAbandon_only {parts : List Part} {s_ s : State} (status : Nat)
    (h : Only parts s_ s)
    (hl : ∀ p ∈ ([.link, .hostMem, .upd, .pw] : List Part), p ∈ parts) :
    Only parts s_ (updAbandon status s) := by
  unfold updAbandon
  repeat' (first
  | with_reducible assumption
  | exact sub_of hl (by decide)
  | with_reducible apply updAnswer_only
  | with_reducible apply updEvent_only
  | split
  | (with_reducible apply Only.mk
     all_goals first | exact Or.inr rfl | exact Or.inl (hl _ (by decide)) | skip)
  | dsimp only)

/-- What updTick may change. -/
theorem updTick_only {parts : List Part} {s_ s : State} 
    (h : Only parts s_ s)
    (hl : ∀ p ∈ ([.clk, .boot, .link, .hostMem, .safety, .nf, .upd, .pl, .pw] : List Part), p ∈ parts) :
    Only parts s_ (updTick s) := by
  unfold updTick
  repeat' (first
  | with_reducible assumption
  | exact sub_of hl (by decide)
  | with_reducible apply sealOr_only
  | with_reducible apply updAbandon_only
  | with_reducible apply updAnswer_only
  | with_reducible apply updEvent_only
  | with_reducible apply updGo_only
  | with_reducible apply updSwitch_only
  | split
  | (with_reducible apply Only.mk
     all_goals first | exact Or.inr rfl | exact Or.inl (hl _ (by decide)) | skip)
  | dsimp only)

/-- What updateAbortBody may change. -/
theorem updateAbortBody_only {parts : List Part} {s_ s : State} (pl : List Byte)
    (h : Only parts s_ s)
    (hl : ∀ p ∈ ([.link, .upd, .pw] : List Part), p ∈ parts) :
    Only parts s_ (updateAbortBody pl s).2 := by
  unfold updateAbortBody
  repeat' (first
  | with_reducible assumption
  | exact sub_of hl (by decide)
  | with_reducible apply updClose_only
  | with_reducible apply updEvent_only
  | with_reducible apply ok_only
  | with_reducible apply no_only
  | split
  | (with_reducible apply Only.mk
     all_goals first | exact Or.inr rfl | exact Or.inl (hl _ (by decide)) | skip))

/-! Scan -/

/-- What dispPins may change. -/
theorem dispPins_only {parts : List Part} {s_ s : State} 
    (h : Only parts s_ s)
    (hl : ∀ p ∈ ([.link, .disp] : List Part), p ∈ parts) :
    Only parts s_ (dispPins s) := by
  unfold dispPins
  repeat' (first
  | with_reducible assumption
  | exact sub_of hl (by decide)
  | with_reducible apply updDisp_only
  | exact fun _ => rfl
  | split
  | (with_reducible apply Only.mk
     all_goals first | exact Or.inr rfl | exact Or.inl (hl _ (by decide)) | skip)
  | dsimp only)

/-! Display -/

/-- What dispEvent may change. -/
theorem dispEvent_only {parts : List Part} {s_ s : State} (ev value : Nat) (data : List Byte)
    (h : Only parts s_ s)
    (hl : ∀ p ∈ ([.link, .ev, .pw] : List Part), p ∈ parts) :
    Only parts s_ (dispEvent ev value data s) := by
  unfold dispEvent
  repeat' (first
  | with_reducible assumption
  | exact sub_of hl (by decide)
  | with_reducible apply evrec_only
  | with_reducible apply notify_only
  | split
  | (with_reducible apply Only.mk
     all_goals first | exact Or.inr rfl | exact Or.inl (hl _ (by decide)) | skip)
  | dsimp only)

/-- What copySafe may change. -/
theorem copySafe_only {parts : List Part} {s_ s : State} 
    (h : Only parts s_ s)
    (hl : ∀ p ∈ ([.disp] : List Part), p ∈ parts) :
    Only parts s_ (copySafe s) := by
  unfold copySafe
  repeat' (first
  | with_reducible assumption
  | exact sub_of hl (by decide)
  | with_reducible apply updDisp_only
  | exact fun _ => rfl
  | split
  | (with_reducible apply Only.mk
     all_goals first | exact Or.inr rfl | exact Or.inl (hl _ (by decide)) | skip)
  | dsimp only)

/-- What dispOn may change. -/
theorem dispOn_only {parts : List Part} {s_ s : State} 
    (h : Only parts s_ s)
    (hl : ∀ p ∈ ([.clk, .link, .disp] : List Part), p ∈ parts) :
    Only parts s_ (dispOn s) := by
  unfold dispOn
  repeat' (first
  | with_reducible assumption
  | exact sub_of hl (by decide)
  | with_reducible apply copySafe_only
  | with_reducible apply dispPins_only
  | with_reducible apply updDisp_only
  | exact fun _ => rfl
  | (with_reducible apply Only.mk
     all_goals first | exact Or.inr rfl | exact Or.inl (hl _ (by decide)) | skip)
  | dsimp only)

/-- What dispDischarge may change. -/
theorem dispDischarge_only {parts : List Part} {s_ s : State} (again : Bool)
    (h : Only parts s_ s)
    (hl : ∀ p ∈ ([.link, .ev, .disp, .pw] : List Part), p ∈ parts) :
    Only parts s_ (dispDischarge again s) := by
  unfold dispDischarge
  repeat' (first
  | with_reducible assumption
  | exact sub_of hl (by decide)
  | with_reducible apply dispEvent_only
  | with_reducible apply dispPins_only
  | with_reducible apply updDisp_only
  | exact fun _ => rfl
  | split
  | (with_reducible apply Only.mk
     all_goals first | exact Or.inr rfl | exact Or.inl (hl _ (by decide)) | skip)
  | dsimp only)

/-- What dispDark may change. -/
theorem dispDark_only {parts : List Part} {s_ s : State} 
    (h : Only parts s_ s)
    (hl : ∀ p ∈ ([.clk, .link, .disp] : List Part), p ∈ parts) :
    Only parts s_ (dispDark s) := by
  unfold dispDark
  repeat' (first
  | with_reducible assumption
  | exact sub_of hl (by decide)
  | with_reducible apply updDisp_only
  | exact fun _ => rfl
  | (with_reducible apply Only.mk
     all_goals first | exact Or.inr rfl | exact Or.inl (hl _ (by decide)) | skip)
  | dsimp only)

/-- What dispPfail may change. -/
theorem dispPfail_only {parts : List Part} {s_ s : State} 
    (h : Only parts s_ s)
    (hl : ∀ p ∈ ([.link, .ev, .disp, .pw] : List Part), p ∈ parts) :
    Only parts s_ (dispPfail s) := by
  unfold dispPfail
  repeat' (first
  | with_reducible assumption
  | exact sub_of hl (by decide)
  | with_reducible apply dispDischarge_only
  | with_reducible apply dispEvent_only
  | split
  | (with_reducible apply Only.mk
     all_goals first | exact Or.inr rfl | exact Or.inl (hl _ (by decide)) | skip))

/-- What pdischRelease may change. -/
theorem pdischRelease_only {parts : List Part} {s_ s : State} 
    (h : Only parts s_ s)
    (hl : ∀ p ∈ ([.clk, .link, .ev, .disp, .pw] : List Part), p ∈ parts) :
    Only parts s_ (pdischRelease s) := by
  unfold pdischRelease
  repeat' (first
  | with_reducible assumption
  | exact sub_of hl (by decide)
  | with_reducible apply dispDark_only
  | with_reducible apply dispEvent_only
  | with_reducible apply dispOn_only
  | with_reducible apply updDisp_only
  | exact fun _ => rfl
  | split
  | (with_reducible apply Only.mk
     all_goals first | exact Or.inr rfl | exact Or.inl (hl _ (by decide)) | skip)
  | dsimp only)

/-- What displaySwitchOn may change. -/
theorem displaySwitchOn_only {parts : List Part} {s_ s : State} 
    (h : Only parts s_ s)
    (hl : ∀ p ∈ ([.clk, .link, .disp] : List Part), p ∈ parts) :
    Only parts s_ (displaySwitchOn s) := by
  unfold displaySwitchOn
  repeat' (first
  | with_reducible assumption
  | exact sub_of hl (by decide)
  | with_reducible apply dispOn_only
  | split
  | (with_reducible apply Only.mk
     all_goals first | exact Or.inr rfl | exact Or.inl (hl _ (by decide)) | skip))

/-- What showSurface may change. -/
theorem showSurface_only {parts : List Part} {s_ s : State} (n : Nat)
    (h : Only parts s_ s)
    (hl : ∀ p ∈ ([.disp] : List Part), p ∈ parts) :
    Only parts s_ (showSurface n s) := by
  unfold showSurface
  repeat' (first
  | with_reducible assumption
  | exact sub_of hl (by decide)
  | with_reducible apply updDisp_only
  | exact fun _ => rfl
  | split
  | (with_reducible apply Only.mk
     all_goals first | exact Or.inr rfl | exact Or.inl (hl _ (by decide)) | skip)
  | dsimp only)

/-- What checkFrame may change. -/
theorem checkFrame_only {parts : List Part} {s_ s : State} 
    (h : Only parts s_ s)
    (hl : ∀ p ∈ ([.link, .ev, .disp, .pw] : List Part), p ∈ parts) :
    Only parts s_ (checkFrame s) := by
  unfold checkFrame
  repeat' (first
  | with_reducible assumption
  | exact sub_of hl (by decide)
  | with_reducible apply dispEvent_only
  | with_reducible apply updDisp_only
  | exact fun _ => rfl
  | split
  | (with_reducible apply Only.mk
     all_goals first | exact Or.inr rfl | exact Or.inl (hl _ (by decide)) | skip)
  | dsimp only)

/-- What checkSafe may change. -/
theorem checkSafe_only {parts : List Part} {s_ s : State} 
    (h : Only parts s_ s)
    (hl : ∀ p ∈ ([.boot, .link, .tabs, .ev, .ports, .fences, .disp, .pw] : List Part), p ∈ parts) :
    Only parts s_ (checkSafe s) := by
  unfold checkSafe
  repeat' (first
  | with_reducible assumption
  | exact sub_of hl (by decide)
  | with_reducible apply dispDischarge_only
  | with_reducible apply fenceNow_only
  | with_reducible apply updDisp_only
  | exact fun _ => rfl
  | split
  | (with_reducible apply Only.mk
     all_goals first | exact Or.inr rfl | exact Or.inl (hl _ (by decide)) | skip)
  | dsimp only)

/-- What frameBegins may change. -/
theorem frameBegins_only {parts : List Part} {s_ s : State} (first : Bool)
    (h : Only parts s_ s)
    (hl : ∀ p ∈ ([.disp] : List Part), p ∈ parts) :
    Only parts s_ (frameBegins first s) := by
  unfold frameBegins
  repeat' (first
  | with_reducible assumption
  | exact sub_of hl (by decide)
  | with_reducible apply updDisp_only
  | exact fun _ => rfl
  | split
  | (with_reducible apply Only.mk
     all_goals first | exact Or.inr rfl | exact Or.inl (hl _ (by decide)) | skip)
  | dsimp only)

/-- What frameWaits may change. -/
theorem frameWaits_only {parts : List Part} {s_ s : State} 
    (h : Only parts s_ s)
    (hl : ∀ p ∈ ([.link, .ev, .disp, .pw] : List Part), p ∈ parts) :
    Only parts s_ (frameWaits s) := by
  unfold frameWaits
  repeat' (first
  | with_reducible assumption
  | exact sub_of hl (by decide)
  | with_reducible apply copySafe_only
  | with_reducible apply dispDischarge_only
  | with_reducible apply showSurface_only
  | with_reducible apply updDisp_only
  | exact fun _ => rfl
  | split
  | (with_reducible apply Only.mk
     all_goals first | exact Or.inr rfl | exact Or.inl (hl _ (by decide)) | skip)
  | dsimp only)

/-- What frameStart may change. -/
theorem frameStart_only {parts : List Part} {s_ s : State} (upset : List (Nat × Byte))
    (h : Only parts s_ s)
    (hl : ∀ p ∈ ([.boot, .link, .tabs, .ev, .ports, .fences, .disp, .frameMem, .pw] : List Part), p ∈ parts) :
    Only parts s_ (frameStart upset s) := by
  unfold frameStart
  repeat' (first
  | with_reducible assumption
  | exact sub_of hl (by decide)
  | with_reducible apply checkFrame_only
  | with_reducible apply checkSafe_only
  | with_reducible apply dispPins_only
  | with_reducible apply frameBegins_only
  | with_reducible apply frameWaits_only
  | with_reducible apply updDisp_only
  | exact fun _ => rfl
  | with_reducible apply dispUpset_only
  | split
  | (with_reducible apply Only.mk
     all_goals first | exact Or.inr rfl | exact Or.inl (hl _ (by decide)) | skip)
  | dsimp only)

/-- What dispFollow may change. -/
theorem dispFollow_only {parts : List Part} {s_ s : State} 
    (h : Only parts s_ s)
    (hl : ∀ p ∈ ([.clk, .link, .ev, .disp, .pw] : List Part), p ∈ parts) :
    Only parts s_ (dispFollow s) := by
  unfold dispFollow
  repeat' (first
  | with_reducible assumption
  | exact sub_of hl (by decide)
  | with_reducible apply copySafe_only
  | with_reducible apply dispDark_only
  | with_reducible apply dispDischarge_only
  | with_reducible apply dispEvent_only
  | with_reducible apply dispOn_only
  | with_reducible apply updDisp_only
  | exact fun _ => rfl
  | split
  | (with_reducible apply Only.mk
     all_goals first | exact Or.inr rfl | exact Or.inl (hl _ (by decide)) | skip)
  | dsimp only)

/-- What dispTick may change. -/
theorem dispTick_only {parts : List Part} {s_ s : State} 
    (h : Only parts s_ s)
    (hl : ∀ p ∈ ([.clk, .link, .ev, .disp, .pw] : List Part), p ∈ parts) :
    Only parts s_ (dispTick s) := by
  unfold dispTick
  repeat' (first
  | with_reducible assumption
  | exact sub_of hl (by decide)
  | with_reducible apply dispFollow_only
  | with_reducible apply dispPins_only
  | (with_reducible apply Only.mk
     all_goals first | exact Or.inr rfl | exact Or.inl (hl _ (by decide)) | skip))

/-! PowerStates -/

/-- What powerEvent may change. -/
theorem powerEvent_only {parts : List Part} {s_ s : State} (ev det value : Nat)
    (h : Only parts s_ s)
    (hl : ∀ p ∈ ([.link, .pw] : List Part), p ∈ parts) :
    Only parts s_ (powerEvent ev det value s) := by
  unfold powerEvent
  repeat' (first
  | with_reducible assumption
  | exact sub_of hl (by decide)
  | with_reducible apply notify_only
  | (with_reducible apply Only.mk
     all_goals first | exact Or.inr rfl | exact Or.inl (hl _ (by decide)) | skip))

/-- What psRefuse may change. -/
theorem psRefuse_only {parts : List Part} {s_ s : State} (code : Nat)
    (h : Only parts s_ s)
    (hl : ∀ p ∈ ([.ev, .pw] : List Part), p ∈ parts) :
    Only parts s_ (psRefuse code s) := by
  unfold psRefuse
  repeat' (first
  | with_reducible assumption
  | exact sub_of hl (by decide)
  | with_reducible apply evrec_only
  | (with_reducible apply Only.mk
     all_goals first | exact Or.inr rfl | exact Or.inl (hl _ (by decide)) | skip))

/-- What psAbort may change. -/
theorem psAbort_only {parts : List Part} {s_ s : State} (code : Nat)
    (h : Only parts s_ s)
    (hl : ∀ p ∈ ([.link, .ev, .pl, .pw] : List Part), p ∈ parts) :
    Only parts s_ (psAbort code s) := by
  unfold psAbort
  repeat' (first
  | with_reducible assumption
  | exact sub_of hl (by decide)
  | with_reducible apply powerEvent_only
  | with_reducible apply psRefuse_only
  | (with_reducible apply Only.mk
     all_goals first | exact Or.inr rfl | exact Or.inl (hl _ (by decide)) | skip))

/-- What mbxTimeout may change. -/
theorem mbxTimeout_only {parts : List Part} {s_ s : State} 
    (h : Only parts s_ s)
    (hl : ∀ p ∈ ([.link, .ev, .pl, .pw] : List Part), p ∈ parts) :
    Only parts s_ (mbxTimeout s) := by
  unfold mbxTimeout
  repeat' (first
  | with_reducible assumption
  | exact sub_of hl (by decide)
  | with_reducible apply psAbort_only
  | split
  | (with_reducible apply Only.mk
     all_goals first | exact Or.inr rfl | exact Or.inl (hl _ (by decide)) | skip)
  | dsimp only)

/-- What parkLs may change. -/
theorem parkLs_only {parts : List Part} {s_ s : State}  (h : Only parts s_ s) (hl : ∀ p ∈ ([.ls] : List Part), p ∈ parts) :
    Only parts s_ (parkLs s) := by
  unfold parkLs
  repeat' (first
  | with_reducible assumption
  | split
  | (with_reducible apply Only.mk
     all_goals first | exact Or.inr rfl | exact Or.inl (hl _ (by decide)) | skip)
  | dsimp only)

/-- What enterStandby may change. -/
theorem enterStandby_only {parts : List Part} {s_ s : State} (e : PsEntry)
    (h : Only parts s_ s)
    (hl : ∀ p ∈ ([.clk, .boot, .link, .ls, .pw] : List Part), p ∈ parts) :
    Only parts s_ (enterStandby e s) := by
  unfold enterStandby
  repeat' (first
  | with_reducible assumption
  | exact sub_of hl (by decide)
  | with_reducible apply clkEvent_only
  | with_reducible apply parkLs_only
  | with_reducible apply setBusRun_only
  | with_reducible apply setReady_only
  | with_reducible refine foldl_only ?_ (fun _ _ _ => ?_)
  | (with_reducible apply Only.mk
     all_goals first | exact Or.inr rfl | exact Or.inl (hl _ (by decide)) | skip)
  | dsimp only)

/-- What standbyEntry may change. -/
theorem standbyEntry_only {parts : List Part} {s_ s : State} 
    (h : Only parts s_ s)
    (hl : ∀ p ∈ ([.clk, .boot, .link, .ev, .nf, .ls, .pl, .disp, .pw] : List Part), p ∈ parts) :
    Only parts s_ (standbyEntry s) := by
  unfold standbyEntry
  repeat' (first
  | with_reducible assumption
  | exact sub_of hl (by decide)
  | with_reducible apply dispDischarge_only
  | with_reducible apply enterStandby_only
  | with_reducible apply nfCut_only
  | with_reducible apply psAbort_only
  | split
  | (with_reducible apply Only.mk
     all_goals first | exact Or.inr rfl | exact Or.inl (hl _ (by decide)) | skip)
  | dsimp only)

/-- What idleEntry may change. -/
theorem idleEntry_only {parts : List Part} {s_ s : State} 
    (h : Only parts s_ s)
    (hl : ∀ p ∈ ([.clk, .pw] : List Part), p ∈ parts) :
    Only parts s_ (idleEntry s) := by
  unfold idleEntry
  repeat' (first
  | with_reducible assumption
  | split
  | (with_reducible apply Only.mk
     all_goals first | exact Or.inr rfl | exact Or.inl (hl _ (by decide)) | skip))

/-- What idleExit may change. -/
theorem idleExit_only {parts : List Part} {s_ s : State} 
    (h : Only parts s_ s)
    (hl : ∀ p ∈ ([.clk, .pw] : List Part), p ∈ parts) :
    Only parts s_ (idleExit s) := by
  unfold idleExit
  repeat' (first
  | with_reducible assumption
  | split
  | (with_reducible apply Only.mk
     all_goals first | exact Or.inr rfl | exact Or.inl (hl _ (by decide)) | skip))

/-- What oppChange may change. -/
theorem oppChange_only {parts : List Part} {s_ s : State} 
    (h : Only parts s_ s)
    (hl : ∀ p ∈ ([.clk, .link, .pw] : List Part), p ∈ parts) :
    Only parts s_ (oppChange s) := by
  unfold oppChange
  repeat' (first
  | with_reducible assumption
  | exact sub_of hl (by decide)
  | with_reducible apply powerEvent_only
  | split
  | (with_reducible apply Only.mk
     all_goals first | exact Or.inr rfl | exact Or.inl (hl _ (by decide)) | skip)
  | dsimp only)

/-! TableCmd -/

/-- What stageDrop may change. -/
theorem stageDrop_only {parts : List Part} {s_ s : State} 
    (h : Only parts s_ s)
    (hl : ∀ p ∈ ([.tabs] : List Part), p ∈ parts) :
    Only parts s_ (stageDrop s) := by
  unfold stageDrop
  repeat' (first
  | with_reducible assumption
  | (with_reducible apply Only.mk
     all_goals first | exact Or.inr rfl | exact Or.inl (hl _ (by decide)) | skip))

/-- What tabAccept may change. -/
theorem tabAccept_only {parts : List Part} {s_ s : State} (ch : Nat) (r : TableRec)
    (h : Only parts s_ s)
    (hl : ∀ p ∈ ([.tabs, .cairn, .qr] : List Part), p ∈ parts) :
    Only parts s_ (tabAccept ch r s) := by
  unfold tabAccept
  repeat' (first
  | with_reducible assumption
  | exact sub_of hl (by decide)
  | with_reducible apply cairnO_only
  | with_reducible apply seAsk_only
  | split
  | (with_reducible apply Only.mk
     all_goals first | exact Or.inr rfl | exact Or.inl (hl _ (by decide)) | skip)
  | dsimp only)

/-- What segArrived may change. -/
theorem segArrived_only {parts : List Part} {s_ s : State} (ch : Nat)
    (h : Only parts s_ s)
    (hl : ∀ p ∈ ([.tabs] : List Part), p ∈ parts) :
    Only parts s_ (segArrived ch s) := by
  unfold segArrived
  repeat' (first
  | with_reducible assumption
  | split
  | (with_reducible apply Only.mk
     all_goals first | exact Or.inr rfl | exact Or.inl (hl _ (by decide)) | skip))

/-- What stageTimeout may change. -/
theorem stageTimeout_only {parts : List Part} {s_ s : State} 
    (h : Only parts s_ s)
    (hl : ∀ p ∈ ([.tabs] : List Part), p ∈ parts) :
    Only parts s_ (stageTimeout s) := by
  unfold stageTimeout
  repeat' (first
  | with_reducible assumption
  | exact sub_of hl (by decide)
  | with_reducible apply stageDrop_only
  | split
  | (with_reducible apply Only.mk
     all_goals first | exact Or.inr rfl | exact Or.inl (hl _ (by decide)) | skip))

/-- What portRemap may change. -/
theorem portRemap_only {parts : List Part} {s_ s : State} (p : Nat)
    (h : Only parts s_ s)
    (hl : ∀ p ∈ ([.boot, .link, .cairn, .meter, .cal] : List Part), p ∈ parts) :
    Only parts s_ (portRemap p s) := by
  unfold portRemap
  repeat' (first
  | with_reducible assumption
  | exact sub_of hl (by decide)
  | with_reducible apply compose_only
  | with_reducible apply endHold_only
  | with_reducible apply setReady_only
  | with_reducible apply updPh_only
  | with_reducible refine foldN_only _ ?_ (fun _ _ _ => ?_)
  | split
  | (with_reducible apply Only.mk
     all_goals first | exact Or.inr rfl | exact Or.inl (hl _ (by decide)) | skip)
  | dsimp only)

/-- What tabSealShut may change. -/
theorem tabSealShut_only {parts : List Part} {s_ s : State} 
    (h : Only parts s_ s)
    (hl : ∀ p ∈ ([.link, .hostMem, .tabs, .cairn] : List Part), p ∈ parts) :
    Only parts s_ (tabSealShut s) := by
  unfold tabSealShut
  repeat' (first
  | with_reducible assumption
  | exact sub_of hl (by decide)
  | with_reducible apply answerLate_only
  | with_reducible refine foldl_only ?_ (fun _ _ _ => ?_)
  | split
  | (with_reducible apply Only.mk
     all_goals first | exact Or.inr rfl | exact Or.inl (hl _ (by decide)) | skip)
  | dsimp only)

/-! Supply -/

/-- What nfFail may change. -/
theorem nfFail_only {parts : List Part} {s_ s : State} 
    (h : Only parts s_ s)
    (hl : ∀ p ∈ ([.link, .nf, .pw] : List Part), p ∈ parts) :
    Only parts s_ (nfFail s) := by
  unfold nfFail
  repeat' (first
  | with_reducible assumption
  | exact sub_of hl (by decide)
  | with_reducible apply cardEv_only
  | with_reducible apply nfCut_only
  | with_reducible apply updNf_only
  | with_reducible refine foldN_only _ ?_ (fun _ _ _ => ?_)
  | split
  | (with_reducible apply Only.mk
     all_goals first | exact Or.inr rfl | exact Or.inl (hl _ (by decide)) | skip)
  | dsimp only)

/-- What clockReact may change. -/
theorem clockReact_only {parts : List Part} {s_ s : State} (k : Clock)
    (h : Only parts s_ s)
    (hl : ∀ p ∈ ([.clk, .boot, .link, .ev, .nf, .pw] : List Part), p ∈ parts) :
    Only parts s_ (clockReact k s) := by
  unfold clockReact
  repeat' (first
  | with_reducible assumption
  | exact sub_of hl (by decide)
  | with_reducible apply clockRec_only
  | with_reducible apply nfFail_only
  | with_reducible apply setBusRun_only
  | split
  | (with_reducible apply Only.mk
     all_goals first | exact Or.inr rfl | exact Or.inl (hl _ (by decide)) | skip)
  | dsimp only)

/-- What clockLoss may change. -/
theorem clockLoss_only {parts : List Part} {s_ s : State} (k : Clock) (seen : Bool)
    (h : Only parts s_ s)
    (hl : ∀ p ∈ ([.clk, .boot, .link, .ev, .nf, .pw] : List Part), p ∈ parts) :
    Only parts s_ (clockLoss k seen s) := by
  unfold clockLoss
  repeat' (first
  | with_reducible assumption
  | exact sub_of hl (by decide)
  | with_reducible apply clockReact_only
  | with_reducible apply clockRec_only
  | with_reducible apply rtcStopped_only
  | split
  | (with_reducible apply Only.mk
     all_goals first | exact Or.inr rfl | exact Or.inl (hl _ (by decide)) | skip)
  | dsimp only)

/-- What sealWithdraw may change. -/
theorem sealWithdraw_only {parts : List Part} {s_ s : State} (p : Nat)
    (h : Only parts s_ s)
    (hl : ∀ p ∈ ([.boot, .link, .tabs, .ev, .ports, .safety, .fences, .pw] : List Part), p ∈ parts) :
    Only parts s_ (sealWithdraw p s) := by
  unfold sealWithdraw
  repeat' (first
  | with_reducible assumption
  | exact sub_of hl (by decide)
  | with_reducible apply endSequence_only
  | with_reducible apply setReady_only
  | with_reducible apply startStop_only
  | with_reducible apply updPort_only
  | split
  | (with_reducible apply Only.mk
     all_goals first | exact Or.inr rfl | exact Or.inl (hl _ (by decide)) | skip)
  | dsimp only)

/-- What orSealShut may change. -/
theorem orSealShut_only {parts : List Part} {s_ s : State} 
    (h : Only parts s_ s)
    (hl : ∀ p ∈ ([.boot, .cairn] : List Part), p ∈ parts) :
    Only parts s_ (orSealShut s) := by
  unfold orSealShut
  repeat' (first
  | with_reducible assumption
  | split
  | (with_reducible apply Only.mk
     all_goals first | exact Or.inr rfl | exact Or.inl (hl _ (by decide)) | skip)
  | dsimp only)

/-- What sealOpens may change. -/
theorem sealOpens_only {parts : List Part} {s_ s : State} 
    (h : Only parts s_ s)
    (hl : ∀ p ∈ ([.cairn, .sealIn] : List Part), p ∈ parts) :
    Only parts s_ (sealOpens s) := by
  unfold sealOpens
  repeat' (first
  | with_reducible assumption
  | exact sub_of hl (by decide)
  | with_reducible apply cairnO_only
  | split
  | (with_reducible apply Only.mk
     all_goals first | exact Or.inr rfl | exact Or.inl (hl _ (by decide)) | skip)
  | dsimp only)

/-- What sealPortOpens may change. -/
theorem sealPortOpens_only {parts : List Part} {s_ s : State} 
    (h : Only parts s_ s)
    (hl : ∀ p ∈ ([.sealIn] : List Part), p ∈ parts) :
    Only parts s_ (sealPortOpens s) := by
  unfold sealPortOpens
  repeat' (first
  | with_reducible assumption
  | split
  | (with_reducible apply Only.mk
     all_goals first | exact Or.inr rfl | exact Or.inl (hl _ (by decide)) | skip)
  | dsimp only)

/-- What pfailConfirmed may change. -/
theorem pfailConfirmed_only {parts : List Part} {s_ s : State} 
    (h : Only parts s_ s)
    (hl : ∀ p ∈ ([.boot, .link, .hostMem, .ev, .eg, .safety, .nf, .upd, .pl, .disp, .pw] : List Part), p ∈ parts) :
    Only parts s_ (pfailConfirmed s) := by
  unfold pfailConfirmed
  repeat' (first
  | with_reducible assumption
  | exact sub_of hl (by decide)
  | with_reducible apply dispPfail_only
  | with_reducible apply lossBegins_only
  | with_reducible apply nfCut_only
  | with_reducible apply updAbandon_only
  | with_reducible apply writeKsRecord_only
  | split
  | (with_reducible apply Only.mk
     all_goals first | exact Or.inr rfl | exact Or.inl (hl _ (by decide)) | skip)
  | dsimp only)

/-- What pfailRise may change. -/
theorem pfailRise_only {parts : List Part} {s_ s : State} 
    (h : Only parts s_ s)
    (hl : ∀ p ∈ ([.boot, .cairn, .eg] : List Part), p ∈ parts) :
    Only parts s_ (pfailRise s) := by
  unfold pfailRise
  repeat' (first
  | with_reducible assumption
  | exact sub_of hl (by decide)
  | with_reducible apply supplyReturn_only
  | split
  | (with_reducible apply Only.mk
     all_goals first | exact Or.inr rfl | exact Or.inl (hl _ (by decide)) | skip)
  | dsimp only)

/-- What holdupChange may change. -/
theorem holdupChange_only {parts : List Part} {s_ s : State} (level : Bool)
    (h : Only parts s_ s)
    (hl : ∀ p ∈ ([.boot, .ev] : List Part), p ∈ parts) :
    Only parts s_ (holdupChange level s) := by
  unfold holdupChange
  repeat' (first
  | with_reducible assumption
  | exact sub_of hl (by decide)
  | with_reducible apply evrec_only
  | split
  | (with_reducible apply Only.mk
     all_goals first | exact Or.inr rfl | exact Or.inl (hl _ (by decide)) | skip)
  | dsimp only)

/-! Reset -/

/-- What tearUnits may change. -/
theorem tearUnits_only {parts : List Part} {s_ s : State} 
    (h : Only parts s_ s)
    (hl : ∀ p ∈ ([.qr] : List Part), p ∈ parts) :
    Only parts s_ (tearUnits s) := by
  unfold tearUnits
  repeat' (first
  | with_reducible assumption
  | exact sub_of hl (by decide)
  | with_reducible apply updBlk_only
  | with_reducible refine foldN_only _ ?_ (fun _ _ _ => ?_)
  | split
  | (with_reducible apply Only.mk
     all_goals first | exact Or.inr rfl | exact Or.inl (hl _ (by decide)) | skip)
  | dsimp only)

/-- What resetCounts may change. -/
theorem resetCounts_only {parts : List Part} {s_ s : State} 
    (h : Only parts s_ s)
    (hl : ∀ p ∈ ([.ports] : List Part), p ∈ parts) :
    Only parts s_ (resetCounts s) := by
  unfold resetCounts
  repeat' (first
  | with_reducible assumption
  | exact sub_of hl (by decide)
  | with_reducible apply availCount_only
  | with_reducible apply availMains_only
  | with_reducible refine eachPort_only ?_ (fun _ _ _ => ?_)
  | split
  | (with_reducible apply Only.mk
     all_goals first | exact Or.inr rfl | exact Or.inl (hl _ (by decide)) | skip)
  | dsimp only)

/-- What meshSeed may change. -/
theorem meshSeed_only {parts : List Part} {s_ s : State} 
    (h : Only parts s_ s)
    (hl : ∀ p ∈ ([.vault, .rind] : List Part), p ∈ parts) :
    Only parts s_ (meshSeed s) := by
  unfold meshSeed
  repeat' (first
  | with_reducible assumption
  | exact sub_of hl (by decide)
  | with_reducible apply randomBytes_only
  | split
  | (with_reducible apply Only.mk
     all_goals first | exact Or.inr rfl | exact Or.inl (hl _ (by decide)) | skip)
  | dsimp only)

/-- What resetRelease may change. -/
theorem resetRelease_only {parts : List Part} {s_ s : State} (bootsel testmode : Bool) (errs : List Nat)
    (h : Only parts s_ s)
    (hl : ∀ p ∈ ([.clk, .boot, .link, .ev, .cairn, .ports, .nf, .vault, .rind, .qr, .pw] : List Part), p ∈ parts) :
    Only parts s_ (resetRelease bootsel testmode errs s) := by
  unfold resetRelease
  repeat' (first
  | with_reducible assumption
  | exact sub_of hl (by decide)
  | with_reducible apply cairnO_only
  | with_reducible apply evrec_only
  | with_reducible apply meshSeed_only
  | with_reducible apply resetCounts_only
  | with_reducible apply setBusRun_only
  | with_reducible apply zeroise_only
  | split
  | (with_reducible apply Only.mk
     all_goals first | exact Or.inr rfl | exact Or.inl (hl _ (by decide)) | skip)
  | dsimp only)

/-- What loseCopy may change. -/
theorem loseCopy_only {parts : List Part} {s_ s : State} (c : MramCopy)
    (h : Only parts s_ s)
    (hl : ∀ p ∈ ([.cal, .eg, .safety] : List Part), p ∈ parts) :
    Only parts s_ (loseCopy c s) := by
  unfold loseCopy
  repeat' (first
  | with_reducible assumption
  | split
  | (with_reducible apply Only.mk
     all_goals first | exact Or.inr rfl | exact Or.inl (hl _ (by decide)) | skip)
  | dsimp only)

/-- What resetReleased may change. -/
theorem resetReleased_only {parts : List Part} {s_ s : State} (straps : Straps) (errs : List Nat)
    (h : Only parts s_ s)
    (hl : ∀ p ∈ ([.clk, .boot, .link, .ev, .cairn, .cal, .eg, .ports, .safety, .nf, .vault, .rind, .qr, .pw] : List Part), p ∈ parts) :
    Only parts s_ (resetReleased straps errs s) := by
  unfold resetReleased
  repeat' (first
  | with_reducible assumption
  | exact sub_of hl (by decide)
  | with_reducible apply loseCopy_only
  | with_reducible apply resetRelease_only
  | with_reducible refine foldl_only ?_ (fun _ _ _ => ?_)
  | split
  | (with_reducible apply Only.mk
     all_goals first | exact Or.inr rfl | exact Or.inl (hl _ (by decide)) | skip)
  | dsimp only)

/-- What selftestDone may change. -/
theorem selftestDone_only {parts : List Part} {s_ s : State} (fatal : Bool)
    (h : Only parts s_ s)
    (hl : ∀ p ∈ ([.boot] : List Part), p ∈ parts) :
    Only parts s_ (selftestDone fatal s) := by
  unfold selftestDone
  repeat' (first
  | with_reducible assumption
  | split
  | (with_reducible apply Only.mk
     all_goals first | exact Or.inr rfl | exact Or.inl (hl _ (by decide)) | skip))

/-- What ksStart may change. -/
theorem ksStart_only {parts : List Part} {s_ s : State} 
    (h : Only parts s_ s)
    (hl : ∀ p ∈ ([.cairn, .safety] : List Part), p ∈ parts) :
    Only parts s_ (ksStart s) := by
  unfold ksStart
  repeat' (first
  | with_reducible assumption
  | exact sub_of hl (by decide)
  | with_reducible apply cairnK_only
  | split
  | (with_reducible apply Only.mk
     all_goals first | exact Or.inr rfl | exact Or.inl (hl _ (by decide)) | skip)
  | dsimp only)

/-- What calBootOne may change. -/
theorem calBootOne_only {parts : List Part} {s_ s : State} (t n : Nat) (c : List Byte × List Byte)
    (h : Only parts s_ s)
    (hl : ∀ p ∈ ([.cairn] : List Part), p ∈ parts) :
    Only parts s_ (calBootOne t n c s) := by
  unfold calBootOne
  repeat' (first
  | with_reducible assumption
  | exact sub_of hl (by decide)
  | with_reducible apply cairnO_only
  | split
  | (with_reducible apply Only.mk
     all_goals first | exact Or.inr rfl | exact Or.inl (hl _ (by decide)) | skip)
  | dsimp only)

/-- What calBoot may change. -/
theorem calBoot_only {parts : List Part} {s_ s : State} 
    (h : Only parts s_ s)
    (hl : ∀ p ∈ ([.cairn] : List Part), p ∈ parts) :
    Only parts s_ (calBoot s) := by
  unfold calBoot
  repeat' (first
  | with_reducible assumption
  | exact sub_of hl (by decide)
  | with_reducible apply calBootOne_only
  | with_reducible refine foldN_only _ ?_ (fun _ _ _ => ?_)
  | with_reducible refine eachPort_only ?_ (fun _ _ _ => ?_)
  | (with_reducible apply Only.mk
     all_goals first | exact Or.inr rfl | exact Or.inl (hl _ (by decide)) | skip)
  | dsimp only)

/-- What apStart may change. -/
theorem apStart_only {parts : List Part} {s_ s : State} 
    (h : Only parts s_ s)
    (hl : ∀ p ∈ ([.clk, .boot, .link, .ev, .ports, .fences, .pw] : List Part), p ∈ parts) :
    Only parts s_ (apStart s) := by
  unfold apStart
  repeat' (first
  | with_reducible assumption
  | exact sub_of hl (by decide)
  | with_reducible apply bootLift_only
  | with_reducible apply setReady_only
  | with_reducible refine foldN_only _ ?_ (fun _ _ _ => ?_)
  | split
  | (with_reducible apply Only.mk
     all_goals first | exact Or.inr rfl | exact Or.inl (hl _ (by decide)) | skip)
  | dsimp only)

/-- What forgetService may change. -/
theorem forgetService_only {parts : List Part} {s_ s : State} 
    (h : Only parts s_ s)
    (hl : ∀ p ∈ ([.tabs, .ev, .cal, .ports, .qr, .upd] : List Part), p ∈ parts) :
    Only parts s_ (forgetService s) := by
  unfold forgetService
  repeat' (first
  | with_reducible assumption
  | split
  | (with_reducible apply Only.mk
     all_goals first | exact Or.inr rfl | exact Or.inl (hl _ (by decide)) | skip)
  | dsimp only)

/-- What correctedError may change. -/
theorem correctedError_only {parts : List Part} {s_ s : State} (bank row : Nat)
    (h : Only parts s_ s)
    (hl : ∀ p ∈ ([.fences] : List Part), p ∈ parts) :
    Only parts s_ (correctedError bank row s) := by
  unfold correctedError
  repeat' (first
  | with_reducible assumption
  | split
  | (with_reducible apply Only.mk
     all_goals first | exact Or.inr rfl | exact Or.inl (hl _ (by decide)) | skip)
  | dsimp only)

/-- What yearRestart may change. -/
theorem yearRestart_only {parts : List Part} {s_ s : State} 
    (h : Only parts s_ s)
    (hl : ∀ p ∈ ([.ports, .fences] : List Part), p ∈ parts) :
    Only parts s_ (yearRestart s) := by
  unfold yearRestart
  repeat' (first
  | with_reducible assumption
  | split
  | (with_reducible apply Only.mk
     all_goals first | exact Or.inr rfl | exact Or.inl (hl _ (by decide)) | skip)
  | dsimp only)

/-- What offHoldRelease may change. -/
theorem offHoldRelease_only {parts : List Part} {s_ s : State} 
    (h : Only parts s_ s)
    (hl : ∀ p ∈ ([.boot, .pw] : List Part), p ∈ parts) :
    Only parts s_ (offHoldRelease s) := by
  unfold offHoldRelease
  repeat' (first
  | with_reducible assumption
  | split
  | (with_reducible apply Only.mk
     all_goals first | exact Or.inr rfl | exact Or.inl (hl _ (by decide)) | skip))

/-! Tick -/

/-- What readyWhen may change. -/
theorem readyWhen_only {parts : List Part} {s_ s : State} (b : Nat) (c : Bool)
    (h : Only parts s_ s)
    (hl : ∀ p ∈ ([.boot, .link] : List Part), p ∈ parts) :
    Only parts s_ (readyWhen b c s) := by
  unfold readyWhen
  repeat' (first
  | with_reducible assumption
  | exact sub_of hl (by decide)
  | with_reducible apply setReady_only
  | split
  | (with_reducible apply Only.mk
     all_goals first | exact Or.inr rfl | exact Or.inl (hl _ (by decide)) | skip))

/-- What ksRise may change. -/
theorem ksRise_only {parts : List Part} {s_ s : State} 
    (h : Only parts s_ s)
    (hl : ∀ p ∈ ([.clk, .boot, .link, .vault] : List Part), p ∈ parts) :
    Only parts s_ (ksRise s) := by
  unfold ksRise
  repeat' (first
  | with_reducible assumption
  | exact sub_of hl (by decide)
  | with_reducible apply setReady_only
  | split
  | (with_reducible apply Only.mk
     all_goals first | exact Or.inr rfl | exact Or.inl (hl _ (by decide)) | skip))

/-- What portRise may change. -/
theorem portRise_only {parts : List Part} {s_ s : State} (p : Nat)
    (h : Only parts s_ s)
    (hl : ∀ p ∈ ([.boot, .link, .ports] : List Part), p ∈ parts) :
    Only parts s_ (portRise p s) := by
  unfold portRise
  repeat' (first
  | with_reducible assumption
  | exact sub_of hl (by decide)
  | with_reducible apply availReady_only
  | with_reducible apply setReady_only
  | with_reducible apply updPort_only
  | split
  | (with_reducible apply Only.mk
     all_goals first | exact Or.inr rfl | exact Or.inl (hl _ (by decide)) | skip)
  | dsimp only)

/-- What cairnRise may change. -/
theorem cairnRise_only {parts : List Part} {s_ s : State} 
    (h : Only parts s_ s)
    (hl : ∀ p ∈ ([.boot, .link, .cairn] : List Part), p ∈ parts) :
    Only parts s_ (cairnRise s) := by
  unfold cairnRise
  repeat' (first
  | with_reducible assumption
  | exact sub_of hl (by decide)
  | with_reducible apply setReady_only
  | split
  | (with_reducible apply Only.mk
     all_goals first | exact Or.inr rfl | exact Or.inl (hl _ (by decide)) | skip)
  | dsimp only)

/-- What dispRise may change. -/
theorem dispRise_only {parts : List Part} {s_ s : State} 
    (h : Only parts s_ s)
    (hl : ∀ p ∈ ([.boot, .link, .ev, .ports, .fences, .disp, .pw] : List Part), p ∈ parts) :
    Only parts s_ (dispRise s) := by
  unfold dispRise
  repeat' (first
  | with_reducible assumption
  | exact sub_of hl (by decide)
  | with_reducible apply bootLift_only
  | with_reducible apply copySafe_only
  | with_reducible apply setReady_only
  | split
  | (with_reducible apply Only.mk
     all_goals first | exact Or.inr rfl | exact Or.inl (hl _ (by decide)) | skip)
  | dsimp only)

/-- What ledgerReady may change. -/
theorem ledgerReady_only {parts : List Part} {s_ s : State} 
    (h : Only parts s_ s)
    (hl : ∀ p ∈ ([.boot, .link] : List Part), p ∈ parts) :
    Only parts s_ (ledgerReady s) := by
  unfold ledgerReady
  repeat' (first
  | with_reducible assumption
  | exact sub_of hl (by decide)
  | with_reducible apply readyWhen_only
  | with_reducible apply setReady_only
  | split
  | (with_reducible apply Only.mk
     all_goals first | exact Or.inr rfl | exact Or.inl (hl _ (by decide)) | skip))

/-- What judgeReady may change. -/
theorem judgeReady_only {parts : List Part} {s_ s : State} 
    (h : Only parts s_ s)
    (hl : ∀ p ∈ ([.clk, .boot, .link, .ev, .cairn, .ports, .tar, .fences, .ls, .vault, .disp, .pw] : List Part), p ∈ parts) :
    Only parts s_ (judgeReady s) := by
  unfold judgeReady
  repeat' (first
  | with_reducible assumption
  | exact sub_of hl (by decide)
  | with_reducible apply cairnRise_only
  | with_reducible apply dispRise_only
  | with_reducible apply ksRise_only
  | with_reducible apply ledgerReady_only
  | with_reducible apply lsRise_only
  | with_reducible apply orRise_only
  | with_reducible apply portRise_only
  | with_reducible apply readyWhen_only
  | with_reducible refine foldN_only _ ?_ (fun _ _ _ => ?_)
  | with_reducible refine eachPort_only ?_ (fun _ _ _ => ?_)
  | split
  | (with_reducible apply Only.mk
     all_goals first | exact Or.inr rfl | exact Or.inl (hl _ (by decide)) | skip)
  | dsimp only)

/-- What crossTick may change. -/
theorem crossTick_only {parts : List Part} {s_ s : State} (late : List Nat)
    (h : Only parts s_ s)
    (hl : ∀ p ∈ ([.clk, .link, .ev] : List Part), p ∈ parts) :
    Only parts s_ (crossTick late s) := by
  unfold crossTick
  repeat' (first
  | with_reducible assumption
  | exact sub_of hl (by decide)
  | with_reducible apply clkEvent_only
  | with_reducible apply evrec_only
  | with_reducible refine foldl_only ?_ (fun _ _ _ => ?_)
  | split
  | (with_reducible apply Only.mk
     all_goals first | exact Or.inr rfl | exact Or.inl (hl _ (by decide)) | skip)
  | dsimp only)

/-- What capture may change. -/
theorem capture_only {parts : List Part} {s_ s : State} (i : TickIn)
    (h : Only parts s_ s)
    (hl : ∀ p ∈ ([.clk] : List Part), p ∈ parts) :
    Only parts s_ (capture i s) := by
  unfold capture
  repeat' (first
  | with_reducible assumption
  | (with_reducible apply Only.mk
     all_goals first | exact Or.inr rfl | exact Or.inl (hl _ (by decide)) | skip)
  | dsimp only)

/-- What missedTick may change. -/
theorem missedTick_only {parts : List Part} {s_ s : State} (i : TickIn)
    (h : Only parts s_ s)
    (hl : ∀ p ∈ ([.boot, .link, .tabs, .ev, .meter, .ports, .safety, .fences, .pw] : List Part), p ∈ parts) :
    Only parts s_ (missedTick i s) := by
  unfold missedTick
  repeat' (first
  | with_reducible assumption
  | exact sub_of hl (by decide)
  | with_reducible apply laneFail_only
  | with_reducible apply stopFence_only
  | with_reducible refine foldN_only _ ?_ (fun _ _ _ => ?_)
  | split
  | (with_reducible apply Only.mk
     all_goals first | exact Or.inr rfl | exact Or.inl (hl _ (by decide)) | skip)
  | dsimp only)

/-- What watchdogTick may change. -/
theorem watchdogTick_only {parts : List Part} {s_ s : State} (i : TickIn) (ovr : List Nat)
    (h : Only parts s_ s)
    (hl : ∀ p ∈ ([.clk] : List Part), p ∈ parts) :
    Only parts s_ (watchdogTick i ovr s) := by
  unfold watchdogTick
  repeat' (first
  | with_reducible assumption
  | split
  | (with_reducible apply Only.mk
     all_goals first | exact Or.inr rfl | exact Or.inl (hl _ (by decide)) | skip)
  | dsimp only)

/-- What magTick may change. -/
theorem magTick_only {parts : List Part} {s_ s : State}  (h : Only parts s_ s) (hl : ∀ p ∈ ([.tar] : List Part), p ∈ parts) :
    Only parts s_ (magTick s) := by
  unfold magTick
  repeat' (first
  | with_reducible assumption
  | split
  | (with_reducible apply Only.mk
     all_goals first | exact Or.inr rfl | exact Or.inl (hl _ (by decide)) | skip))

end Sys2Proof.Machine
end

