-- ==== Sys2Proof/Laws/Hash.lean ====
section
/-!
SUPPORT. The substitution table of AES equals its definition; the constants of SHA-256 are the fractions of roots of the
first primes, as FIPS 180-4 has them.
-/

namespace Sys2Proof.Machine

/-- The primes below n. -/
def primesBelow (n : Nat) : List Nat :=
  (List.range n).filter fun k => decide (2 ≤ k) && (List.range k).all fun d => decide (d < 2) || k % d != 0
/-- The largest number below 2^b whose power e is at most n. -/
def rootFloor (e n : Nat) : Nat → Nat → Nat
  | 0, r => r
  | b + 1, r => rootFloor e n b (if (r + 2 ^ b) ^ e ≤ n then r + 2 ^ b else r)
/-- 32 bits of the fraction of the root of order e of a prime. -/
def rootFraction (e p : Nat) : Nat := rootFloor e (p * 2 ^ (32 * e)) 40 0 % 2 ^ 32

theorem shaK_is_cube_root_fraction : (List.range 64).map shaK = (primesBelow 312).map (rootFraction 3) := by decide +kernel

theorem shaInit_is_square_root_fraction : shaInit = (primesBelow 20).map (rootFraction 2) := by decide +kernel

theorem aesSub_eq_aesSubDef : ∀ a, a < 256 → aesSub a = aesSubDef a := by decide +kernel

end Sys2Proof.Machine
end

