-- ==== Sys2Proof/Laws/Mem.lean ====
section
/-!
SUPPORT. The laws of sparse tables and addressed buffers: a read after a write, every other key unchanged, and the
canonical form kept by every operation.
-/

namespace Sys2Proof.Machine

variable {α : Type} [DecidableEq α]

/-- A key below the bound of a canonical table reads as unlisted. -/
theorem spGet_below {d : α} {m : List (Nat × α)} {lo a : Nat} (h : spWfFrom d lo m = true) (ha : a < lo) :
    spGet d m a = d := by
  induction m generalizing lo with
  | nil => rfl
  | cons e m ih =>
    obtain ⟨b, w⟩ := e
    simp only [spWfFrom, Bool.and_eq_true, decide_eq_true_eq] at h
    have : ¬ b = a := by omega
    simp only [spGet, this, if_false]
    exact ih h.2 (by omega)

/-- A write keeps the canonical form above a bound. -/
theorem spSet_wfFrom {d : α} {m : List (Nat × α)} {lo a : Nat} (v : α) (h : spWfFrom d lo m = true) (ha : lo ≤ a) :
    spWfFrom d lo (spSet d m a v) = true := by
  induction m generalizing lo with
  | nil => by_cases hv : v = d <;> simp [spSet, spWfFrom, hv, ha]
  | cons e m ih =>
    obtain ⟨b, w⟩ := e
    simp only [spWfFrom, Bool.and_eq_true, decide_eq_true_eq] at h
    obtain ⟨⟨h1, h2⟩, h3⟩ := h
    by_cases hab : a < b
    · by_cases hv : v = d
      · simp [spSet, hab, hv, spWfFrom, h1, h2, h3]
      · simp only [spSet, hab, hv, if_true, if_false, spWfFrom, Bool.and_eq_true, decide_eq_true_eq]
        exact ⟨⟨ha, hv⟩, ⟨by omega, h2⟩, h3⟩
    · by_cases he : a = b
      · subst he
        by_cases hv : v = d
        · simp only [spSet, hab, hv, if_true, if_false]
          clear ih
          cases m with
          | nil => rfl
          | cons e m =>
            obtain ⟨c, x⟩ := e
            simp only [spWfFrom, Bool.and_eq_true, decide_eq_true_eq] at h3 ⊢
            exact ⟨⟨by omega, h3.1.2⟩, h3.2⟩
        · simp [spSet, hv, spWfFrom, h1, h3]
      · simp only [spSet, hab, he, if_false, spWfFrom, Bool.and_eq_true, decide_eq_true_eq]
        exact ⟨⟨h1, h2⟩, ih h3 (by omega)⟩

/-- A read after a write of the same key. -/
theorem spGet_spSet_self {d : α} {m : List (Nat × α)} {lo : Nat} (h : spWfFrom d lo m = true) (a : Nat) (v : α) :
    spGet d (spSet d m a v) a = v := by
  induction m generalizing lo with
  | nil => by_cases hv : v = d <;> simp [spSet, spGet, hv]
  | cons e m ih =>
    obtain ⟨b, w⟩ := e
    simp only [spWfFrom, Bool.and_eq_true, decide_eq_true_eq] at h
    by_cases hab : a < b
    · have hb : ¬ b = a := by omega
      by_cases hv : v = d
      · simp only [spSet, hab, hv, if_true, spGet, hb, if_false]
        exact spGet_below h.2 (by omega)
      · simp [spSet, hab, hv, spGet]
    · by_cases he : a = b
      · subst he
        by_cases hv : v = d
        · simp only [spSet, hab, hv, if_true, if_false]
          exact spGet_below h.2 (by omega)
        · simp [spSet, hv, spGet]
      · have hb : ¬ b = a := fun x => he x.symm
        simp only [spSet, hab, he, if_false, spGet, hb]
        exact ih h.2

/-- Every other key reads as before a write. -/
theorem spGet_spSet_ne {d : α} (m : List (Nat × α)) {a c : Nat} (v : α) (hc : c ≠ a) :
    spGet d (spSet d m a v) c = spGet d m c := by
  have hac : ¬ a = c := fun x => hc x.symm
  induction m with
  | nil => by_cases hv : v = d <;> simp [spSet, spGet, hv, hac]
  | cons e m ih =>
    obtain ⟨b, w⟩ := e
    by_cases hab : a < b
    · by_cases hv : v = d <;> simp [spSet, spGet, hab, hv, hac]
    · by_cases he : a = b
      · subst he
        by_cases hv : v = d <;> simp [spSet, spGet, hv, hac]
      · simp [spSet, spGet, hab, he, ih]

/-- The canonical form is kept by a write of a byte and of a run of bytes. -/
theorem memWrite_wf {m : List (Nat × Byte)} (a : Nat) (v : Byte) (h : memWf m = true) : memWf (memWrite m a v) = true :=
  spSet_wfFrom v h (Nat.zero_le a)

theorem memWriteBytes_wf (bs : List Byte) {m : List (Nat × Byte)} (a : Nat) (h : memWf m = true) :
    memWf (memWriteBytes m a bs) = true := by
  induction bs generalizing m a with
  | nil => exact h
  | cons b bs ih => exact ih (a + 1) (memWrite_wf a b h)

/-- The empty buffer is canonical. -/
theorem memWf_nil : memWf [] = true := rfl

/-- A run of bytes leaves every address outside it as it was. -/
theorem memRead_memWriteBytes_ne (bs : List Byte) (m : List (Nat × Byte)) (a c : Nat) (h : c < a ∨ a + bs.length ≤ c) :
    memRead (memWriteBytes m a bs) c = memRead m c := by
  induction bs generalizing m a with
  | nil => rfl
  | cons b bs ih =>
    have h' : c < a + 1 ∨ a + 1 + bs.length ≤ c := by
      simp only [List.length_cons] at h; omega
    have hne : c ≠ a := by
      simp only [List.length_cons] at h; omega
    rw [memWriteBytes, ih _ _ h']
    exact spGet_spSet_ne m b hne

/-- A run of bytes reads back after it is written. -/
theorem memReadBytes_memWriteBytes (bs : List Byte) (m : List (Nat × Byte)) (a : Nat) (h : memWf m = true) :
    memReadBytes (memWriteBytes m a bs) a bs.length = bs := by
  induction bs generalizing m a with
  | nil => rfl
  | cons b bs ih =>
    have hw := memWrite_wf a b h
    simp only [List.length_cons, memReadBytes, memWriteBytes]
    rw [ih (memWrite m a b) (a + 1) hw, memRead_memWriteBytes_ne bs (memWrite m a b) (a + 1) a (Or.inl (by omega))]
    rw [show memRead (memWrite m a b) a = b from spGet_spSet_self h a b]

end Sys2Proof.Machine
end

