-- ==== Sys2Proof/WellFormed.lean ====
section
/-!
DEFINITION. Well-formed commands: the ranges of the operands that a frame, a request's channel or an event can carry.
-/

namespace Sys2Proof

/-- n codes of 12 bits, or none where no converter runs the slot list (05 R152). -/
def codesOk (n : Nat) (l : List Nat) : Bool := (l.length == n || l.isEmpty) && l.all fun v => decide (v < 4096)

/-- The counts of Table TK-3 and 05 R153 to R157: one sample for each of the 112 streams, 16 CP codes, 4 PP codes and 4
CFB codes for each of the 24 ports, 5 reference codes for each of the six converters and 125 for SAR5 while it is idle,
and the housekeeping codes of Table MF-13. -/
def tickOk (i : TickIn) : Bool :=
  i.samples.length == 112 && i.bits.all (fun e => decide (e.1 < 112) && e.2.length == 2048) && i.cp.length == 24 && i.pp.length == 24 && i.cfb.length == 24 && i.refs.length == 6 &&
  i.ceased.all (fun k => decide (k < 112)) && i.cp.all (codesOk 16) && i.pp.all (codesOk 4) && i.cfb.all (codesOk 4) &&
  (i.refs.take 5).all (codesOk 5) && (i.refs.drop 5).all (fun l => codesOk 5 l || codesOk 125 l) &&
  codesOk 8 i.mags && codesOk 8 i.sense && codesOk 4 i.vaux && codesOk 2 i.temp0 && codesOk 2 i.temp1 &&
  i.hsMissed.all (fun p => decide (p < 24)) && i.laneMissed.all (fun l => decide (l < 28))

/-- Samples of up to three couplings and their mid-level, of 12 bits, of at most two slots (17 Table PL-1, R406). -/
def rxOk (rx : List (List Nat)) (mid : Nat) : Bool :=
  decide (rx.length ≤ 3 ∧ mid < 4096) && rx.all fun x => decide (x.length ≤ 29127 ∧ ∀ v ∈ x, v < 4096)

/-- A copy that MRAM has (07 R189, 08 R207, 12 R311). -/
def mramOk : MramCopy → Bool
  | .portCal p k => decide (p < 24 ∧ k < 2)
  | .groupCal g k => decide (g < 4 ∧ k < 2)
  | .slot k => decide (k < 2)
  | .ksRecord k => decide (k < 2)

/-- The operands of a command are in range. -/
def Instr.wf : Instr → Bool
  | .hostWriteFrame cmd addr len data crc => decide (cmd < 256 ∧ addr < 2 ^ 24 ∧ len < 2 ^ 16 ∧ data.length = len ∧ crc < 2 ^ 16)
  | .stagedWriteCommit => true
  | .rtcTimeRead => true
  | .frameAbandoned _ => true
  | .pendingAccessComplete _ => true
  | .registerWrite addr value => decide (addr < 2 ^ 24 ∧ value < 2 ^ 32)
  | .doorbell ch => decide (ch < 6)
  | .responseRelease ch => decide (ch < 6)
  | .notificationDeliver => true
  | .bwSubmit => true
  | .bwRelease => true
  | .bwAbortImage => true
  | .chunkConsumed x => decide ((∀ l ∈ x.failed, l < 28) ∧ ∀ r ∈ x.errs, r < 2376)
  | .fullReset causes _ => decide (causes ≠ [] ∧ ∀ c ∈ causes, 1 ≤ c ∧ c ≤ 8)
  | .resetRelease x _ => x.lost.all mramOk
  | .selftestDone _ => true
  | .apWarmRestart _ => true
  | .tableStagingTimeout => true
  | .tableEffect => true
  | .tableLoad ch => decide (ch < 8)
  | .tableInfo ch => decide (ch < 8)
  | .linkEcho ch => decide (ch < 8)
  | .notifyRoute ch => decide (ch < 8)
  | .bootInfo ch => decide (ch < 8)
  | .frontEndStatus ch => decide (ch < 8)
  | .pathHold ch => decide (ch < 8)
  | .readPort ch => decide (ch < 8)
  | .readGroup ch => decide (ch < 8)
  | .readHarmonics ch => decide (ch < 8)
  | .pulseSelect ch => decide (ch < 8)
  | .energyRead ch => decide (ch < 8)
  | .calRead ch => decide (ch < 8)
  | .calStage ch => decide (ch < 8)
  | .calCommit ch => decide (ch < 8)
  | .calDiscard ch => decide (ch < 8)
  | .calPulse ch => decide (ch < 8)
  | .portStatus ch => decide (ch < 8)
  | .cpMode ch => decide (ch < 8)
  | .portAvail ch => decide (ch < 8)
  | .portLock ch => decide (ch < 8)
  | .cpWake ch => decide (ch < 8)
  | .lintelStatus ch => decide (ch < 8)
  | .lintelSet ch => decide (ch < 8)
  | .rcStatus ch => decide (ch < 8)
  | .rcClear ch => decide (ch < 8)
  | .safeStop ch => decide (ch < 8)
  | .safetyStatus ch => decide (ch < 8)
  | .tariffStatus ch => decide (ch < 8)
  | .demandRead ch => decide (ch < 8)
  | .billingRead ch => decide (ch < 8)
  | .timeSet ch => decide (ch < 8)
  | .tariffActivate ch => decide (ch < 8)
  | .accountRead ch => decide (ch < 8)
  | .accountSet ch => decide (ch < 8)
  | .tokenApply ch => decide (ch < 8)
  | .sessionStart ch => decide (ch < 8)
  | .sessionEnd ch => decide (ch < 8)
  | .sessionStatus ch => decide (ch < 8)
  | .cairnRead ch => decide (ch < 8)
  | .cairnStatus ch => decide (ch < 8)
  | .nfStatus ch => decide (ch < 8)
  | .cardDataStage ch => decide (ch < 8)
  | .plStatus ch => decide (ch < 8)
  | .plSend ch => decide (ch < 8)
  | .quarryStatus ch => decide (ch < 8)
  | .profileRead ch => decide (ch < 8)
  | .sessionLogRead ch => decide (ch < 8)
  | .keyUpdate ch => decide (ch < 8)
  | .drupeStatus ch => decide (ch < 8)
  | .rindStatus ch => decide (ch < 8)
  | .updateStage ch => decide (ch < 8)
  | .updateData ch => decide (ch < 8)
  | .updateActivate ch => decide (ch < 8)
  | .updateCommit ch blown => decide (ch < 8 ∧ blown ≤ 64)
  | .updateAbort ch => decide (ch < 8)
  | .updateStatus ch => decide (ch < 8)
  | .activationPauseEnd _ => true
  | .evrecRead ch => decide (ch < 8)
  | .evrecClear ch => decide (ch < 8)
  | .evrecStatus ch => decide (ch < 8)
  | .lsSet ch => decide (ch < 8)
  | .lsStatus ch => decide (ch < 8)
  | .lsClear ch => decide (ch < 8)
  | .lsSenseSelect ch => decide (ch < 8)
  | .dispStatus ch => decide (ch < 8)
  | .dispControl ch => decide (ch < 8)
  | .dispWrite ch => decide (ch < 8)
  | .psEnter ch => decide (ch < 8)
  | .psStatus ch => decide (ch < 8)
  | .fenceRequest ch => decide (ch < 8)
  | .fenceLift ch _ => decide (ch < 8)
  | .sparesStatus ch => decide (ch < 8)
  | .availRead ch => decide (ch < 8)
  | .tick i => tickOk i
  | .commitTick => true
  | .watchdogExpiry => true
  | .clockLoss _ => true
  | .pllRelock _ => true
  | .lockstepDivergence => true
  | .pwmRisingEdge p => decide (p < 24)
  | .pwmPeriodEnd p => decide (p < 24)
  | .cpStateChange p => decide (p < 24)
  | .ppStateChange p => decide (p < 24)
  | .diodeProbe p => decide (p < 24)
  | .cpWakeEnd p => decide (p < 24)
  | .overdraw p => decide (p < 24)
  | .lockRequest p => decide (p < 24)
  | .lockPullEnd p => decide (p < 24)
  | .locked p => decide (p < 24)
  | .lockTimeout p => decide (p < 24)
  | .lockLost p _ => decide (p < 24)
  | .lockRelease p => decide (p < 24)
  | .zeroCrossing g => decide (g < 4)
  | .cycleTimeout g => decide (g < 4)
  | .substituteCycleEnd g => decide (g < 4)
  | .supplyEventChange g => decide (g < 4)
  | .harmonicWindowEnd g => decide (g < 4)
  | .tempBandSecond => true
  | .streamFault k cond => decide (k < 112 ∧ 1 ≤ cond ∧ cond ≤ 2)
  | .biasWindowEnd k => decide (k < 112)
  | .streamFailed k => decide (k < 112)
  | .sarSpareTakeover k => decide (k < 5)
  | .sar5Fail => true
  | .laneShadowRotate => true
  | .laneMismatch l sp _ _ => decide (l < 28 ∧ sp < 28 ∧ l ≠ sp)
  | .laneSelfCheck failed => decide (∀ l ∈ failed, l < 28)
  | .rcTrip p => decide (p < 24)
  | .closingSequence p => decide (p < 24)
  | .plausJudge p => decide (p < 24)
  | .closingStepTimer p => decide (p < 24)
  | .pullInDeadline p => decide (p < 24)
  | .closeRetry p => decide (p < 24)
  | .switchProofPulse p => decide (p < 24)
  | .cfbFaultDetect p => decide (p < 24)
  | .weldCheck p => decide (p < 24)
  | .openOnLowCurrent p => decide (p < 24)
  | .openUnderLoad p => decide (p < 24)
  | .energyRemoval p => decide (p < 24)
  | .safeStopEnd p => decide (p < 24)
  | .sinDemand => true
  | .ssrDemand => true
  | .safetyInputHealthy _ => true
  | .discrepancy _ => true
  | .restartTimer _ => true
  | .sokFault => true
  | .sealSwitchScan fwd rev => decide (fwd < 2 ^ 16 ∧ rev < 2 ^ 16)
  | .sealChange => true
  | .sealPortOpen => true
  | .pfailNConfirmed => true
  | .pfailNRise => true
  | .holdupSChange _ => true
  | .feederOverloadStop g l => decide (g < 4 ∧ l < 3)
  | .overloadWarning g l => decide (g < 4 ∧ l < 3)
  | .holdEnd p => decide (p < 24)
  | .rotatePointer => true
  | .superframeStart => true
  | .grantFallback => true
  | .epochMixEnd => true
  | .reservationAccept => true
  | .sessionSettle => true
  | .restoreSettlement => true
  | .sessionCheckpoint => true
  | .boundaryTick => true
  | .timeInvalid reason => decide (1 ≤ reason ∧ reason ≤ 2)
  | .cairnEntryWrite => true
  | .nfPing n a _ => decide (n < 2 ∧ a < 2 ^ 12)
  | .nfBaseline n l => decide (n < 2 ∧ l.length = 16 ∧ ∀ e ∈ l, e.1 < 2 ^ 12)
  | .cardResponse n _ _ lm => decide (n < 2 ∧ lm < 2 ^ 12)
  | .fieldDetect n => decide (n < 2)
  | .fieldEnd n => decide (n < 2)
  | .emulationFrame n f => decide (n < 2 ∧ f ≠ [])
  | .maintEnvelope n env => decide (n < 2 ∧ env ≠ [])
  | .maintSessionTimeout n => decide (n < 2)
  | .zcEdge k _ _ => decide (k < 3)
  | .plFrameRx rxA rxB rxC mid _ => rxOk [rxA, rxB, rxC] mid
  | .plFrameTx off => decide (off.length ≤ 3)
  | .plAckTimeout => true
  | .wakePreamble rx mid => rxOk rx mid
  | .quarryJob => true
  | .nandOpComplete chan _ outcome => decide (chan < 2 ∧ outcome ≤ 2)
  | .journalCheckpoint => true
  | .ledgerReclaim => true
  | .staticMove => true
  | .scrub => true
  | .sessionSweep => true
  | .remask bad kcvBad => decide ((∀ c ∈ bad, c < 128) ∧ ∀ n ∈ kcvBad, n < 128)
  | .rngHealthFail _ => true
  | .meshBreak reading => decide (reading < 2 ^ 16)
  | .coverOpen => true
  | .coverClosed => true
  | .tamperCairnEntry => true
  | .magEventStart => true
  | .magEventEnd => true
  | .evrecWrite => true
  | .evrecSpill => true
  | .lsLatch c cause _ => decide (c < 16 ∧ 1 ≤ cause ∧ cause ≤ 2)
  | .globalFoldback ma => decide (ma.length = 16)
  | .foldbackEnd _ => true
  | .inrushWindowEnd c => decide (c < 16)
  | .lsPeriodStart c => decide (c < 16)
  | .openLoadCheck c _ => decide (c < 16)
  | .vauxDip _ => true
  | .holdDownEnd _ => true
  | .lsResume => true
  | .lsStartupTest c _ => decide (c < 16)
  | .frameStart upset => decide (∀ e ∈ upset, e.1 < 2 ^ 22)
  | .pdischRelease => true
  | .displaySwitchOn => true
  | .standbyEntry => true
  | .standbyWake => true
  | .idleEntry => true
  | .idleExit => true
  | .offHoldEntry => true
  | .offHoldRelease => true
  | .oppChange => true
  | .fenceLiftAuto dom idx => decide (dom < 12 ∧ idx < 128)
  | .availYearRestart => true
  | .sramEccError bank _ _ _ ch => decide (bank < 16 ∧ ch ≤ 8)
  | .nandOpTimeout chan chip => decide (chan < 2 ∧ chip < 2)
  | .relockFailed _ => true
  | .zcLockLost k => decide (k < 3)
  | .cardFrameWaitExpiry n => decide (n < 2)
  | .profileWriteExpiry => true
  | .mbxPendingTimeout => true
  | .rtcOscillatorRestart => true
  | .hcsNEarlyRise => true

end Sys2Proof
end

