-- ==== Sys2Proof/Tests/Slice0.lean ====
section
/-!
SUPPORT. The author's tests: for each clause of a statement, a state and operands that meet its hypotheses together; the
ill-formed commands that WellFormed refuses; and single steps on small states with results from the spec.
-/

open Sys2Proof Sys2Proof.Machine

namespace Sys2Proof.Tests

set_option Elab.async false

/-- A hub in service: clocks run, the five images are ACTIVE, every unit is ready, the seal is closed, the time is valid
and the chips are mounted. -/
def up : State :=
  { State.reset with
    clk := { tick := 1000003, xref := true, rtcOsc := true, plla := true, pllb := true, pllc := true, plln := true
             pllp := true, rtcRun := true, plRun := true, pixRun := true, nfRun := true, busRun := true, apRun := true
             wdArmed := true }
    boot := { phase := .running, imgs := List.replicate 5 { st := .active }, ready := 0x7FFFFFFFFFFF#64 }
    sealIn := { known := true }
    eg := { restored := true }
    qr := { chips := [{ fit := true, st := 1 }, {}, { fit := true, st := 1 }, {}], loaded := true }
    rtc := { sec := 800000000, valid := true } }

/-- A request in the buffer of a channel, with its doorbell rung. -/
def ask (c op : Nat) (pl : List Byte) (s : State) : State :=
  { s with link := { s.link with
      mem := memWriteBytes s.link.mem (reqBase c) (message c 0 0x1234 op 0 pl)
      chans := s.link.chans.set c { st := .pending, since := now s } } }

/-- A request with a header of its own (bytes 0 to 13), its doorbell rung. -/
def asked (c : Nat) (h : List Byte) (s : State) : State :=
  { ask c 0x0101 [] s with link := { (ask c 0x0101 [] s).link with
      mem := memWriteBytes (ask c 0x0101 [] s).link.mem (reqBase c) (h ++ le 2 (crc16 h)) } }

/-- The header CRC of channel 3's request is spoiled. -/
def badCrc (s : State) : State := { s with link := { s.link with mem := memWriteBytes s.link.mem (reqBase 3 + 14) [0, 0] } }

/-- Port 23 is a socket whose lock is load channel 3. -/
def sock : State :=
  { up with tabs := { installed := [⟨0x4502, 1, (def4502.set 184 0).set 185 3, 0⟩, ⟨0x1201, 1, def1201.set 24 4, 0⟩] } }

/-- Port 23 takes a state. -/
def at23 (f : Port → Port) (s : State) : State := updPort 23 f s


/-- Load channel 3 is a fan with open-load test, channels 14 and 15 are a pair of signals, declared at 1.0 A each. -/
def lsUp : State :=
  { up with
    tabs := { installed := [⟨0x1201, 1, ((def1201.set 24 2).set 25 4).set 112 2 |>.set 113 1, 0⟩] }
    ls := { up.ls with chans := List.replicate 16 {} } }

/-- A key-update message of the device with counter 7 and a MAC. -/
def kuMsg (op slot attr kl : Nat) (mac : List Byte) : List Byte :=
  [1, byteOf op, byteOf slot, byteOf attr, byteOf kl, 0, 0, 0, 7] ++ zeros 55 ++ mac

/-- The seal is open, with its write port. -/
def unsealed : State := { up with sealIn := { up.sealIn with port := true } }

/-- Slots 0, 2 and 3 hold keys of 16 zero bytes. -/
def keyed : State :=
  let k : VCell := { a := { pat := zeros 32, mask := zeros 32, klen := 16 } }
  { up with vault := { up.vault with cells := ((up.vault.cells.set 0 k).set 2 k).set 3 k } }

/-- The record of account 7, ACTIVE, prepaid, 5 units of 1,000, waits to be written. -/
def acct7 : List Byte := putF (putF (freeRec 7) 4 [1]) 16 (leI 8 5000)
def held7 (s : State) : State := { s with qr := { s.qr with asks := [{ code := 4, recs := [(7, acct7)] }] } }

/-- A TIME_SET payload without its MAC. -/
def setMsg (sec sub ctr : Nat) : List Byte := le 8 sec ++ le 2 sub ++ [0, 0] ++ le 8 ctr

def set2Mac : List Byte := [45, 148, 68, 52, 108, 172, 80, 161, 64, 3, 116, 76, 210, 78, 43, 124]
def set0Mac : List Byte := [26, 43, 154, 222, 59, 54, 74, 37, 22, 35, 162, 92, 100, 13, 165, 97]

/-- An ACCOUNT_SET payload for account 7 with counter 9, and its MAC. -/
def setAcct : List Byte := le 4 7 ++ [1] ++ zeros 35 ++ le 8 9
def setAcctMac : List Byte := [122, 81, 33, 66, 61, 212, 146, 225, 49, 224, 248, 117, 197, 46, 75, 138]

/-- A CREDIT token of 1,000 for account 7 with serial 5. -/
def token7 : List Byte :=
  [1, 1, 0, 0] ++ le 4 7 ++ le 4 5 ++ le 8 1000 ++ zeros 4 ++ [185, 168, 10, 34, 131, 236, 84, 59]


/-- Front-end NF0 has its options in force. -/
def nf0 (f : Nf → Nf) : State := updNf 0 (fun q => f { q with cfg := nfTab up 0 }) up

/-- Slots 4 and 5 hold derive-only keys of 16 zero bytes. -/
def kv45 : Vault :=
  let k : VCell := { a := { pat := zeros 32, mask := zeros 32, klen := 16, attr := 3 } }
  { up.vault with cells := (up.vault.cells.set 4 k).set 5 k }

/-- Hub 9 with a budget role; slots 6 and 7 hold keys of 16 zero bytes; the link as given. -/
def plHub (role : Nat) (f : Pl → Pl) : State :=
  let k : VCell := { a := { pat := zeros 32, mask := zeros 32, klen := 16 } }
  { up with
    tabs := { installed := [⟨0x4601, 1, (def4601.set 115 (byteOf role)).set 120 9, 0⟩] }
    vault := { up.vault with cells := (up.vault.cells.set 6 k).set 7 k }
    pl := f up.pl }

/-- A DATA frame of hub 5 with FCNT 8 for hub 9; a BEACON of hub 5; a DEMAND of hub 3. -/
def dataM : List Byte := [0x17, 5, 9, 8, 0, 0, 0, 0x41, 7, 62, 216, 109, 132, 3, 86, 142]
def beaconM : List Byte := [1, 5, 0xFF, 8, 0, 0, 0] ++ le 2 7 ++ [0, 1, 9] ++ le 2 100 ++ le 2 200 ++ le 2 300 ++
  [73, 97, 237, 156, 253, 5, 146, 60]
def demandM : List Byte := [2, 3, 0xFF, 8, 0, 0, 0] ++ le 2 7 ++ le 2 100 ++ le 2 200 ++ le 2 300 ++ zeros 4 ++
  [48, 90, 63, 144, 194, 94, 231, 103]

/-- A manifest of LE for the one byte 7, signed with the key whose hash is in key slot 0. -/
def man4 : List Byte :=
  le 4 0x46544D4F ++ [2, 0, 4, 0] ++ zeros 8 ++ le 4 1 ++ zeros 8 ++
  be 32 0xca358758f6d27e6cf45272937977a748fd88391db679ceda7dc7bf1f005ee879 ++
  zeros 4 ++ ([1, 2, 3, 5] : List Byte).flatMap (fun k => k :: zeros 7) ++ zeros 96 ++
  be 32 0x088bb9ff22ab291a74c86fc677ba897baadee370cc6129b82d170ba3fc26415c ++
  be 32 0x442da9a716067956d91eaa02b93ad409490e87cd5e758ea6a331a1deb75ba846 ++
  be 32 0x8c80fb9946e119f90aeaf81c07c553adfffb0976fed70a952f42af729b7415ec ++
  be 32 0x9e23c769f5c8798b828bac2b8dcc6ae1a0b043dc74f685168fa36bc01a9a87ed

/-- Key slot 0 holds the key of man4, and the other images name LE as their peer; LE runs an image. -/
def updS : State :=
  { up with
    otp := { up.otp with keyHash := [be 32 0x0f8a212d4f085087c3547aae01e8f656e297a664b1373995bd4e554efb036244] }
    boot := { up.boot with imgs := (List.range 5).map fun k =>
      { st := .active, man := ((zeros 320).set 6 (byteOf (k + 1))).set 64 4 } } }

/-- The same with an update of LE in a state. -/
def upd4 (st : Nat) : State := { updS with upd := { st := st, image := 4, img := { man := man4, out := [7], seq := 2 } } }


/-- The display scans a surface of two pixels. -/
def dispS (f : Disp → Disp) : State :=
  { up with disp := f { up.disp with tim := le 2 2 ++ zeros 2 ++ [1] ++ zeros 31, mode := 2, safe := false } }

/-- No safety input is in demand, and SOK is reached. -/
def calm : State :=
  let i : SafeIn := { a := { on := false }, b := { on := false } }
  { up with safety := { up.safety with sok := true, sin := i, ssr := i } }

/-- An entry into STANDBY of channel 5 at a step. -/
def entryS (step : Nat) : State := { calm with
  pw := { up.pw with entry := some ⟨5, 1000000, 0xFFFF, 63, 0, step⟩ } }

/-- STANDBY with the banks retained given and a source that has fired. -/
def asleep (retain bit : Nat) : State := { up with
  clk := { up.clk with busRun := false, apRun := false, plla := false }
  pw := { up.pw with mode := 2, last := { mask := 63, retain := retain }, fired := [(bit, 4)] } }

/-- Port 23 ends its session on low current since a tick. -/
def opening7 (n : Nat) : State := at23 (fun q => { q with
  ct := { q.ct with chs := true, cls := true, stage := 5, opening := some n } }) up

theorem opening7_low (n : Nat) : allLow (opening7 n) 23 = true := by
  have h : ∀ x ∈ List.range 3, fastI2 (opening7 n) 23 x = 0 := by
    intro x hx
    have a : (getPh (opening7 n) 23 x).fine = false ∧
        meanOf 17 ((getPh (opening7 n) 23 x).box.map fun e => e.1) = 0 ∧
        offI (bankOf (opening7 n) 23) 23 x false = 0 :=
      (by decide +kernel : ∀ x ∈ List.range 3, (getPh (opening7 0) 23 x).fine = false ∧
        meanOf 17 ((getPh (opening7 0) 23 x).box.map fun e => e.1) = 0 ∧
        offI (bankOf (opening7 0) 23) 23 x false = 0) x hx
    simp [fastI2, fastVals, valsOf, pathPart, boxLen, a.1, a.2.1, a.2.2, Rat.sub_self, Rat.mul_zero, Rat.add_zero,
      Rat.div_def, Rat.zero_mul]
    all_goals exact (by decide : max (0 : Rat) 0 = 0)
  simp only [allLow, List.all_eq_true]
  intro x hx
  rw [h x hx]; decide +kernel
theorem test_StepRunsFront_2 : ∃ (s : State), (s.pending = []) :=
  ⟨up, by decide +kernel⟩

theorem test_StepKeepsInv_0 : ∃ (s : State) (t : State), (Inv s) ∧ (step s = .next t) :=
  ⟨{ up with pending := [] }, up, by decide +kernel, rfl⟩

theorem test_FusesOnlyBlow_0 : ∃ (c : Instr) (s : State) (t : State), (exec c s = .next t) :=
  ⟨.holdupSChange true, up, up, rfl⟩

theorem test_WriteFrameAnswers_1 : ∃ (s : State) (addr : Nat) (len : Nat) (data : List Byte) (crc : Nat), (hcRun s = true) ∧ (data.length = len) ∧ (crc ≠ (crc16 ([byteOf 0xC3] ++ be 3 addr ++ be 2 len ++ data))) :=
  ⟨up, 0x10000, 1, [5], 7, by decide +kernel⟩

theorem test_WriteFrameAnswers_2 : ∃ (s : State) (addr : Nat) (len : Nat) (data : List Byte) (crc : Nat), (hcRun s = true) ∧ (data.length = len) ∧ (crc = (crc16 ([byteOf 0xC3] ++ be 3 addr ++ be 2 len ++ data))) ∧ (frameOk addr len 1024 = false) :=
  ⟨up, 0xFFFFFF, 2, [5, 6], crc16 ([byteOf 0xC3] ++ be 3 0xFFFFFF ++ be 2 2 ++ [5, 6]), by decide +kernel⟩

theorem test_WriteFrameAnswers_3 : ∃ (s : State) (addr : Nat) (len : Nat) (data : List Byte) (crc : Nat), (hcRun s = true) ∧ (data.length = len) ∧ (crc = (crc16 ([byteOf 0xC3] ++ be 3 addr ++ be 2 len ++ data))) ∧ (frameOk addr len 1024 = true) ∧ (regionOf addr = 2 ∨ (regionOf addr = 3 ∧ addr < 0x1C000)) ∧ (writable s addr = false) :=
  ⟨{ up with link := { up.link with chans := List.replicate 8 { st := .pending } } }, 0x10000, 4, [5, 6, 7, 8], crc16 ([byteOf 0xC3] ++ be 3 0x10000 ++ be 2 4 ++ [5, 6, 7, 8]), by decide +kernel⟩

theorem test_WriteFrameAnswers_4 : ∃ (s : State) (addr : Nat) (len : Nat) (data : List Byte) (crc : Nat), (hcRun s = true) ∧ (data.length = len) ∧ (crc = (crc16 ([byteOf 0xC3] ++ be 3 addr ++ be 2 len ++ data))) ∧ (frameOk addr len 1024 = true) ∧ (regionOf addr = 4 ∨ (regionOf addr = 3 ∧ 0x1C000 ≤ addr)) :=
  ⟨up, 0x1C000, 4, [5, 6, 7, 8], crc16 ([byteOf 0xC3] ++ be 3 0x1C000 ++ be 2 4 ++ [5, 6, 7, 8]), by decide +kernel⟩

theorem test_WriteFrameAnswers_5 : ∃ (s : State) (addr : Nat) (len : Nat) (data : List Byte) (crc : Nat), (hcRun s = true) ∧ (data.length = len) ∧ (crc = (crc16 ([byteOf 0xC3] ++ be 3 addr ++ be 2 len ++ data))) ∧ (frameOk addr len 1024 = true) ∧ (regionOf addr ≠ 1) ∧ (writable s addr = true) ∧ (s.clk.busRun = true) ∧ (s.link.staged = none) ∧ (s.link.waits = []) :=
  ⟨up, 0x10000, 4, [5, 6, 7, 8], crc16 ([byteOf 0xC3] ++ be 3 0x10000 ++ be 2 4 ++ [5, 6, 7, 8]), by decide +kernel⟩

theorem test_WriteFrameAnswers_6 : ∃ (s : State) (addr : Nat) (len : Nat) (data : List Byte) (crc : Nat), (hcRun s = true) ∧ (data.length = len) ∧ (crc = (crc16 ([byteOf 0xC3] ++ be 3 addr ++ be 2 len ++ data))) ∧ (frameOk addr len 1024 = true) ∧ (regionOf addr ≠ 1) ∧ (writable s addr = true) ∧ (s.clk.busRun = false) :=
  ⟨{ up with clk := { up.clk with busRun := false } }, 0x10000, 4, [5, 6, 7, 8], crc16 ([byteOf 0xC3] ++ be 3 0x10000 ++ be 2 4 ++ [5, 6, 7, 8]), by decide +kernel⟩

theorem test_WriteFrameAnswers_7 : ∃ (s : State) (addr : Nat) (len : Nat) (data : List Byte), (hcRun s = true) ∧ (data.length = len) ∧ (frameOk addr len 6144 = true) ∧ (rtcFrame addr len = false) ∧ (regionOf addr = 1 ∨ (s.clk.busRun = true ∧ s.link.staged = none ∧ s.link.waits = [])) :=
  ⟨up, 0, 4, [0, 0, 0, 0], by decide +kernel⟩

theorem test_WriteFrameAnswers_8 : ∃ (s : State) (addr : Nat) (len : Nat) (data : List Byte), (hcRun s = true) ∧ (data.length = len) ∧ (frameOk addr len 6144 = true) ∧ (regionOf addr ≠ 1) ∧ (s.clk.busRun = false) :=
  ⟨{ up with clk := { up.clk with busRun := false } }, 0x10000, 4, [0, 0, 0, 0], by decide +kernel⟩

theorem test_StagedWriteCommits_0 : ∃ (s : State) (a : Nat) (d : List Byte), (memWf s.link.mem = true) ∧ (s.link.staged = some (a, d)) ∧ (s.clk.busRun = true) ∧ (hcRun s = true) ∧ (0x10000 ≤ a) :=
  ⟨{ up with link := { up.link with staged := some (0x10000, [5, 6]) } }, 0x10000, [5, 6], by decide +kernel⟩

theorem test_ChannelProtocol_1 : ∃ (s : State) (c : Nat), (c < 6) ∧ (hcRun s = true) ∧ (c < s.link.chans.length) ∧ ((chan s c).st = .idle) :=
  ⟨up, 5, by decide +kernel⟩

theorem test_ChannelProtocol_2 : ∃ (s : State) (c : Nat), (c < 6) ∧ (hcRun s = true) ∧ ((chan s c).st ≠ .idle) :=
  ⟨{ up with link := { up.link with chans := List.replicate 8 { st := .respReady } } }, 0, by decide +kernel⟩

theorem test_ChannelProtocol_3 : ∃ (s : State) (c : Nat), (c < 6) ∧ (c < s.link.chans.length) ∧ (s.link.irq.getLsbD c = true) ∧ ((chan s c).st = .respReady) ∧ (s.link.noteCh ≠ c) ∧ (hcRun s = true) ∧ (s.link.routes = []) :=
  ⟨{ up with link := { up.link with irq := 32, chans := List.replicate 8 { st := .respReady } } }, 5, by decide +kernel⟩

theorem test_ChannelProtocol_4 : ∃ (s : State) (n : Note) (ns : List Note), (memWf s.link.mem = true) ∧ (s.link.notes = n :: ns) ∧ (s.link.noteCh < 6) ∧ ((chan s s.link.noteCh).st = .notifyOnly) ∧ (s.link.irq.getLsbD s.link.noteCh = false) ∧ (apServing s = true) ∧ (hcRun s = true) :=
  ⟨{ up with link := { up.link with noteCh := 5, notes := [⟨0x0380, [1, 2]⟩], chans := List.replicate 8 { st := .notifyOnly } } }, ⟨0x0380, [1, 2]⟩, [], by decide +kernel⟩

theorem test_RegisterWrites_1 : ∃ (s : State) (v : Nat), (hcRun s = true) ∧ (v < 2 ^ 32) :=
  ⟨up, 0xFFFFFFFF, by decide +kernel⟩

theorem test_RegisterWrites_2 : ∃ (s : State) (v : Nat), (hcRun s = true) ∧ (v < 2 ^ 32) :=
  ⟨{ up with link := { up.link with irq := 0x1F3F } }, 0x1F00, by decide +kernel⟩

theorem test_RegisterWrites_3 : ∃ (s : State) (v : Nat), (hcRun s = true) ∧ (v < 2 ^ 32) :=
  ⟨{ up with link := { up.link with hlStatus := 0xFFFF } }, 0x8F00, by decide +kernel⟩

theorem test_RegisterWrites_4 : ∃ (s : State) (v : Nat), (hcRun s = true) ∧ (v < 2 ^ 32) :=
  ⟨{ up with link := { up.link with refused := 5, crcErrs := 6 } }, 0x10000, by decide +kernel⟩

theorem test_RegisterWrites_5 : ∃ (s : State) (v : Nat), (hcRun s = true) ∧ (v < 2 ^ 32) :=
  ⟨{ up with clk := { up.clk with relockSeen := true, rtcStopSeen := true } }, 0x20000, by decide +kernel⟩

theorem test_RegisterWrites_6 : ∃ (s : State) (v : Nat), (hcRun s = true) ∧ (v < 2 ^ 32) ∧ (windowReach s = true) :=
  ⟨{ up with boot := { up.boot with phase := .windowOpen } }, 0x20000, by decide +kernel⟩

theorem test_RegisterWrites_7 : ∃ (s : State) (v : Nat), (hcRun s = true) ∧ (v < 2 ^ 32) ∧ (windowReach s = true) :=
  ⟨{ up with boot := { up.boot with phase := .windowOpen } }, 0x20000, by decide +kernel⟩

theorem test_RegisterWrites_8 : ∃ (s : State) (v : Nat) (a : Nat), (hcRun s = true) ∧ (v < 2 ^ 32) ∧ (a ∉ [0x0C, 0x18, 0x1C, 0x20, 0x2C, 0x1008, 0x100C]) :=
  ⟨up, 5, 4, by decide +kernel⟩

theorem test_StoppedDomains_1 : ∃ (s : State), (hcRun s = true) ∧ (s.clk.rtcOsc = true) ∧ (s.link.waits = []) :=
  ⟨up, by decide +kernel⟩

theorem test_StoppedDomains_2 : ∃ (s : State), (hcRun s = true) ∧ (s.clk.rtcOsc = false) :=
  ⟨{ up with clk := { up.clk with rtcOsc := false } }, by decide +kernel⟩

theorem test_StoppedDomains_3 : ∃ (s : State) (bus : Bool) (w : Option (Nat × List Byte)) (r : Nat × Nat), (s.link.waits = [⟨bus, w, r, false⟩]) :=
  ⟨{ up with link := { up.link with waits := [⟨true, some (0x10000, [1]), (0, 0), false⟩] } }, true, some (0x10000, [1]), (0, 0), by decide +kernel⟩

theorem test_StoppedDomains_4 : ∃ (s : State) (r : Nat × Nat), (s.link.waits = [⟨false, none, r, true⟩]) ∧ (hcRun s = true) ∧ (s.clk.rtcOsc = true) :=
  ⟨{ up with link := { up.link with waits := [⟨false, none, (0x30, 8), true⟩] } }, (0x30, 8), by decide +kernel⟩

theorem test_StoppedDomains_5 : ∃ (s : State) (a : Nat) (d : List Byte) (r : Nat × Nat) (gone : Bool), (s.link.waits = [⟨true, some (a, d), r, gone⟩]) ∧ (hcRun s = true) ∧ (s.clk.busRun = true) ∧ (s.link.staged = none) ∧ (writable s a = true) :=
  ⟨{ up with link := { up.link with waits := [⟨true, some (0x10000, [1]), (0, 0), true⟩] } }, 0x10000, [1], (0, 0), true, by decide +kernel⟩

theorem test_StoppedDomains_6 : ∃ (s : State), (hcRun s = true) :=
  ⟨up, by decide +kernel⟩

theorem test_RequestChecks_1 : ∃ (s : State) (c : Nat), (canServe s c = true) ∧ (¬(crc16 (memReadBytes s.link.mem (reqBase c) 14) = reqField s c 14 2)) :=
  ⟨badCrc (ask 3 0x0101 [] up), 3, by decide +kernel⟩

theorem test_RequestChecks_2 : ∃ (s : State) (c : Nat), (canServe s c = true) ∧ ((crc16 (memReadBytes s.link.mem (reqBase c) 14) = reqField s c 14 2)) ∧ (¬(reqField s c 0 1 = c)) :=
  ⟨asked 3 (hdr14 4 0 7 0x0101 0 0) up, 3, by decide +kernel⟩

theorem test_RequestChecks_3 : ∃ (s : State) (c : Nat), (canServe s c = true) ∧ ((crc16 (memReadBytes s.link.mem (reqBase c) 14) = reqField s c 14 2)) ∧ ((reqField s c 0 1 = c)) ∧ (¬(reqTag s c ≠ 0 ∧ reqField s c 1 1 = 0)) :=
  ⟨asked 3 (hdr14 3 0 0 0x0101 0 0) up, 3, by decide +kernel⟩

theorem test_RequestChecks_4 : ∃ (s : State) (c : Nat), (canServe s c = true) ∧ ((crc16 (memReadBytes s.link.mem (reqBase c) 14) = reqField s c 14 2)) ∧ ((reqField s c 0 1 = c)) ∧ ((reqTag s c ≠ 0 ∧ reqField s c 1 1 = 0)) ∧ (¬(reqLen s c ≤ 2032)) :=
  ⟨asked 3 (hdr14 3 0 7 0x0101 2033 0) up, 3, by decide +kernel⟩

theorem test_RequestChecks_5 : ∃ (s : State) (c : Nat) (pass : Bool) (blown : Nat), (canServe s c = true) ∧ ((crc16 (memReadBytes s.link.mem (reqBase c) 14) = reqField s c 14 2)) ∧ ((reqField s c 0 1 = c)) ∧ ((reqTag s c ≠ 0 ∧ reqField s c 1 1 = 0)) ∧ ((reqLen s c ≤ 2032)) ∧ (¬(∃ r ∈ (requestRows c pass blown), r.2.1 = reqOp s c)) :=
  ⟨ask 3 0x0109 [] up, 3, true, 0, by decide +kernel⟩

theorem test_RequestChecks_8 : ∃ (s : State) (c : Nat), (canServe s c = true) ∧ (memWf s.link.mem = true) ∧ (c < s.link.chans.length) :=
  ⟨ask 3 0x0109 [] up, 3, by decide +kernel⟩

theorem test_ResponseDelivered_0 : ∃ (s : State) (c : Nat) (pl : List Byte), (memWf s.link.mem = true) ∧ (c < s.link.chans.length) ∧ (pl.length ≤ 6128) :=
  ⟨ask 5 0x0101 [1] up, 5, [1, 2, 3], by decide +kernel⟩

theorem test_LinkCommands_1 : ∃ (s : State) (c : Nat), (Asked s c 0x0101 (fun k => k ≤ 2032)) :=
  ⟨ask 7 0x0101 [1, 2, 3] up, 7, by decide +kernel⟩

theorem test_LinkCommands_2 : ∃ (s : State) (c : Nat), (Asked s c 0x0102 (len 8)) ∧ ((1 ≤ asks s c 0 1 ∧ asks s c 0 1 ≤ 5) ∨ asks s c 0 1 = 0xFF) :=
  ⟨ask 0 0x0102 [5, 0, 0, 0, 9, 0, 0, 0] up, 0, by decide +kernel⟩

theorem test_LinkCommands_3 : ∃ (s : State) (c : Nat), (Asked s c 0x0201 (len 0)) :=
  ⟨ask 7 0x0201 [] up, 7, by decide +kernel⟩

theorem test_ClockLossAndReturn_1 : ∃ (s : State) (k : Clock), (clockOn s.clk k = true) ∧ ((k = .rtc → s.clk.rtcRun = true)) :=
  ⟨up, .rtc, by decide +kernel⟩

theorem test_ClockLossAndReturn_2 : ∃ (s : State), (s.clk.rtcOsc = true) :=
  ⟨up, by decide +kernel⟩

theorem test_ClockLossAndReturn_3 : ∃ (s : State) (k : Clock), (k ≠ .rtc) ∧ (clockOn s.clk k = false) :=
  ⟨State.reset, .plla, by decide +kernel⟩

theorem test_ClockLossAndReturn_4 : ∃ (s : State), (s.clk.plla = false) ∧ (s.clk.xref = true) ∧ (s.boot.phase ≠ .reset) ∧ (s.pw.mode ≠ 2) :=
  ⟨{ up with clk := { up.clk with plla := false, apRun := false } }, by decide +kernel⟩

theorem test_ClockLossAndReturn_5 : ∃ (s : State), (s.clk.plln = false) ∧ (s.clk.xref = true) ∧ (s.boot.phase ≠ .reset) ∧ (s.pw.mode ≠ 2) :=
  ⟨{ up with clk := { up.clk with plln := false, nfRun := false } }, by decide +kernel⟩

theorem test_ClockLossAndReturn_6 : ∃ (s : State), (s.clk.rtcRun = false) ∧ (s.clk.rtcOsc = false) :=
  ⟨{ up with clk := { up.clk with rtcRun := false, rtcOsc := false } }, by decide +kernel⟩

theorem test_ClockLossAndReturn_7 : ∃ (s : State), (s.clk.pllp = false) ∧ (s.clk.pllpFails < 2) :=
  ⟨{ up with clk := { up.clk with pllp := false, pllpFails := 1 } }, by decide +kernel⟩

theorem test_ClockLossAndReturn_8 : ∃ (s : State), (s.clk.plln = false) ∧ (s.clk.pllnFails = 2) :=
  ⟨{ up with clk := { up.clk with plln := false, pllnFails := 2 } }, by decide +kernel⟩

theorem test_TickAdvances_1 : ∃ (s : State), (s.boot.phase ≠ .reset) ∧ (s.clk.xref = true) ∧ (s.clk.pllc = true) ∧ (setWaits s = false) :=
  ⟨up, by decide +kernel⟩

theorem test_TickAdvances_2 : ∃ (s : State), (s.boot.phase ≠ .reset) ∧ (s.clk.xref = false ∨ s.clk.pllc = false) :=
  ⟨{ up with clk := { up.clk with pllc := false } }, by decide +kernel⟩

theorem test_TickAdvances_3 : ∃ (s : State), (s.boot.phase = .reset) :=
  ⟨State.reset, by decide +kernel⟩

theorem test_FullResets_1 : ∃ (s : State) (c : Nat), (1 ≤ c) ∧ (c ≤ 8) ∧ (c ≠ 6) ∧ (s.boot.phase ≠ .reset) :=
  ⟨up, 8, by decide +kernel⟩

theorem test_FullResets_2 : ∃ (s : State) (cs : List Nat) (c : Nat), (c ∈ cs) ∧ (1 ≤ c) ∧ ((∀ d ∈ cs, c ≤ d ∧ d ≤ 8 ∧ d ≠ 6)) ∧ (s.boot.phase ≠ .reset) :=
  ⟨up, [5, 2, 4], 2, by decide +kernel⟩

theorem test_FullResets_3 : ∃ (s : State), (s.clk.wdArmed = true) ∧ (2 ≤ s.clk.wdMissed) ∧ (s.boot.phase ≠ .reset) :=
  ⟨{ up with clk := { up.clk with wdMissed := 2 } }, by decide +kernel⟩

theorem test_FullResets_4 : ∃ (s : State), (ksRun s = true) ∧ (s.boot.phase ≠ .reset) :=
  ⟨up, by decide +kernel⟩

theorem test_FullResets_5 : ∃ (s : State), (s.boot.phase ≠ .reset) :=
  ⟨up, by decide +kernel⟩

theorem test_FullResets_6 : ∃ (s : State), (s.pw.mode = 3) ∧ (s.boot.phase = .reset) ∧ (s.boot.cause = 6) :=
  ⟨{ State.reset with pw := { mode := 3 }, boot := { State.reset.boot with cause := 6 } }, by decide +kernel⟩

theorem test_FullResets_7 : ∃ (s : State), (s.pw.mode = 3) :=
  ⟨{ State.reset with pw := { mode := 3 } }, by decide +kernel⟩

theorem test_SramCorrected_1 : ∃ (s : State) (bank : Nat), (s.boot.phase ≠ .reset) ∧ (bank < 16) ∧ (s.fences.rowErrs = []) :=
  ⟨up, 15, by decide +kernel⟩

theorem test_SramCorrected_2 : ∃ (s : State) (bank : Nat) (row : Nat) (n : Nat), (s.boot.phase ≠ .reset) ∧ (bank < 16) ∧ (s.fences.rowErrs = [(bank, row, n)]) ∧ (now s < n + 691200000) ∧ ((bank, row) ∉ s.fences.repair) ∧ (nth s.fences.rows bank 0 ≠ 0) :=
  ⟨{ up with fences := { up.fences with rowErrs := [(15, 3, 900000)] } }, 15, 3, 900000, by decide +kernel⟩

theorem test_BootPhases_1 : ∃ (s : State), (s.boot.phase = .reset) ∧ (s.pw.mode ≠ 3) :=
  ⟨State.reset, by decide +kernel⟩

theorem test_BootPhases_2 : ∃ (s : State), (s.boot.phase = .selftest) ∧ (s.sealIn.known = true) ∧ (s.boot.testmode = false) ∧ (s.boot.bootsel = false ∨ s.boot.released = true) :=
  ⟨{ up with boot := { phase := .selftest } }, by decide +kernel⟩

theorem test_BootPhases_3 : ∃ (s : State), (s.boot.phase = .selftest) ∧ (s.sealIn.known = true) ∧ (s.boot.testmode = false) ∧ (s.boot.bootsel = true) ∧ (s.boot.released = false) :=
  ⟨{ up with boot := { phase := .selftest, bootsel := true } }, by decide +kernel⟩

theorem test_BootPhases_4 : ∃ (s : State), (s.boot.phase = .selftest) :=
  ⟨{ up with boot := { phase := .selftest } }, by decide +kernel⟩

theorem test_BootPhases_5 : ∃ (s : State), (s.boot.phase = .selftest) ∧ (windowReach s = true) ∧ (s.boot.waiting = true) :=
  ⟨{ up with boot := { phase := .selftest, bootsel := true, waiting := true } }, by decide +kernel⟩

theorem test_BootPhases_6 : ∃ (s : State) (c : Nat), (windowReach s = true) ∧ ((chunkOf s.boot).image = c + 1) ∧ (c < s.boot.imgs.length) ∧ ((nth s.boot.imgs c {}).st ≠ .active ∨ s.boot.reopened = false) :=
  ⟨{ up with boot := { phase := .windowOpen, chunk := 0x5000, imgs := List.replicate 5 { st := .loading } } }, 4, by decide +kernel⟩

theorem test_ChunkProtocol_1 : ∃ (s : State), (windowReach s = true) ∧ (s.boot.hold = false) ∧ ((if (chunkOf s.boot).buf then s.boot.free1 else s.boot.free0) = true) :=
  ⟨{ up with boot := { phase := .windowOpen, chunk := 0x09 } }, by decide +kernel⟩

theorem test_ChunkProtocol_2 : ∃ (s : State), (windowReach s = true) ∧ (s.boot.hold = false) ∧ (s.boot.queue = []) ∧ ((chunkOf s.boot).kind = 4) ∧ ((if (chunkOf s.boot).buf then s.boot.free1 else s.boot.free0) = true) ∧ (1 ≤ (chunkOf s.boot).image) ∧ ((chunkOf s.boot).image ≤ 5) ∧ (s.boot.imgs.length = 5) ∧ ((getImg s (chunkOf s.boot).image).st = .loading) ∧ ((chunkOf s.boot).seq = (getImg s (chunkOf s.boot).image).seq) :=
  ⟨{ up with boot := { phase := .windowOpen, chunk := 0x25000, seq := 1, imgs := List.replicate 5 { st := .loading, seq := 1 } } }, by decide +kernel⟩

theorem test_ChunkProtocol_3 : ∃ (s : State), (windowReach s = true) ∧ (s.boot.hold = false) ∧ ((if (chunkOf s.boot).buf then s.boot.free1 else s.boot.free0) = false) :=
  ⟨{ up with boot := { phase := .windowOpen, chunk := 0x09, free0 := false } }, by decide +kernel⟩

theorem test_ChunkProtocol_4 : ∃ (s : State), (windowReach s = true) ∧ (s.boot.hold = true) :=
  ⟨{ up with boot := { phase := .windowOpen, hold := true } }, by decide +kernel⟩

theorem test_ChunkProtocol_5 : ∃ (s : State), (windowReach s = false) :=
  ⟨State.reset, by decide +kernel⟩

theorem test_ChunkProtocol_6 : ∃ (s : State) (k : Chunk) (q : List Chunk), (s.boot.phase = .windowOpen) ∧ (s.boot.queue = k :: q) ∧ (1 ≤ k.image) ∧ (k.image ≤ 5) ∧ (s.boot.imgs.length = 5) ∧ (k.kind = 1) ∧ (1 ≤ k.len) ∧ (k.len ≤ 1024) ∧ ((getImg s k.image).st = .loading) ∧ ((getImg s k.image).hdr = []) ∧ (k.seq = (getImg s k.image).seq) :=
  ⟨{ up with boot := { phase := .windowOpen, queue := [{ kind := 1, image := 1, len := 1024, seq := 1 }], free0 := false, imgs := List.replicate 5 { st := .loading, seq := 1 } } }, { kind := 1, image := 1, len := 1024, seq := 1 }, [], by decide +kernel⟩

theorem test_ChunkProtocol_7 : ∃ (s : State) (k : Chunk) (q : List Chunk), (s.boot.phase = .windowOpen) ∧ (s.boot.queue = k :: q) ∧ (1 ≤ k.image) ∧ (k.image ≤ 5) ∧ (s.boot.imgs.length = 5) ∧ (1 ≤ k.kind) ∧ (k.kind ≤ 3) ∧ (1 ≤ k.len) ∧ (k.len ≤ 1024) ∧ (k.seq ≠ (getImg s k.image).seq) ∧ ((getImg s k.image).st ≠ .active) :=
  ⟨{ up with boot := { phase := .windowOpen, queue := [{ kind := 1, image := 1, len := 1024, seq := 1 }], free0 := false, imgs := List.replicate 5 { st := .loading, seq := 2 } } }, { kind := 1, image := 1, len := 1024, seq := 1 }, [], by decide +kernel⟩

theorem test_ChunkProtocol_8 : ∃ (s : State) (k : Chunk) (q : List Chunk), (s.boot.phase = .windowOpen) ∧ (s.boot.queue = k :: q) ∧ (1 ≤ k.image) ∧ (k.image ≤ 5) ∧ (s.boot.imgs.length = 5) ∧ (k.kind = 4) ∧ (k.len = 0) ∧ ((getImg s k.image).st = .verifying) ∧ (k.seq = (getImg s k.image).seq) ∧ ((getImg s k.image).hdr = []) ∧ ((getImg s k.image).ins = 0) ∧ ((getImg s k.image).part = []) ∧ ((getImg s k.image).out.length ≠ manLen (getImg s k.image).man) :=
  ⟨{ up with boot := { phase := .windowOpen, queue := [{ kind := 4, image := 5, len := 0, seq := 1 }], free0 := false, imgs := List.replicate 5 { st := .verifying, seq := 1, man := List.replicate 320 1 } } }, { kind := 4, image := 5, len := 0, seq := 1 }, [], by decide +kernel⟩

theorem test_WarmRestart_1 : ∃ (s : State), (imgActive s 1 = true) ∧ (s.clk.plla = true) ∧ (s.pw.mode ≠ 2) ∧ (s.upd.st = 0) ∧ (sha256 (getImg s 1).out = manDigest (getImg s 1).man) :=
  ⟨{ up with boot := { up.boot with imgs := List.replicate 5 { st := .active, out := [7], man := man4 } }, link := { up.link with chans := List.replicate 8 { st := .inService } } }, by decide +kernel⟩

theorem test_WarmRestart_2 : ∃ (s : State), (imgActive s 1 = false ∨ s.clk.plla = false ∨ s.pw.mode = 2) :=
  ⟨State.reset, by decide +kernel⟩

theorem test_WarmRestart_3 : ∃ (s : State), (imgActive s 1 = true) ∧ (s.boot.imgs.length = 5) ∧ (s.upd.st = 0) ∧ (s.boot.phase = .running) ∧ (s.clk.plla = true) ∧ (s.pw.mode ≠ 2) :=
  ⟨{ up with link := { up.link with chans := List.replicate 8 { st := .inService } } }, by decide +kernel⟩

theorem test_TableLoad_1 : ∃ (s : State) (c : Nat), (Asked s c 0x0010 (fun k => 20 ≤ k)) ∧ (reqLen s c = 20 + asks s c 16 2) ∧ (tabKnown (asks s c 0 2) = true) ∧ (tabSealed (asks s c 0 2) = true) ∧ (sealPort s = false) ∧ (s.tabs.owner ≠ some c) :=
  ⟨ask 7 0x10 (le 2 0x4303 ++ le 2 1 ++ le 4 8 ++ le 4 0 ++ le 4 0 ++ le 2 0 ++ le 2 1) up, 7, by decide +kernel⟩

theorem test_TableLoad_2 : ∃ (s : State) (c : Nat), (Asked s c 0x0010 (fun k => 20 ≤ k)) ∧ (reqLen s c = 20 + asks s c 16 2) ∧ (tabKnown (asks s c 0 2) = true) ∧ (tabSealed (asks s c 0 2) = true) ∧ (sealPort s = false) ∧ (s.tabs.owner = some c) ∧ (asks s c 18 2 = 1) :=
  ⟨ask 7 0x10 (le 2 0x4303 ++ le 2 1 ++ le 4 8 ++ le 4 0 ++ le 4 0 ++ le 2 0 ++ le 2 1) { up with tabs := { owner := some 7, id := 0x4303 } }, 7, by decide +kernel⟩

theorem test_TableLoad_3 : ∃ (s : State) (c : Nat), (Asked s c 0x0010 (fun k => 20 ≤ k)) ∧ (reqLen s c = 20 + asks s c 16 2) ∧ (tabKnown (asks s c 0 2) = true) ∧ (tabSealed (asks s c 0 2) = false) ∧ (s.tabs.owner = none) ∧ (asks s c 18 2 = 0) ∧ (asks s c 8 4 = 0) ∧ (tabSize (asks s c 0 2) = some (asks s c 4 4)) ∧ (asks s c 16 2 ≤ asks s c 4 4) ∧ (openBytes s (asks s c 0 2) (asks s c 4 4) ≤ 3145728) :=
  ⟨ask 0 0x10 (le 2 0x1401 ++ le 2 1 ++ le 4 8 ++ le 4 0 ++ le 4 7 ++ le 2 2 ++ le 2 0 ++ [1, 0]) up, 0, by decide +kernel⟩

theorem test_TableLoad_4 : ∃ (s : State) (c : Nat), (Asked s c 0x0010 (fun k => 20 ≤ k)) ∧ (reqLen s c = 20 + asks s c 16 2) ∧ (tabKnown (asks s c 0 2) = true) ∧ (tabSealed (asks s c 0 2) = false) ∧ (s.tabs.owner = none) ∧ (asks s c 18 2 = 1) ∧ (asks s c 8 4 = 0) ∧ (tabSize (asks s c 0 2) = some (asks s c 4 4)) ∧ (asks s c 16 2 = asks s c 4 4) ∧ (openBytes s (asks s c 0 2) (asks s c 4 4) ≤ 3145728) ∧ (crc32 ((reqPayload s c).drop 20) = asks s c 12 4) ∧ (tabCheck (asks s c 0 2) ((reqPayload s c).drop 20) s = none) :=
  ⟨ask 0 0x10 (le 2 0x1401 ++ le 2 1 ++ le 4 8 ++ le 4 0 ++ le 4 (crc32 def1401) ++ le 2 8 ++ le 2 1 ++ def1401) up, 0, by decide +kernel⟩

theorem test_TableLoad_5 : ∃ (s : State) (c : Nat), (Asked s c 0x0010 (fun k => 20 ≤ k)) ∧ (reqLen s c = 20 + asks s c 16 2) ∧ (tabKnown (asks s c 0 2) = true) ∧ (tabSealed (asks s c 0 2) = true) ∧ (sealPort s = true) ∧ (s.tabs.owner = none) ∧ (asks s c 18 2 = 1) ∧ (asks s c 8 4 = 0) ∧ (tabSize (asks s c 0 2) = some (asks s c 4 4)) ∧ (asks s c 16 2 = asks s c 4 4) ∧ (crc32 ((reqPayload s c).drop 20) = asks s c 12 4) ∧ (tabNewest s (asks s c 0 2) < asks s c 2 2) ∧ (tabCheck (asks s c 0 2) ((reqPayload s c).drop 20) s = none) ∧ (s.cairn.queue = []) ∧ (asks s c 4 4 ≤ 16384) :=
  ⟨ask 0 0x10 (le 2 0x4303 ++ le 2 1 ++ le 4 8 ++ le 4 0 ++ le 4 (crc32 def4303) ++ le 2 8 ++ le 2 1 ++ def4303) { up with sealIn := { known := true, open_ := true, port := true } }, 0, by decide +kernel⟩

theorem test_TableEffects_1 : ∃ (s : State) (c : Nat), (Asked s c 0x0011 (len 4)) ∧ (tabKnown (asks s c 0 2) = true) :=
  ⟨ask 7 0x11 (le 2 0x4F01 ++ le 2 0) up, 7, by decide +kernel⟩

theorem test_TableEffects_2 : ∃ (s : State) (c : Nat), (s.tabs.owner = some c) ∧ (s.tabs.last + 80000 ≤ now s) :=
  ⟨{ up with tabs := { owner := some 5, last := 920003 } }, 5, by decide +kernel⟩

theorem test_TableEffects_3 : ∃ (s : State), (now s < s.tabs.last + 80000) :=
  ⟨{ up with tabs := { owner := some 5, last := 920004 } }, by decide +kernel⟩

theorem test_TableEffects_4 : ∃ (s : State) (w : TablePend), (s.tabs.waiting = [w]) ∧ (w.since < now s) ∧ (cairnDone w.token s = true) ∧ (w.token = 0) ∧ (w.ch = none) :=
  ⟨{ up with tabs := { waiting := [⟨⟨0x1401, 1, def1401, 0⟩, 0, none, 1000002⟩] } }, ⟨⟨0x1401, 1, def1401, 0⟩, 0, none, 1000002⟩, by decide +kernel⟩

theorem test_TableEffects_5 : ∃ (s : State) (w : TablePend) (c : Nat), (memWf s.link.mem = true) ∧ (s.tabs.waiting = [w]) ∧ (w.since < now s) ∧ (cairnDone w.token s = true) ∧ ((w.token = 0 ∨ cairnLost w.token s = false)) ∧ (w.ch = some c) ∧ (c < s.link.chans.length) ∧ ((chan s c).st = .inService) ∧ (w.tab.id ∉ [0x0601, 0x1201, 0x1301, 0x1302, 0x4301, 0x4302, 0x4303, 0x4401, 0x4501, 0x4601]) :=
  ⟨{ up with tabs := { waiting := [⟨⟨0x4F01, 1, def4F01, 0⟩, 3, some 7, 1000002⟩] }, link := { up.link with chans := List.replicate 8 { st := .inService } }, cairn := { ring := [{ code := 5, tick := 1000002, data := le 2 0x4F01 ++ le 2 0 ++ le 2 1 ++ zeros 18 }] } }, ⟨⟨0x4F01, 1, def4F01, 0⟩, 3, some 7, 1000002⟩, 7, by decide +kernel⟩

theorem test_TableEffects_6 : ∃ (s : State) (w : TablePend), (s.tabs.waiting = [w]) ∧ (now s ≤ w.since) :=
  ⟨{ up with tabs := { waiting := [⟨⟨0x1401, 1, def1401, 0⟩, 0, none, 1000003⟩] } }, ⟨⟨0x1401, 1, def1401, 0⟩, 0, none, 1000003⟩, by decide +kernel⟩

theorem test_SealInput_1 : ∃ (s : State), (64 ≤ s.sealIn.run) ∧ (s.boot.phase ≠ .reset) ∧ (s.sealIn.known = false) ∧ (s.sealIn.level = s.cairn.sealState) :=
  ⟨{ up with sealIn := { level := true, run := 64 }, cairn := { sealState := true } }, by decide +kernel⟩

theorem test_SealInput_2 : ∃ (s : State), (64 ≤ s.sealIn.run) ∧ (s.boot.phase ≠ .reset) ∧ (s.sealIn.known = true) ∧ (s.sealIn.level = true) ∧ (s.sealIn.open_ = false) ∧ (s.eg.pfailTick = none) ∧ (s.cairn.queue = []) :=
  ⟨{ up with sealIn := { level := true, run := 64, known := true } }, by decide +kernel⟩

theorem test_SealInput_3 : ∃ (s : State), (64 ≤ s.sealIn.run) ∧ (s.boot.phase ≠ .reset) ∧ (s.sealIn.known = true) ∧ (s.sealIn.level = false) ∧ (s.sealIn.open_ = true) ∧ (s.upd.st = 0) ∧ (s.cal.run = none) ∧ (s.cairn.behind = []) ∧ ((∀ w ∈ s.tabs.waiting, w.token ≠ s.cairn.next)) :=
  ⟨{ up with sealIn := { level := false, run := 64, known := true, open_ := true, port := true } }, by decide +kernel⟩

theorem test_SealInput_4 : ∃ (s : State), (s.sealIn.run < 64) :=
  ⟨{ up with sealIn := { level := true, run := 63, known := true } }, by decide +kernel⟩

theorem test_SealInput_5 : ∃ (s : State) (n : Nat), (s.sealIn.openedIn = some n) ∧ (n < now s) ∧ (s.sealIn.open_ = true) ∧ (s.eg.pfailTick = none) :=
  ⟨{ up with sealIn := { level := true, run := 127, known := true, open_ := true, openedIn := some 1000002 } }, 1000002, by decide +kernel⟩

theorem test_SealInput_6 : ∃ (s : State) (n : Nat), (s.sealIn.openedIn = some n) ∧ (now s ≤ n) :=
  ⟨{ up with sealIn := { level := true, run := 127, known := true, open_ := true, openedIn := some 1000003 } }, 1000003, by decide +kernel⟩

theorem test_HoldupInput_1 : ∃ (s : State) (b : Bool), (s.boot.phase ≠ .reset) ∧ (s.boot.holdupS = !b) :=
  ⟨up, false, by decide +kernel⟩

theorem test_HoldupInput_2 : ∃ (s : State) (b : Bool), (s.boot.holdupS = b) :=
  ⟨up, true, by decide +kernel⟩

theorem test_CairnLog_1 : ∃ (s : State) (j : CairnJob) (js : List CairnJob), (s.cairn.queue = j :: js) ∧ (s.boot.phase ≠ .reset) ∧ (s.cairn.inTick < 4) ∧ (cairnAwait s < 1024) ∧ (s.cairn.lost = 0 ∨ j.entry.code = 0x70) ∧ (cairnWaits j.entry s = false) ∧ (j.entry.code ≠ 1) ∧ (j.entry.code ≠ 2) ∧ (s.sealIn.opening ≠ some j.token) :=
  ⟨{ up with cairn := { queue := [⟨{ code := 5 }, 1, false⟩], inTick := 3, head := 1023 } }, ⟨{ code := 5 }, 1, false⟩, [], by decide +kernel⟩

theorem test_CairnLog_2 : ∃ (s : State) (j : CairnJob) (js : List CairnJob), (s.cairn.queue = j :: js) ∧ (s.boot.phase ≠ .reset) ∧ (s.cairn.inTick < 4) ∧ (cairnAwait s < 1024) ∧ (s.cairn.lost = 0) ∧ (j.entry.code = 1) ∧ (cairnWaits j.entry s = false) ∧ (s.sealIn.opening = some j.token) :=
  ⟨{ up with cairn := { queue := [⟨{ code := 1 }, 1, false⟩], inTick := 3 }, sealIn := { opening := some 1 } }, ⟨{ code := 1 }, 1, false⟩, [], by decide +kernel⟩

theorem test_CairnLog_3 : ∃ (s : State) (j : CairnJob) (js : List CairnJob), (s.cairn.queue = j :: js) ∧ (s.boot.phase ≠ .reset) ∧ (s.cairn.inTick < 4) ∧ (1024 ≤ cairnAwait s) ∧ (j.tamper = false) ∧ (s.sealIn.opening ≠ some j.token) :=
  ⟨{ up with cairn := { queue := [⟨{ code := 5 }, 1, false⟩], head := 1024 } }, ⟨{ code := 5 }, 1, false⟩, [], by decide +kernel⟩

theorem test_CairnLog_4 : ∃ (s : State), (s.boot.phase ≠ .reset) ∧ (s.cairn.inTick < 4) ∧ (cairnAwait s < 1024) ∧ (s.cairn.lost ≠ 0) ∧ ((∀ j, s.cairn.queue.head? = some j → j.entry.code ≠ 0x70)) :=
  ⟨{ up with cairn := { queue := [⟨{ code := 5 }, 1, false⟩], head := 5, lost := 2 } }, by decide +kernel⟩

theorem test_CairnLog_5 : ∃ (s : State), (4 ≤ s.cairn.inTick) :=
  ⟨{ up with cairn := { inTick := 4 } }, by decide +kernel⟩

theorem test_CairnLog_6 : ∃ (s : State) (j : CairnJob) (js : List CairnJob), (s.cairn.queue = j :: js) ∧ (cairnAwait s < 1024) ∧ (s.cairn.lost = 0) ∧ (cairnWaits j.entry s = true) :=
  ⟨{ up with cairn := { queue := [⟨{ code := 5, writer := 1, tick := 1000003 }, 1, false⟩] } }, ⟨{ code := 5, writer := 1, tick := 1000003 }, 1, false⟩, [], by decide +kernel⟩

theorem test_CairnLog_7 : ∃ (s : State) (c : Nat), (Asked s c 0x0B01 (len 12)) ∧ (rdy s rOR = true) ∧ (1 ≤ asks s c 8 2) ∧ (asks s c 8 2 ≤ 95) ∧ (asks s c 10 2 = 0) ∧ (1 ≤ asks s c 0 8) ∧ (cairnOldest s ≤ asks s c 0 8) ∧ (s.cairn.head < 2 ^ 64) ∧ ((∀ i : Nat, i < min (asks s c 8 2) (s.cairn.head + 1 - asks s c 0 8) → (s.cairn.ring.any fun e => e.seq == asks s c 0 8 + i) = true)) :=
  ⟨ask 7 0x0B01 (le 8 2 ++ le 2 95 ++ le 2 0) { up with cairn := { ring := [{ seq := 1 }, { seq := 2 }], head := 2 } }, 7, by decide +kernel⟩

theorem test_CairnLog_8 : ∃ (s : State) (c : Nat), (Asked s c 0x0B01 (len 12)) ∧ (rdy s rOR = true) ∧ (1 ≤ asks s c 8 2) ∧ (asks s c 8 2 ≤ 95) ∧ (asks s c 10 2 = 0) ∧ (1 ≤ asks s c 0 8) ∧ (cairnOldest s ≤ asks s c 0 8) ∧ (rdy s rCairn = true) :=
  ⟨ask 7 0x0B01 (le 8 1 ++ le 2 95 ++ le 2 0) { up with cairn := { ring := [{ seq := 2 }], mirror := [{ seq := 1 }], head := 2 } }, 7, by decide +kernel⟩

theorem test_CairnLog_9 : ∃ (s : State) (c : Nat), (Asked s c 0x0B01 (len 12)) ∧ (rdy s rOR = false) :=
  ⟨ask 7 0x0B01 (le 8 2 ++ le 2 95 ++ le 2 0) { up with boot := { up.boot with ready := 0 } }, 7, by decide +kernel⟩

theorem test_CairnLog_10 : ∃ (s : State) (c : Nat), (Asked s c 0x0B02 (len 0)) ∧ (rdy s rOR = true) :=
  ⟨ask 7 0x0B02 [] { up with sealIn := { open_ := true }, cairn := { head := 960 } }, 7, by decide +kernel⟩

theorem test_CairnLog_11 : ∃ (s : State) (c : Nat), (Asked s c 0x0B02 (len 0)) ∧ (rdy s rOR = false) :=
  ⟨ask 7 0x0B02 [] { up with boot := { up.boot with ready := 0 } }, 7, by decide +kernel⟩

theorem test_EventRecorder_1 : ∃ (s : State) (e : EvEntry) (es : List EvEntry), (s.ev.queue = e :: es) ∧ (s.boot.phase ≠ .reset) ∧ (s.ev.inTick < 16) ∧ (s.ev.dropRun = 0) ∧ (e.code ≠ 6) ∧ (s.ev.ring.length < 4096) :=
  ⟨{ up with ev := { queue := [{ code := 7 }], inTick := 15 } }, { code := 7 }, [], by decide +kernel⟩

theorem test_EventRecorder_2 : ∃ (s : State) (e : EvEntry) (es : List EvEntry), (s.ev.queue = e :: es) ∧ (s.boot.phase ≠ .reset) ∧ (16 ≤ s.ev.inTick) ∧ (e.code ≠ 6) :=
  ⟨{ up with ev := { queue := [{ code := 7 }], inTick := 16 } }, { code := 7 }, [], by decide +kernel⟩

theorem test_EventRecorder_3 : ∃ (s : State) (e : EvEntry) (es : List EvEntry), (s.ev.queue = e :: es) ∧ (s.boot.phase ≠ .reset) ∧ (s.ev.inTick < 16) ∧ (s.ev.dropRun ≠ 0) ∧ (s.ev.ring.length < 4096) :=
  ⟨{ up with ev := { queue := [{ code := 7 }], inTick := 15, dropRun := 3 } }, { code := 7 }, [], by decide +kernel⟩

theorem test_EventRecorder_4 : ∃ (s : State) (es : List EvEntry) (e : EvEntry), (es = (s.ev.ring.filter fun e => max s.ev.spilled s.ev.spilling < e.seq).take 64) ∧ (es.length = 64) ∧ (es.getLast? = some e) ∧ (rdy s rSE = true) ∧ (chipUp s (zoneChip s 0x24) = true) :=
  ⟨{ up with ev := { ring := (List.range 65).map fun n => { seq := n + 1, data := zeros 16 }, head := 65 } }, (List.range 64).map fun n => { seq := n + 1, data := zeros 16 }, { seq := 64, data := zeros 16 }, by decide +kernel⟩

theorem test_EventRecorder_5 : ∃ (s : State) (c : Nat), (Asked s c 0x1101 (len 12)) ∧ (rdy s rAP = true) ∧ (1 ≤ asks s c 8 2) ∧ (asks s c 8 2 ≤ 190) ∧ (asks s c 10 2 = 0) ∧ (asks s c 0 8 ≤ s.ev.head) ∧ (s.ev.zone = []) :=
  ⟨ask 7 0x1101 (le 8 5 ++ le 2 190 ++ le 2 0) { up with ev := { ring := (List.range 9).map fun n => { seq := n + 1 }, head := 9, cleared := 3 } }, 7, by decide +kernel⟩

theorem test_EventRecorder_6 : ∃ (s : State) (c : Nat), (Asked s c 0x1102 (len 8)) ∧ (rdy s rAP = true) :=
  ⟨ask 7 0x1102 (le 8 5) { up with ev := { ring := (List.range 9).map fun n => { seq := n + 1 }, head := 9, cleared := 3 } }, 7, by decide +kernel⟩

theorem test_EventRecorder_7 : ∃ (s : State) (e : EvEntry) (c : Nat) (a : Nat) (b : Nat), (memWf s.link.mem = true) ∧ (s.ev.queue = [e]) ∧ (s.boot.phase ≠ .reset) ∧ (s.ev.inTick < 16) ∧ (s.ev.dropRun = 0) ∧ (e.code = 6) ∧ (e.subject = 0xC0 + c) ∧ (s.ev.clearing = [(c, a, b)]) ∧ (s.ev.ring.length < 4096) ∧ (c < s.link.chans.length) :=
  ⟨{ up with ev := { queue := [{ code := 6, subject := 0xC7 }], inTick := 15, clearing := [(7, 3, 5)] } }, { code := 6, subject := 0xC7 }, 7, 3, 5, by decide +kernel⟩

theorem test_EventRecorder_8 : ∃ (s : State) (c : Nat), (Asked s c 0x1103 (len 0)) ∧ (rdy s rAP = true) :=
  ⟨ask 7 0x1103 [] up, 7, by decide +kernel⟩

theorem test_EnergyCommits_1 : ∃ (s : State), (spWf {} s.eg.regs = true) ∧ ((∀ e ∈ s.eg.regs, e.2.e < 2 ^ 96)) ∧ (s.eg.slots.length = 2) ∧ (commitDue s = true) ∧ (boundaryDue s = false) ∧ (orRun s = true) :=
  ⟨{ up with clk := { up.clk with tick := 1000000 }, meter := { up.meter with phs := up.meter.phs.set 3 { act := List.replicate 8 5000 } }, tar := { up.tar with nextD := 900000000, nextP := 900000000 } }, by decide +kernel⟩

theorem test_EnergyCommits_2 : ∃ (s : State), (commitDue s = false) :=
  ⟨up, by decide +kernel⟩

theorem test_EnergyCommits_3 : ∃ (s : State), (boundaryDue s = true) ∧ (setWaits s = false) ∧ (forcedDue s = false) ∧ (actDue s = none) ∧ (orRun s = true) :=
  ⟨{ up with lintel := { up.lintel with sfTick := some 1000003 } }, by decide +kernel⟩

theorem test_EnergyCommits_4 : ∃ (s : State), (boundaryDue s = false) :=
  ⟨{ up with tar := { up.tar with nextD := 900000000, nextP := 900000000 } }, by decide +kernel⟩

theorem test_EnergyCommits_5 : ∃ (s : State) (c : Nat), (Asked s c 0x0307 (len 8)) ∧ (rdy s rOR = true) ∧ (asks s c 4 4 = 0) ∧ (1 ≤ asks s c 2 2) ∧ (asks s c 2 2 ≤ 380) ∧ (asks s c 0 2 + asks s c 2 2 ≤ 2376) :=
  ⟨ask 7 0x0307 (le 2 2374 ++ le 2 2 ++ le 4 0) { up with eg := { up.eg with regs := [(2375, ⟨12345678901234, 5⟩)] } }, 7, by decide +kernel⟩

theorem test_EnergyCommits_6 : ∃ (s : State) (c : Nat), (Asked s c 0x0307 (len 8)) ∧ (rdy s rOR = true) ∧ (2376 < asks s c 0 2 + asks s c 2 2) :=
  ⟨ask 7 0x0307 (le 2 2374 ++ le 2 3 ++ le 4 0) up, 7, by decide +kernel⟩

theorem test_EnergyCommits_7 : ∃ (s : State) (c : Nat), (Asked s c 0x0307 (len 8)) ∧ (rdy s rOR = false) :=
  ⟨ask 7 0x0307 (le 2 2374 ++ le 2 3 ++ le 4 0) { up with boot := { up.boot with ready := 0 } }, 7, by decide +kernel⟩

theorem test_EnergyCommits_8 : ∃ (s : State), (s.boot.phase ≠ .reset) ∧ (s.eg.pfailTick = none) ∧ (orRun s = true) ∧ (s.eg.restored = true) :=
  ⟨up, by decide +kernel⟩

theorem test_EnergyCommits_9 : ∃ (s : State) (n : Nat) (r : Nat), (s.boot.phase ≠ .reset) ∧ (s.eg.pfailTick = some n) ∧ (s.eg.rise = some r) ∧ (s.eg.again = none) :=
  ⟨{ up with eg := { up.eg with pfailTick := some 1000000, forced := some 1000001, rise := some 1000001 } }, 1000000, 1000001, by decide +kernel⟩

theorem test_EnergyCommits_10 : ∃ (s : State) (n : Nat), (s.eg.pfailTick = some n) ∧ (s.eg.forced = none) ∧ (orRun s = true) ∧ (s.cairn.queue = []) :=
  ⟨{ up with eg := { up.eg with pfailTick := some 1000000 } }, 1000000, by decide +kernel⟩

theorem test_PortCommands_1 : ∃ (s : State) (c : Nat), (Asked s c 0x0501 (len 4)) ∧ (rdy s rKS = true) ∧ (fitted s (asks s c 0 1) = true) :=
  ⟨ask 7 0x0501 [23, 0, 0, 0] up, 7, by decide +kernel⟩

theorem test_PortCommands_2 : ∃ (s : State) (c : Nat), (Asked s c 0x0501 (len 4)) ∧ (rdy s rKS = true) ∧ (asks s c 0 1 = 0xFF) :=
  ⟨ask 7 0x0501 [0xFF, 0, 0, 0] up, 7, by decide +kernel⟩

theorem test_PortCommands_3 : ∃ (s : State) (c : Nat) (p : Nat), (Asked s c 0x0502 (len 4)) ∧ (asks s c 0 1 = p) ∧ (p < s.ports.length) ∧ (fitted s p = true) ∧ (rdy s p = true) ∧ (asks s c 1 1 ≤ 2) ∧ ((asks s c 1 1 = 1 → hlcAllowed s p = true ∧ ((getPort s p).hs.cpMode = 0 → portOn s p = false))) :=
  ⟨ask 7 0x0502 [23, 2, 0, 0] up, 7, 23, by decide +kernel⟩

theorem test_PortCommands_4 : ∃ (s : State) (c : Nat) (p : Nat), (Asked s c 0x0503 (len 4)) ∧ (asks s c 0 1 = p) ∧ (p < s.ports.length) ∧ (fitted s p = true) ∧ (rdy s rKS = true) ∧ (asks s c 1 1 = 1) :=
  ⟨ask 7 0x0503 [23, 1, 0, 0] (at23 (fun q => { q with hs := { q.hs with avail := false } }) up), 7, 23, by decide +kernel⟩

theorem test_PortCommands_5 : ∃ (s : State) (c : Nat) (p : Nat), (Asked s c 0x0503 (len 4)) ∧ (asks s c 0 1 = p) ∧ (p < s.ports.length) ∧ (fitted s p = true) ∧ (rdy s rKS = true) ∧ (asks s c 1 1 = 0) ∧ (portOn s p = false) :=
  ⟨ask 7 0x0503 [23, 0, 0, 0] (at23 (fun q => { q with hs := { q.hs with permit := true } }) up), 7, 23, by decide +kernel⟩

theorem test_PortCommands_6 : ∃ (s : State) (c : Nat) (p : Nat), (Asked s c 0x0503 (len 4)) ∧ (asks s c 0 1 = p) ∧ (fitted s p = true) ∧ (rdy s rKS = true) ∧ (asks s c 1 1 = 0) ∧ (portOn s p = true) :=
  ⟨ask 7 0x0503 [23, 0, 0, 0] (at23 (fun q => { q with ct := { q.ct with cls := true } }) up), 7, 23, by decide +kernel⟩

theorem test_PortCommands_7 : ∃ (s : State) (c : Nat) (p : Nat) (a : Nat), (Asked s c 0x0504 (len 4)) ∧ (asks s c 0 1 = p) ∧ (asks s c 1 1 = a) ∧ (a ≤ 1) ∧ (p < s.ports.length) ∧ (fitted s p = true) ∧ (isSocket s p = true) ∧ (rdy s p = true) ∧ (rdy s rLS = true) ∧ ((a = 1 → 3 ≤ (getPort s p).hs.st ∧ (getPort s p).hs.st ≤ 8)) :=
  ⟨ask 7 0x0504 [23, 1, 0, 0] (at23 (fun q => { q with hs := { q.hs with st := 8 } }) sock), 7, 23, 1, by decide +kernel⟩

theorem test_PortCommands_8 : ∃ (s : State) (c : Nat) (p : Nat), (Asked s c 0x0505 (len 4)) ∧ (asks s c 0 1 = p) ∧ (p < s.ports.length) ∧ (fitted s p = true) ∧ (rdy s p = true) ∧ ((getPort s p).hs.wake = none) ∧ ((getPort s p).hs.st = 3 ∨ (getPort s p).hs.st = 4) ∧ (portOn s p = false) :=
  ⟨ask 7 0x0505 [23, 0, 0, 0] (at23 (fun q => { q with hs := { q.hs with st := 4 } }) up), 7, 23, by decide +kernel⟩

theorem test_PilotEvents_1 : ∃ (s : State) (p : Nat), (p < 24) ∧ (p < s.ports.length) ∧ ((getPort s p).hs.edgeDue = true) ∧ (tickRun s = true) :=
  ⟨at23 (fun q => { q with hs := { q.hs with edgeDue := true, mode := 1, duty := 500 } }) up, 23, by decide +kernel⟩

theorem test_PilotEvents_2 : ∃ (s : State) (p : Nat) (k : Nat), (p < 24) ∧ (p < s.ports.length) ∧ ((getPort s p).hs.endDue = true) ∧ ((getPort s p).hs.seen = true) ∧ ((getPort s p).hs.fresh = false) ∧ (classify s p (getPort s p).hs.past.mode (meanCode (getPort s p).hs.done.1 (getPort s p).hs.done.2.1) (meanCode (getPort s p).hs.done.2.2.1 (getPort s p).hs.done.2.2.2) = (k, false)) ∧ (k ≠ 0) ∧ (tickRun s = true) :=
  ⟨at23 (fun q => { q with hs := { q.hs with endDue := true, seen := true, st := 3, done := (32000, 10, 0, 0), prev := { mode := 0 } } }) up, 23, 2, by decide +kernel⟩

theorem test_PilotEvents_3 : ∃ (s : State) (p : Nat) (c : Nat), (p < 24) ∧ (p < s.ports.length) ∧ ((getPort s p).hs.due = some c) ∧ (tickRun s = true) :=
  ⟨at23 (fun q => { q with hs := { q.hs with due := some 9, permit := true }, ct := { q.ct with chs := true, cls := true, stage := 4 } }) up, 23, 9, by decide +kernel⟩

theorem test_PilotEvents_4 : ∃ (s : State) (p : Nat), (p < 24) ∧ (p < s.ports.length) ∧ ((getPort s p).hs.ppDue = true) ∧ (isSocket s p = true) ∧ (tickRun s = true) :=
  ⟨at23 (fun q => { q with hs := { q.hs with ppDue := true, ppBand := 8, permit := true }, ct := { q.ct with chs := true } }) sock, 23, by decide +kernel⟩

theorem test_PilotEvents_5 : ∃ (s : State) (p : Nat), (p < 24) ∧ (p < s.ports.length) ∧ (3 ≤ (getPort s p).hs.st) ∧ ((getPort s p).hs.st ≤ 8) ∧ ((getPort s p).hs.cur.mode = 1) ∧ (cpTab s p 38 2 ≤ (getPort s p).hs.noLow) ∧ ((getPort s p).hs.probe = false) ∧ ((getPort s p).hs.probeAt = none) ∧ (tickRun s = true) :=
  ⟨at23 (fun q => { q with hs := { q.hs with st := 8, cur := { mode := 1 }, noLow := 1000 } }) up, 23, by decide +kernel⟩

theorem test_PilotEvents_6 : ∃ (s : State) (p : Nat) (a : Nat) (b : Nat), (p < s.ports.length) ∧ ((getPort s p).hs.wake = some (a, b)) ∧ (b ≤ now s) ∧ (tickRun s = true) :=
  ⟨at23 (fun q => { q with hs := { q.hs with wake := some (1, 1000003) } }) up, 23, 1, 1000003, by decide +kernel⟩

theorem test_PilotEvents_7 : ∃ (s : State) (p : Nat), (p < s.ports.length) ∧ (overPhases s p ≠ []) ∧ (portOn s p = true) ∧ ((getPort s p).ss.stage ≠ 1) ∧ ((getPort s p).ss.stage ≠ 2) ∧ (tickRun s = true) :=
  ⟨at23 (fun q => { q with hs := { q.hs with overN := [0, 0, 250] }, ct := { q.ct with chs := true } }) up, 23, by decide +kernel⟩

theorem test_LockEvents_1 : ∃ (s : State) (p : Nat), (p < 24) ∧ (p < s.ports.length) ∧ ((getPort s p).hs.lockReq = true) ∧ (isSocket s p = true) ∧ ((getPort s p).hs.lock = 0) ∧ (lsRole s (lockCh s p) = 4) ∧ ((getLs s (lockCh s p)).latched = false) ∧ (lsFenced s (lockCh s p) = false) ∧ (declaredWith s (lockCh s p) ≤ 4000) ∧ (lockCh s p < s.ls.chans.length) ∧ (lsBoth s (lockCh s p) = [lockCh s p]) ∧ (tickRun s = true) :=
  ⟨at23 (fun q => { q with hs := { q.hs with lockReq := true } }) sock, 23, by decide +kernel⟩

theorem test_LockEvents_2 : ∃ (s : State) (p : Nat), (p < s.ports.length) ∧ ((getPort s p).hs.lock = 1) ∧ ((getPort s p).hs.lockPct = 100) ∧ ((getPort s p).hs.lockAt + 8 * tf s 0x4502 242 2 ≤ now s) ∧ (tickRun s = true) :=
  ⟨at23 (fun q => { q with hs := { q.hs with lock := 1, lockPct := 100, lockAt := 1000003 - 2400 } }) sock, 23, by decide +kernel⟩

theorem test_LockEvents_3 : ∃ (s : State) (p : Nat), (p < 24) ∧ (p < s.ports.length) ∧ ((getPort s p).hs.lock = 1) ∧ (10 ≤ (getPort s p).hs.lockGood) ∧ ((getPort s p).hs.lockAt + 8 * tf s 0x4502 242 2 ≤ now s) ∧ (tickRun s = true) :=
  ⟨at23 (fun q => { q with hs := { q.hs with lock := 1, lockGood := 10, lockAt := 1000003 - 2400 } }) sock, 23, by decide +kernel⟩

theorem test_LockEvents_4 : ∃ (s : State) (p : Nat), (p < 24) ∧ (p < s.ports.length) ∧ ((getPort s p).hs.lock = 1) ∧ ((getPort s p).hs.lockAt + 8 * (tf s 0x4502 242 2 + 50) ≤ now s) ∧ (tickRun s = true) :=
  ⟨at23 (fun q => { q with hs := { q.hs with lock := 1, lockAt := 1000003 - 2800 } }) sock, 23, by decide +kernel⟩

theorem test_LockEvents_5 : ∃ (s : State) (p : Nat) (b : Bool), (p < 24) ∧ (p < s.ports.length) ∧ ((getPort s p).hs.lock = 2) ∧ ((getLs s (lockCh s p)).sense = 0xFFF ∨ 8 * tf s 0x4502 245 1 ≤ (getPort s p).hs.lockBad ∨ b = true) ∧ (tickRun s = true) :=
  ⟨at23 (fun q => { q with hs := { q.hs with lock := 2, lockBad := 400 }, ct := { q.ct with chs := true } }) sock, 23, false, by decide +kernel⟩

theorem test_LockEvents_6 : ∃ (s : State) (p : Nat), ((getPort s p).ct.welded = true ∨ (getPort s p).ct.mirror = true) :=
  ⟨at23 (fun q => { q with hs := { q.hs with lock := 2, relWait := true }, ct := { q.ct with cfb := 4, welded := true } }) sock, 23, by decide +kernel⟩

theorem test_LockEvents_7 : ∃ (s : State) (p : Nat), (p < 24) ∧ (p < s.ports.length) ∧ ((getPort s p).hs.relWait = true) ∧ ((getPort s p).ct.cfb = 4) ∧ ((getPort s p).ct.welded = false) ∧ ((getPort s p).ct.mirror = false) ∧ ((getPort s p).hs.lock = 2) ∧ (tickRun s = true) :=
  ⟨at23 (fun q => { q with hs := { q.hs with lock := 2, relWait := true }, ct := { q.ct with cfb := 4 } }) sock, 23, by decide +kernel⟩

theorem test_ClosingSequence_1 : ∃ (s : State) (p : Nat), (p < s.ports.length) ∧ (mayClose s p = true) ∧ ((getPort s p).ct.retry = none) ∧ (ksRun s = true) :=
  ⟨at23 (fun q => { q with hs := { q.hs with req := true }, ct := { q.ct with cfb := 4 } }) up, 23, by decide +kernel⟩

theorem test_ClosingSequence_2 : ∃ (s : State) (p : Nat), (p < s.ports.length) ∧ ((getPort s p).ct.stage = 1) ∧ (512 ≤ (getPort s p).ct.stepN) ∧ (portFenced s p = false) ∧ (plausOk s p (getPort s p).rc = true) ∧ (ksRun s = true) :=
  ⟨at23 (fun q => { q with ct := { q.ct with stage := 1, stepN := 512 }, rc := { q.rc with win := (List.range 512).map fun i => if i % 2 == 0 then 1000 else -1000 } }) up, 23, by decide +kernel⟩

theorem test_ClosingSequence_3 : ∃ (s : State) (p : Nat), (p < s.ports.length) ∧ ((getPort s p).ct.stage = 1) ∧ (512 ≤ (getPort s p).ct.stepN) ∧ (portFenced s p = false) ∧ (plausOk s p (getPort s p).rc = false) ∧ ((getPort s p).ct.plausN < 2) ∧ (ksRun s = true) :=
  ⟨at23 (fun q => { q with ct := { q.ct with stage := 1, stepN := 512, plausN := 1 } }) up, 23, by decide +kernel⟩

theorem test_ClosingSequence_4 : ∃ (s : State) (p : Nat) (n : Nat), (p < s.ports.length) ∧ ((getPort s p).ct.stage = 2) ∧ ((getPort s p).ct.stepBad = false) ∧ (stopping (getPort s p) = false) ∧ (portFenced s p = false ∨ n ≤ 5) ∧ ((getPort s p).ct.step = n) ∧ (2 ≤ n) ∧ (n ≤ 6) ∧ (stepLen s p n ≤ (getPort s p).ct.stepN) ∧ (ksRun s = true) :=
  ⟨at23 (fun q => { q with ct := { q.ct with stage := 2, step := 6, stepN := 32 } }) up, 23, 6, by decide +kernel⟩

theorem test_ClosingSequence_5 : ∃ (s : State) (p : Nat), (p < 24) ∧ (p < s.ports.length) ∧ ((getPort s p).ct.stage = 2) ∧ ((getPort s p).ct.stepBad = true) ∧ (stopping (getPort s p) = false) ∧ (ksRun s = true) :=
  ⟨at23 (fun q => { q with hs := { q.hs with permit := true }, ct := { q.ct with stage := 2, step := 3, cls := true, stepBad := true } }) up, 23, by decide +kernel⟩

theorem test_ClosingSequence_6 : ∃ (s : State) (p : Nat), (p < s.ports.length) ∧ ((getPort s p).ct.stage = 3) ∧ (8 * rcTab s p 56 2 ≤ (getPort s p).ct.stepN) ∧ ((getPort s p).ct.cfb = 3) ∧ (ksRun s = true) :=
  ⟨at23 (fun q => { q with ct := { q.ct with stage := 3, stepN := 1200, cfb := 3 } }) up, 23, by decide +kernel⟩

theorem test_ClosingSequence_7 : ∃ (s : State) (p : Nat), (p < s.ports.length) ∧ ((getPort s p).ct.stage = 3) ∧ (8 * rcTab s p 56 2 ≤ (getPort s p).ct.stepN) ∧ ((getPort s p).ct.cfb ≠ 3) ∧ ((getPort s p).ct.closeN + 1 < rcTab s p 72 1) ∧ (ksRun s = true) :=
  ⟨at23 (fun q => { q with ct := { q.ct with stage := 3, stepN := 1200, cfb := 4, chs := true, cls := true, closeN := 1 } }) up, 23, by decide +kernel⟩

theorem test_ClosingSequence_8 : ∃ (s : State) (p : Nat) (n : Nat), (p < s.ports.length) ∧ ((getPort s p).ct.retry = some n) ∧ (n ≤ now s) ∧ (mayClose s p = true) ∧ (ksRun s = true) :=
  ⟨at23 (fun q => { q with hs := { q.hs with req := true }, ct := { q.ct with cfb := 4, retry := some 1000003 } }) up, 23, 1000003, by decide +kernel⟩

theorem test_ClosingSequence_9 : ∃ (s : State) (p : Nat) (n : Nat), ((getPort s p).ct.retry = some n) ∧ (now s < n) :=
  ⟨at23 (fun q => { q with ct := { q.ct with retry := some 1000004 } }) up, 23, 1000004, by decide +kernel⟩

theorem test_ContactorFaults_1 : ∃ (s : State) (p : Nat) (k : Nat), (p < s.ports.length) ∧ (newTrips s p (getPort s p).rc = [k]) ∧ ((getPort s p).rc.first = false) ∧ (portOn s p = true) ∧ ((getPort s p).ss.stage ≠ 2) ∧ (ksRun s = true) :=
  ⟨at23 (fun q => { q with ct := { q.ct with chs := true, cls := true, stage := 4 }, rc := { q.rc with armed := true, cnt := [0, 0, 0, 0, 0, 0, 40, 0] } }) up, 23, 6, by decide +kernel⟩

theorem test_ContactorFaults_2 : ∃ (s : State) (p : Nat) (d : Nat), (p < 24) ∧ (p < s.ports.length) ∧ ((getPort s p).ct.pulse = 0) ∧ ((getPort s p).ct.stage = 4) ∧ ((getPort s p).ct.chs = true) ∧ ((getPort s p).ct.cls = true) ∧ ((getPort s p).ss.stage ≠ 2) ∧ (pulseSide s p = some d) ∧ ((getPort s p).hs.reqOff ≠ some (now s)) ∧ (ksRun s = true) :=
  ⟨{ at23 (fun q => { q with ct := { q.ct with chs := true, cls := true, stage := 4 } }) up with clk := { up.clk with tick := 800046 } }, 23, 1, by decide +kernel⟩

theorem test_ContactorFaults_3 : ∃ (s : State) (p : Nat) (d : Nat), (p < 24) ∧ (p < s.ports.length) ∧ ((getPort s p).ct.pulse = 0) ∧ ((getPort s p).ct.stage = 4) ∧ ((getPort s p).ct.chs = true) ∧ ((getPort s p).ct.cls = true) ∧ ((getPort s p).ss.stage ≠ 2) ∧ (pulseSide s p = some d) ∧ ((getPort s p).hs.reqOff = some (now s)) ∧ (ksRun s = true) :=
  ⟨{ at23 (fun q => { q with hs := { q.hs with reqOff := some 800046 }, ct := { q.ct with chs := true, cls := true, stage := 4 } }) up with clk := { up.clk with tick := 800046 } }, 23, 1, by decide +kernel⟩

theorem test_ContactorFaults_4 : ∃ (s : State) (p : Nat), (p < s.ports.length) ∧ ((getPort s p).ct.pulse = 1) ∧ ((getPort s p).ct.pulseDue = true) ∧ (3 ≤ (getPort s p).ct.pulseQ.length) ∧ ((∀ v ∈ (getPort s p).ct.pulseQ, v = 1)) ∧ ((∀ v ∈ (getPort s p).ct.pulseAfter, v = 3)) ∧ (ksRun s = true) :=
  ⟨at23 (fun q => { q with ct := { q.ct with chs := true, cls := true, stage := 4, pulse := 1, pulseDue := true, pulseQ := [1, 1, 1], pulseAfter := [3] } }) up, 23, by decide +kernel⟩

theorem test_ContactorFaults_5 : ∃ (s : State) (p : Nat), (p < s.ports.length) ∧ ((getPort s p).ct.pulse = 1) ∧ ((getPort s p).ct.pulseDue = true) ∧ (0 < (getPort s p).ct.pulseQ.length) ∧ ((∀ v ∈ (getPort s p).ct.pulseQ, v = 3)) ∧ ((getPort s p).ct.pulseAfter = []) ∧ ((getPort s p).ct.vFault = false) ∧ (portOn s p = true) ∧ ((getPort s p).ss.stage ≠ 2) ∧ (ksRun s = true) :=
  ⟨at23 (fun q => { q with ct := { q.ct with chs := true, cls := true, stage := 4, pulse := 1, pulseDue := true, pulseQ := [3] } }) up, 23, by decide +kernel⟩

theorem test_ContactorFaults_6 : ∃ (s : State) (p : Nat), (p < 24) ∧ (p < s.ports.length) ∧ ((getPort s p).ct.stage = 4) ∧ (portOn s p = true) ∧ ((getPort s p).ct.cfb = 0 ∨ ((getPort s p).ct.cfb ≤ 2 ∧ (getPort s p).ct.pulse = 0)) ∧ ((getPort s p).ss.stage = 0) ∧ (ksRun s = true) :=
  ⟨at23 (fun q => { q with ct := { q.ct with chs := true, cls := true, stage := 4, cfb := 0, cfbHist := List.replicate 4 0 } }) up, 23, by decide +kernel⟩

theorem test_ContactorFaults_7 : ∃ (s : State) (p : Nat), (p < 24) ∧ (p < s.ports.length) ∧ (portOn s p = false) ∧ ((getPort s p).ct.cmdTick + 8 * rcTab s p 58 2 ≤ now s) ∧ ((getPort s p).ct.welded = false) ∧ ((∃ k ∈ (getPort s p).ct.weldN, rcTab s p 70 1 ≤ k)) ∧ ((getPort s p).ss.stage ≠ 2) ∧ (ksRun s = true) :=
  ⟨at23 (fun q => { q with hs := { q.hs with permit := true }, ct := { q.ct with weldN := [0, 0, 3] } }) up, 23, by decide +kernel⟩

theorem test_ContactorFaults_8 : ∃ (s : State) (p : Nat) (n : Nat), (p < s.ports.length) ∧ ((getPort s p).ct.opening = some n) ∧ (allLow s p = true) ∧ (ksRun s = true) :=
  ⟨opening7 1000003, 23, 1000003, by decide +kernel, by decide +kernel, opening7_low 1000003, by decide +kernel⟩

theorem test_ContactorFaults_9 : ∃ (s : State) (p : Nat) (n : Nat), (p < s.ports.length) ∧ ((getPort s p).ct.opening = some n) ∧ (n + 8 * rcTab s p 66 2 ≤ now s) ∧ (ksRun s = true) :=
  ⟨at23 (fun q => { q with ct := { q.ct with chs := true, cls := true, stage := 5, opening := some 999203 } }) up, 23, 999203, by decide +kernel⟩

theorem test_ContactorFaults_10 : ∃ (s : State) (p : Nat), ((getPort s p).ct.opening = none) :=
  ⟨up, 23, by decide +kernel⟩

theorem test_ResidualCommands_1 : ∃ (s : State) (c : Nat), (Asked s c 0x0701 (len 4)) ∧ (rdy s rKS = true) ∧ (fitted s (asks s c 0 1) = true) :=
  ⟨ask 7 0x0701 [23, 0, 0, 0] up, 7, by decide +kernel⟩

theorem test_ResidualCommands_2 : ∃ (s : State) (c : Nat) (p : Nat), (Asked s c 0x0702 (len 4)) ∧ (asks s c 0 1 = p) ∧ (p < s.ports.length) ∧ (fitted s p = true) ∧ (rdy s rKS = true) ∧ ((getPort s p).rc.trip ≠ 0) ∧ ((getPort s p).rc.clearing = false) ∧ ((clears24 s (getPort s p).rc).length < rcTab s p 49 1) ∧ (80000 ≤ (getPort s p).rc.calm) :=
  ⟨ask 7 0x0702 [23, 0, 0, 0] (at23 (fun q => { q with rc := { q.rc with trip := 2, calm := 80000, clears := [5, 4] } }) up), 7, 23, by decide +kernel⟩

theorem test_ResidualCommands_3 : ∃ (s : State) (c : Nat) (p : Nat), (Asked s c 0x0702 (len 4)) ∧ (asks s c 0 1 = p) ∧ (fitted s p = true) ∧ (rdy s rKS = true) ∧ ((getPort s p).rc.trip = 0 ∨ (getPort s p).rc.clearing = true) :=
  ⟨ask 7 0x0702 [23, 0, 0, 0] up, 7, 23, by decide +kernel⟩

theorem test_ResidualCommands_4 : ∃ (s : State) (c : Nat) (p : Nat), (Asked s c 0x0702 (len 4)) ∧ (asks s c 0 1 = p) ∧ (fitted s p = true) ∧ (rdy s rKS = true) ∧ ((getPort s p).rc.trip ≠ 0) ∧ ((getPort s p).rc.clearing = false) ∧ ((clears24 s (getPort s p).rc).length < rcTab s p 49 1) ∧ ((getPort s p).rc.calm < 80000) :=
  ⟨ask 7 0x0702 [23, 0, 0, 0] (at23 (fun q => { q with rc := { q.rc with trip := 2, calm := 79999, clears := [5, 4] } }) up), 7, 23, by decide +kernel⟩

theorem test_ResidualCommands_5 : ∃ (s : State) (c : Nat) (p : Nat), (Asked s c 0x0702 (len 4)) ∧ (asks s c 0 1 = p) ∧ (fitted s p = true) ∧ (rdy s rKS = true) ∧ ((getPort s p).rc.trip ≠ 0) ∧ ((getPort s p).rc.clearing = false) ∧ (rcTab s p 49 1 ≤ (clears24 s (getPort s p).rc).length) :=
  ⟨ask 7 0x0702 [23, 0, 0, 0] (at23 (fun q => { q with rc := { q.rc with trip := 2, calm := 80000, clears := [5, 4, 3] } }) up), 7, 23, by decide +kernel⟩

theorem test_SafeStops_1 : ∃ (s : State) (c : Nat), (Asked s c 0x0801 (len 8)) ∧ (rdy s rKS = true) ∧ (asks s c 0 4 < 2 ^ 24) ∧ (24 ≤ s.ports.length) ∧ ((∀ p, p < 24 → (asks s c 0 4).testBit p = true → fitted s p = true)) :=
  ⟨ask 7 0x0801 [1, 0, 0x80, 0, 0, 0, 0, 0] (at23 (fun q => { q with ct := { q.ct with chs := true, stage := 4 } }) (updPort 0 (fun q => { q with hs := { q.hs with permit := true } }) up)), 7, by decide +kernel⟩

theorem test_SafeStops_2 : ∃ (s : State) (c : Nat), (Asked s c 0x0801 (len 8)) ∧ (rdy s rKS = true) ∧ (asks s c 0 4 < 2 ^ 24) ∧ ((∃ p, p < 24 ∧ (asks s c 0 4).testBit p = true ∧ fitted s p = false)) :=
  ⟨ask 7 0x0801 [0, 0, 0x80, 0, 0, 0, 0, 0] { up with tabs := { installed := [⟨0x4301, 1, zeros 120, 0⟩] } }, 7, by decide +kernel⟩

theorem test_SafeStops_3 : ∃ (s : State) (c : Nat), (Asked s c 0x0802 (len 0)) ∧ (rdy s rKS = true ∨ scanWithholds s = true) :=
  ⟨ask 7 0x0802 [] up, 7, by decide +kernel⟩

theorem test_SafeStops_4 : ∃ (s : State) (p : Nat), (p < s.ports.length) ∧ ((getPort s p).ss.stage = 1) ∧ ((getPort s p).ss.start < now s) ∧ (fld (getPort s p).ss.tbl 65 1 ≤ (getPort s p).ss.low ∨ fld (getPort s p).ss.tbl 64 1 ≤ (getPort s p).ss.overN ∨ 8 * deadlineMs s ≤ (getPort s p).ss.ticks) ∧ (ksRun s = true) :=
  ⟨at23 (fun q => { q with ct := { q.ct with chs := true, cls := true, stage := 4 }, ss := { q.ss with stage := 1, cause := 5, start := 1000002, overN := 80, tbl := def4801 } }) up, 23, by decide +kernel⟩

theorem test_SafeStops_5 : ∃ (s : State) (p : Nat), ((getPort s p).ss.stage ≠ 1) :=
  ⟨up, 23, by decide +kernel⟩

theorem test_SafeStops_6 : ∃ (s : State) (p : Nat), (p < 24) ∧ (p < s.ports.length) ∧ ((getPort s p).ss.stage = 2) ∧ (portSafe s p = true) ∧ (ksRun s = true) :=
  ⟨at23 (fun q => { q with hs := { q.hs with permit := true }, ct := { q.ct with stage := 6, cfb := 4, cfbN := 8, cmdTick := 999523 }, ss := { q.ss with stage := 2, cause := 5, override := some 0 } }) up, 23, by decide +kernel⟩

theorem test_SafeStops_7 : ∃ (s : State) (p : Nat) (c : Nat) (d : Nat) (r : Bool), (p < 24) ∧ (p < s.ports.length) ∧ ((getPort s p).ss.stage = 2) ∧ (portSafe s p = true) ∧ ((getPort s p).ss.fence = some (c, d, r)) ∧ (ksRun s = true) :=
  ⟨at23 (fun q => { q with hs := { q.hs with permit := true }, ct := { q.ct with stage := 6, cfb := 4, cfbN := 8, cmdTick := 999523 }, ss := { q.ss with stage := 2, cause := 5, fence := some (1, 9, false) } }) up, 23, 1, 9, false, by decide +kernel⟩

theorem test_SafeStops_8 : ∃ (s : State) (p : Nat), ((getPort s p).ss.stage ≠ 2) :=
  ⟨up, 23, by decide +kernel⟩

theorem test_SafetyInputs_1 : ∃ (s : State), (rdy s rKS = true) ∧ (sinDemand s = true) ∧ (s.safety.sin.taken = false) ∧ (24 ≤ s.ports.length) ∧ ((∀ p, p < 24 → (getPort s p).ss.stage ≠ 2)) ∧ (ksRun s = true) :=
  ⟨at23 (fun q => { q with hs := { q.hs with permit := true }, ct := { q.ct with chs := true, cls := true, stage := 4 } }) up, by decide +kernel⟩

theorem test_SafetyInputs_2 : ∃ (s : State), (rdy s rKS = true) ∧ (ssrDemand s = true) ∧ (s.safety.ssr.taken = false) ∧ (24 ≤ s.ports.length) ∧ (ksRun s = true) :=
  ⟨at23 (fun q => { q with hs := { q.hs with permit := true }, ct := { q.ct with chs := true, cls := true, stage := 4 } }) up, by decide +kernel⟩

theorem test_SafetyInputs_3 : ∃ (s : State) (r : Bool), (inFitted s r = true) ∧ ((getIn s r).okDue = true) ∧ (ksRun s = true) :=
  ⟨{ up with safety := { up.safety with ssr := { okDue := true } } }, true, by decide +kernel⟩

theorem test_SafetyInputs_4 : ∃ (s : State) (r : Bool), (inFitted s r = true) ∧ ((getIn s r).a.on ≠ (getIn s r).b.on) ∧ ((getIn s r).dis = false) ∧ (discTicks s ≤ (getIn s r).disN) ∧ (ksRun s = true) :=
  ⟨{ up with safety := { up.safety with sin := { b := { on := false }, disN := 800 } } }, false, by decide +kernel⟩

theorem test_SafetyInputs_5 : ∃ (s : State) (r : Bool) (n : Nat), ((getIn s r).since = some n) ∧ (n + restartTicks s ≤ now s) ∧ ((getIn s r).veto = true) ∧ ((getIn s r).dis = false) ∧ (r = true ∨ sw s 3 = false) ∧ (ksRun s = true) :=
  ⟨{ up with safety := { up.safety with sin := { veto := true, since := some 984003 } } }, false, 984003, by decide +kernel⟩

theorem test_SafetyInputs_6 : ∃ (s : State) (r : Bool), ((getIn s r).since = none) :=
  ⟨up, true, by decide +kernel⟩

theorem test_SafetyInputs_7 : ∃ (s : State), (s.safety.sokFault = false) ∧ (2 ≤ s.safety.sokA ∨ 2 ≤ s.safety.sokB) ∧ (ksRun s = true) :=
  ⟨{ up with safety := { up.safety with sokB := 2, sok := true } }, by decide +kernel⟩

theorem test_SafetyInputs_8 : ∃ (s : State) (w : Nat), (s.safety.wordOk = true) ∧ (s.safety.scanAt + 8000 ≤ now s) ∧ (w < 65536) ∧ (w ≠ s.safety.word) ∧ (s.safety.logged ≠ some w) ∧ (s.cairn.queue = []) ∧ (ksRun s = true) :=
  ⟨{ up with safety := { up.safety with wordOk := true, scanAt := 992003 } }, 0xFFFF, by decide +kernel⟩

theorem test_SafetyInputs_9 : ∃ (s : State) (v : Nat) (w : Nat), (s.safety.wordOk = true) ∧ (s.safety.scanAt + 8000 ≤ now s) ∧ (v < 65536) ∧ (w < 65536) ∧ (v ≠ w) ∧ (s.safety.disSec = 2) ∧ (s.cairn.queue = []) ∧ (ksRun s = true) :=
  ⟨{ up with safety := { up.safety with wordOk := true, scanAt := 992003, disSec := 2 } }, 0xFFFF, 0, by decide +kernel⟩

theorem test_SafetyInputs_10 : ∃ (s : State) (v : Nat) (w : Nat), (s.safety.wordOk = true) ∧ (s.safety.scanAt + 8000 ≤ now s) ∧ (v < 65536) ∧ (w < 65536) ∧ (v ≠ w) ∧ (s.safety.disSec < 2) ∧ (ksRun s = true) :=
  ⟨{ up with safety := { up.safety with wordOk := true, scanAt := 992003, disSec := 1 } }, 0xFFFF, 0, by decide +kernel⟩

theorem test_LintelCommands_1 : ∃ (s : State), (s.lintel.passDue = true) :=
  ⟨{ up with lintel := { up.lintel with passDue := true } }, by decide +kernel⟩

theorem test_LintelCommands_2 : ∃ (s : State) (c : Nat), (s.lintel.passDue = false) ∧ (Asked s c 0x0601 (len 0)) ∧ (rdy s rKS = true) :=
  ⟨ask 7 0x0601 [] up, 7, by decide +kernel⟩

theorem test_LintelCommands_3 : ∃ (s : State) (c : Nat) (p : Nat) (pr : Nat) (hm : Nat), (s.lintel.passDue = false) ∧ (Asked s c 0x0602 (len 4)) ∧ (rdy s rKS = true) ∧ (fitted s p = true) ∧ (p < s.ports.length) ∧ (asks s c 0 1 = p) ∧ (asks s c 1 1 = pr) ∧ (asks s c 2 2 = hm) ∧ (pr ≤ 7 ∨ pr = 0xFF) ∧ (hm ≤ 800 ∨ hm = 0xFFFF) :=
  ⟨ask 7 0x0602 [23, 7, 0x40, 1] up, 7, 23, 7, 320, by decide +kernel⟩

theorem test_LintelCommands_4 : ∃ (s : State) (c : Nat) (p : Nat), (s.lintel.passDue = false) ∧ (Asked s c 0x0602 (len 4)) ∧ (rdy s rKS = true) ∧ (asks s c 0 1 = p) ∧ (p < 24) ∧ (fitted s p = false) ∧ (asks s c 1 1 ≤ 7 ∨ asks s c 1 1 = 0xFF) ∧ (asks s c 2 2 ≤ 800 ∨ asks s c 2 2 = 0xFFFF) :=
  ⟨ask 7 0x0602 [23, 7, 0x40, 1] { up with tabs := { installed := [⟨0x4301, 1, zeros 120, 0⟩] } }, 7, 23, by decide +kernel⟩

theorem test_LintelCommands_5 : ∃ (s : State) (c : Nat), (s.lintel.passDue = false) ∧ (Asked s c 0x0602 (len 4)) ∧ (rdy s rKS = true) ∧ (23 < asks s c 0 1 ∨ (7 < asks s c 1 1 ∧ asks s c 1 1 < 0xFF) ∨ (800 < asks s c 2 2 ∧ asks s c 2 2 < 0xFFFF)) :=
  ⟨ask 7 0x0602 [23, 7, 0x21, 3] up, 7, by decide +kernel⟩

theorem test_FeederProtection_1 : ∃ (s : State), (s.lintel.passDue = true) ∧ (tickRun s = true) :=
  ⟨{ up with lintel := { up.lintel with passDue := true } }, by decide +kernel⟩

theorem test_FeederProtection_2 : ∃ (s : State) (g : Nat) (l : Nat) (k : LineSt), (s.lintel.passDue = false) ∧ (g < 4) ∧ (l < 3) ∧ (3 * g + l < s.lintel.lines.length) ∧ (nth s.lintel.lines (3 * g + l) {} = k) ∧ (k.warn = false) ∧ (1 / 2 ≤ k.acc) ∧ (tickRun s = true) :=
  ⟨{ up with lintel := { up.lintel with lines := up.lintel.lines.set 11 { acc := 1 / 2, meas := 700000 } } }, 3, 2, { acc := 1 / 2, meas := 700000 }, by decide +kernel⟩

theorem test_FeederProtection_3 : ∃ (s : State) (g : Nat) (l : Nat), (s.lintel.passDue = false) ∧ (g < 4) ∧ (l < 3) ∧ (3 * g + l < s.lintel.lines.length) ∧ ((nth s.lintel.lines (3 * g + l) {}).warn = true) ∧ ((nth s.lintel.lines (3 * g + l) {}).acc = 0) ∧ (tickRun s = true) :=
  ⟨{ up with lintel := { up.lintel with lines := up.lintel.lines.set 11 { warn := true, meas := 700000 } } }, 3, 2, by decide +kernel⟩

theorem test_FeederProtection_4 : ∃ (s : State) (g : Nat) (l : Nat), (s.lintel.passDue = false) ∧ ((nth s.lintel.lines (3 * g + l) {}).warn = true) ∧ (0 < (nth s.lintel.lines (3 * g + l) {}).acc) :=
  ⟨{ up with lintel := { up.lintel with lines := up.lintel.lines.set 11 { warn := true, acc := 1 / 4, meas := 700000 } } }, 3, 2, by decide +kernel⟩

theorem test_FeederProtection_5 : ∃ (s : State) (g : Nat) (l : Nat), (s.lintel.passDue = false) ∧ (g < 4) ∧ (l < 3) ∧ (3 * g + l < s.lintel.lines.length) ∧ (s.ports.length = 24) ∧ (1 ≤ (nth s.lintel.lines (3 * g + l) {}).acc) ∧ ((nth s.lintel.lines (3 * g + l) {}).sel = []) ∧ (tickRun s = true) :=
  ⟨{ at23 (fun q => { q with ct := { q.ct with chs := true, cls := true, stage := 4 } }) up with lintel := { up.lintel with lines := up.lintel.lines.set 11 { acc := 1 } } }, 3, 2, by decide +kernel⟩

theorem test_FeederProtection_6 : ∃ (s : State) (g : Nat) (l : Nat), (s.lintel.passDue = false) ∧ ((nth s.lintel.lines (3 * g + l) {}).sel ≠ []) :=
  ⟨{ up with lintel := { up.lintel with lines := up.lintel.lines.set 11 { acc := 1, sel := [23] } } }, 3, 2, by decide +kernel⟩

theorem test_FeederProtection_7 : ∃ (s : State) (p : Nat), (p < s.ports.length) ∧ ((getPort s p).li.hold ≠ 0) ∧ (highCyc s p ≤ da2 ((getPort s p).li.alloc + 10)) ∧ (tickRun s = true) :=
  ⟨at23 (fun q => { q with li := { q.li with alloc := 60, hold := 100 } }) up, 23, by decide +kernel⟩

theorem test_FeederProtection_8 : ∃ (s : State) (p : Nat), (da2 ((getPort s p).li.alloc + 10) < highCyc s p) ∧ ((getPort s p).li.holdEdge = none) :=
  ⟨at23 (fun q => { q with li := { q.li with alloc := 60, hold := 100 } }) (updPh 69 (fun q => { q with vals := some { i2 := 70001 * 70001 } }) up), 23, by decide +kernel⟩

theorem test_FeederProtection_9 : ∃ (s : State) (cls : Nat), (s.lintel.passDue = false) ∧ (rotateS s ≠ 0) ∧ (s.lintel.rotAt + 8000 * rotateS s ≤ now s) ∧ (cls < 8) ∧ (tickRun s = true) :=
  ⟨{ up with tabs := { installed := [⟨0x0601, 1, (def0601.set 198 1).set 199 0, 0⟩] }, lintel := { up.lintel with lastAdm := [none, none, none, none, some 23, none, none, none] } }, 4, by decide +kernel⟩

theorem test_FeederProtection_10 : ∃ (s : State), (s.lintel.passDue = false) ∧ (rotateS s = 0) ∧ (tickRun s = true) :=
  ⟨{ up with tabs := { installed := [⟨0x0601, 1, (def0601.set 198 0).set 199 0, 0⟩] }, lintel := { up.lintel with ptr := List.replicate 8 3 } }, by decide +kernel⟩

theorem test_SiteBudget_1 : ∃ (s : State) (g : List Nat), (s.lintel.due = true) ∧ (budgetRole s = 1) ∧ (s.lintel.grant = some g) ∧ (tickRun s = true) :=
  ⟨{ up with tabs := { installed := [⟨0x4601, 1, def4601.set 115 1, 0⟩] }, lintel := { up.lintel with due := true, grant := some [300, 400, 500], share := [350, 350, 350], mixed := true } }, [300, 400, 500], by decide +kernel⟩

theorem test_SiteBudget_2 : ∃ (s : State), (s.lintel.due = true) ∧ (budgetRole s = 2) ∧ (s.lintel.conflict = 0) ∧ (hubId s ≤ 12) ∧ (0 < hubId s) ∧ (tickRun s = true) :=
  ⟨{ up with tabs := { installed := [⟨0x4601, 1, (def4601.set 115 2).set 120 12, 0⟩] }, lintel := { up.lintel with due := true, demands := (List.replicate 32 (false, [0, 0, 0])).set 3 (true, [7000, 30000, 5]) } }, by decide +kernel⟩

theorem test_SiteBudget_3 : ∃ (s : State), (s.lintel.due = true) ∧ (budgetRole s = 0) ∧ (tickRun s = true) :=
  ⟨{ up with lintel := { up.lintel with due := true } }, by decide +kernel⟩

theorem test_SiteBudget_4 : ∃ (s : State), (s.lintel.due = false) :=
  ⟨up, by decide +kernel⟩

theorem test_SiteBudget_5 : ∃ (s : State), (s.lintel.source ≠ 3) ∧ ((budgetRole s = 1 ∧ 4 ≤ s.lintel.since ∧ (s.lintel.mixed = false ∨ s.lintel.last = none)) ∨ (budgetRole s ≠ 0 ∧ 12 < hubId s) ∨ (budgetRole s = 2 ∧ s.lintel.conflict ≠ 0)) ∧ (tickRun s = true) :=
  ⟨{ up with tabs := { installed := [⟨0x4601, 1, (def4601.set 115 1).set 120 12, 0⟩] }, lintel := { up.lintel with since := 4 } }, by decide +kernel⟩

theorem test_SiteBudget_6 : ∃ (s : State), (budgetRole s = 1) ∧ (hubId s ≤ 12) ∧ (s.lintel.mixed = true) ∧ (s.lintel.last ≠ none) :=
  ⟨{ up with tabs := { installed := [⟨0x4601, 1, (def4601.set 115 1).set 120 12, 0⟩] }, lintel := { up.lintel with since := 4, mixed := true, last := some [1, 2, 3] } }, by decide +kernel⟩

theorem test_SiteBudget_7 : ∃ (s : State), (budgetRole s = 1) ∧ (s.lintel.since < 4) ∧ (hubId s ≤ 12) :=
  ⟨{ up with tabs := { installed := [⟨0x4601, 1, (def4601.set 115 1).set 120 12, 0⟩] }, lintel := { up.lintel with since := 3 } }, by decide +kernel⟩

theorem test_SiteBudget_8 : ∃ (s : State) (e : Nat) (n : Nat), (s.lintel.mixed = true) ∧ (s.lintel.lowHeard = some (e, n)) ∧ (4 ≤ n) ∧ (tickRun s = true) :=
  ⟨{ up with lintel := { up.lintel with mixed := true, lowHeard := some (6, 4) } }, 6, 4, by decide +kernel⟩

theorem test_SiteBudget_9 : ∃ (s : State) (e : Nat) (n : Nat), (s.lintel.lowHeard = some (e, n)) ∧ (n < 4) :=
  ⟨{ up with lintel := { up.lintel with mixed := true, lowHeard := some (6, 3) } }, 6, 3, by decide +kernel⟩

theorem test_LoadSwitchCommands_1 : ∃ (s : State) (c : Nat) (k : Nat) (on : Nat) (lv : Nat), (Asked s c 0x1201 (len 4)) ∧ (rdy s rLS = true) ∧ (asks s c 0 1 = k) ∧ (asks s c 1 1 = on) ∧ (asks s c 2 1 = lv) ∧ (k < 16) ∧ (on ≤ 1) ∧ (lv ≤ 100) ∧ (lsRole s k ≠ 0) ∧ (lsRole s k ≠ 4) ∧ (lsLead s k = k) ∧ (lsFenced s k = false) ∧ (on = 1) ∧ ((getLs s k).latched = false) ∧ (declaredWith s k ≤ 4000) ∧ (s.ls.chans.length = 16) :=
  ⟨ask 7 0x1201 [3, 1, 100, 0] lsUp, 7, 3, 1, 100, by decide +kernel⟩

theorem test_LoadSwitchCommands_2 : ∃ (s : State) (c : Nat) (k : Nat), (Asked s c 0x1201 (len 4)) ∧ (rdy s rLS = true) ∧ (asks s c 0 1 = k) ∧ (asks s c 1 1 = 0) ∧ (asks s c 2 1 ≤ 100) ∧ (k < 16) ∧ (lsRole s k ≠ 0) ∧ (lsRole s k ≠ 4) ∧ (lsLead s k = k) ∧ (lsFenced s k = false) ∧ (s.ls.chans.length = 16) :=
  ⟨ask 7 0x1201 [14, 0, 0, 0] lsUp, 7, 14, by decide +kernel⟩

theorem test_LoadSwitchCommands_3_1 : ∃ (s : State) (c : Nat) (k : Nat), (Asked s c 0x1201 (len 4)) ∧ (rdy s rLS = true) ∧ (asks s c 0 1 = k) ∧ (asks s c 1 1 = 1) ∧ (asks s c 2 1 ≤ 100) ∧ (k < 16) ∧ (lsRole s k ≠ 0) ∧ (lsRole s k ≠ 4) ∧ (lsLead s k = k) ∧ (lsFenced s k = true) :=
  ⟨ask 7 0x1201 [14, 1, 0, 0] (fenceNow 6 15 true 0 0 lsUp), 7, 14, by decide +kernel⟩

theorem test_LoadSwitchCommands_3_2 : ∃ (s : State) (c : Nat) (k : Nat), (Asked s c 0x1201 (len 4)) ∧ (rdy s rLS = true) ∧ (asks s c 0 1 = k) ∧ (asks s c 1 1 = 1) ∧ (asks s c 2 1 ≤ 100) ∧ (k < 16) ∧ (lsRole s k ≠ 0) ∧ (lsRole s k ≠ 4) ∧ (lsLead s k = k) ∧ (lsFenced s k = false) ∧ ((getLs s k).latched = true) :=
  ⟨ask 7 0x1201 [14, 1, 0, 0] { lsUp with ls := { lsUp.ls with chans := lsUp.ls.chans.set 14 { latched := true } } }, 7, 14, by decide +kernel⟩

theorem test_LoadSwitchCommands_3_3 : ∃ (s : State) (c : Nat) (k : Nat), (Asked s c 0x1201 (len 4)) ∧ (rdy s rLS = true) ∧ (asks s c 0 1 = k) ∧ (asks s c 1 1 = 1) ∧ (asks s c 2 1 ≤ 100) ∧ (k < 16) ∧ (lsRole s k ≠ 0) ∧ (lsRole s k ≠ 4) ∧ (lsLead s k = k) ∧ (lsFenced s k = false) ∧ ((getLs s k).latched = false) ∧ (4000 < declaredWith s k) :=
  ⟨ask 7 0x1201 [14, 1, 0, 0] { lsUp with tabs := { installed := [⟨0x1201, 1, ((def1201.set 112 2).set 113 1).set 115 16, 0⟩] } }, 7, 14, by decide +kernel⟩

theorem test_LoadSwitchCommands_4 : ∃ (s : State) (c : Nat) (k : Nat), (Asked s c 0x1201 (len 4)) ∧ (rdy s rLS = true) ∧ (asks s c 0 1 = k) ∧ (asks s c 1 1 ≤ 1) ∧ (asks s c 2 1 ≤ 100) ∧ (k < 16) ∧ (lsRole s k = 0 ∨ lsRole s k = 4 ∨ lsLead s k ≠ k) :=
  ⟨ask 7 0x1201 [15, 1, 0, 0] lsUp, 7, 15, by decide +kernel⟩

theorem test_LoadSwitchCommands_5 : ∃ (s : State) (c : Nat), (Asked s c 0x1202 (len 0)) ∧ (rdy s rLS = true) :=
  ⟨ask 7 0x1202 [] lsUp, 7, by decide +kernel⟩

theorem test_LoadSwitchCommands_6 : ∃ (s : State) (c : Nat) (k : Nat), (Asked s c 0x1203 (len 4)) ∧ (asks s c 0 1 = k) ∧ (k < 16) ∧ (lsFenced s k = false) ∧ ((getLs s k).latched = true) ∧ (s.ls.chans.length = 16) :=
  ⟨ask 7 0x1203 [15, 0, 0, 0] { lsUp with ls := { lsUp.ls with chans := (lsUp.ls.chans.set 14 { latched := true }).set 15 { latched := true } } }, 7, 15, by decide +kernel⟩

theorem test_LoadSwitchCommands_7 : ∃ (s : State) (c : Nat) (k : Nat), (Asked s c 0x1203 (len 4)) ∧ (asks s c 0 1 = k) ∧ (k < 16) ∧ (lsFenced s k = false) ∧ ((getLs s k).latched = false) :=
  ⟨ask 7 0x1203 [15, 0, 0, 0] lsUp, 7, 15, by decide +kernel⟩

theorem test_LoadSwitchCommands_8 : ∃ (s : State) (c : Nat) (k : Nat), (Asked s c 0x1204 (len 4)) ∧ (asks s c 0 1 = k) ∧ (k < 16 ∨ k = 0xFF) :=
  ⟨ask 7 0x1204 [0xFF, 0, 0, 0] lsUp, 7, 0xFF, by decide +kernel⟩

theorem test_LoadSwitchEvents_1 : ∃ (s : State) (c : Nat) (cause : Nat), (c < 16) ∧ ((getLs s c).out = true) ∧ ((getLs s c).latched = false) ∧ (cause = 2 ∨ (cause = 1 ∧ (getLs s c).win = none)) ∧ (s.ls.chans.length = 16) :=
  ⟨{ lsUp with ls := { lsUp.ls with chans := (lsUp.ls.chans.set 14 { out := true }).set 15 { out := true, latches := 255 } } }, 15, 1, by decide +kernel⟩

theorem test_LoadSwitchEvents_2 : ∃ (s : State) (c : Nat), ((getLs s c).win ≠ none) :=
  ⟨{ lsUp with ls := { lsUp.ls with chans := lsUp.ls.chans.set 14 { out := true, win := some 1000004 } } }, 14, by decide +kernel⟩

theorem test_LoadSwitchEvents_3 : ∃ (s : State) (ma : List Nat) (c : Nat) (lim : Nat), (4000 < ma.foldl (· + ·) 0) ∧ (foldChoice s ma = some (c, lim)) ∧ (c < s.ls.chans.length) :=
  ⟨{ lsUp with ls := { lsUp.ls with chans := lsUp.ls.chans.set 15 { out := true } } }, List.replicate 15 0 ++ [4001], 15, 0, by decide +kernel⟩

theorem test_LoadSwitchEvents_4 : ∃ (ma : List Nat), (ma.foldl (· + ·) 0 ≤ 4000) :=
  ⟨List.replicate 15 0 ++ [4000], by decide +kernel⟩

theorem test_LoadSwitchEvents_5 : ∃ (s : State) (sum : Nat), (sum < 3800) ∧ (s.ls.chans.length = 16) :=
  ⟨{ lsUp with ls := { lsUp.ls with chans := lsUp.ls.chans.set 15 { out := true, fold := some 2000 } } }, 3799, by decide +kernel⟩

theorem test_LoadSwitchEvents_6 : ∃ (sum : Nat), (3800 ≤ sum) :=
  ⟨3800, by decide +kernel⟩

theorem test_LoadSwitchEvents_7 : ∃ (s : State) (c : Nat) (e : Nat), (c < s.ls.chans.length) ∧ ((getLs s c).win = some e) ∧ (e ≤ now s) :=
  ⟨{ lsUp with ls := { lsUp.ls with chans := lsUp.ls.chans.set 15 { out := true, win := some 1000003 } } }, 15, 1000003, by decide +kernel⟩

theorem test_LoadSwitchEvents_8 : ∃ (s : State) (c : Nat), (c < 16) ∧ (s.ls.chans.length = 16) ∧ (lsLead s c = c) ∧ (now s % 16 = c) ∧ ((getLs s c).held = false ∨ rdy s rLS = true) ∧ (s.clk.busRun = true) :=
  ⟨{ lsUp with ls := { lsUp.ls with chans := lsUp.ls.chans.set 3 { out := true, level := 40 } } }, 3, by decide +kernel⟩

theorem test_LoadSwitchEvents_9 : ∃ (s : State) (c : Nat), (now s % 16 ≠ c % 16) ∧ (lsLead s c = c) :=
  ⟨lsUp, 4, by decide +kernel⟩

theorem test_LoadSwitchEvents_10 : ∃ (s : State) (c : Nat), (c < 16) ∧ (c < s.ls.chans.length) ∧ (lsFlag s c 2 = true) ∧ ((getLs s c).out = false) ∧ ((getLs s c).latched = false) ∧ (s.clk.busRun = true) :=
  ⟨{ lsUp with ls := { lsUp.ls with chans := lsUp.ls.chans.set 3 { openN := 2 } } }, 3, by decide +kernel⟩

theorem test_LoadSwitchEvents_11 : ∃ (s : State), (s.ls.hold = false) :=
  ⟨{ lsUp with ls := { lsUp.ls with chans := lsUp.ls.chans.set 3 { cmd := true, out := true, win := some 1000100 } } }, by decide +kernel⟩

theorem test_LoadSwitchEvents_12 : ∃ (s : State), (s.ls.hold = true) :=
  ⟨{ lsUp with ls := { lsUp.ls with chans := lsUp.ls.chans.set 15 { cmd := true }, hold := true } }, by decide +kernel⟩

theorem test_LoadSwitchEvents_13 : ∃ (s : State) (c : Nat) (cs : List Nat), (s.ls.resume = c :: cs) ∧ (c ∉ cs) ∧ (s.ls.resumeAt ≤ now s) ∧ (s.ls.hold = false) ∧ (c < 16) ∧ (c < s.ls.chans.length) ∧ ((getLs s c).cmd = true) ∧ ((getLs s c).latched = false) ∧ ((getLs s c).parked = false) ∧ (lsFenced s c = false) :=
  ⟨{ lsUp with ls := { lsUp.ls with chans := lsUp.ls.chans.set 3 { cmd := true }, resume := [3, 15], resumeAt := 1000003 } }, 3, [15], by decide +kernel⟩

theorem test_LoadSwitchEvents_14 : ∃ (s : State) (c : Nat) (d : Nat), (c < 16) ∧ (c < s.ls.chans.length) ∧ ((getLs s c).tested = false) ∧ (fencedB s 6 c = false) ∧ (d ≠ c) ∧ (d < s.ls.chans.length) ∧ ((getLs s d).tested = false) ∧ ((getLs s d).held = false) ∧ (s.clk.busRun = true) :=
  ⟨lsUp, 15, 0, by decide +kernel⟩

theorem test_LoadSwitchEvents_15 : ∃ (s : State) (c : Nat), (c < 16) ∧ ((getLs s c).tested = false) ∧ (fencedB s 6 c = false) ∧ (s.clk.busRun = true) :=
  ⟨lsUp, 15, by decide +kernel⟩

theorem test_LoadSwitchEvents_16 : ∃ (s : State) (c : Nat), (c < 16) ∧ (s.ls.chans.length = 16) ∧ ((getLs s c).tested = false) ∧ (fencedB s 6 c = false) ∧ ((∀ d, d < 16 → d ≠ c → (getLs s d).tested = true ∨ (getLs s d).held = true)) ∧ (s.boot.phase ≠ .reset) ∧ (rdy s rLS = false) ∧ (tabLoaded s 0x1201 = true) ∧ (s.clk.busRun = true) :=
  ⟨{ lsUp with boot := { lsUp.boot with ready := 0 }, tabs := { lsUp.tabs with restored := true }, ls := { lsUp.ls with chans := List.replicate 13 { tested := true } ++ [{ held := true, out := true }, { held := true }, {}] } }, 15, by decide +kernel⟩

theorem test_FenceCommands_1 : ∃ (s : State) (c : Nat) (p : Nat), (Asked s c 0x1501 (len 4)) ∧ (asks s c 0 1 = 0) ∧ (asks s c 1 1 = p) ∧ (asks s c 2 2 = 0) ∧ (p < 24) ∧ (p < s.ports.length) ∧ (rdy s rKS = true) ∧ (anyOn (getPort s p) = true) ∧ (portOn s p = true) ∧ ((getPort s p).ss.stage = 0) :=
  ⟨ask 5 0x1501 [0, 23, 0, 0] (at23 (fun q => { q with ct := { q.ct with chs := true, stage := 4 } }) up), 5, 23, by decide +kernel⟩

theorem test_FenceCommands_2 : ∃ (s : State) (c : Nat) (d : Nat) (i : Nat), (Asked s c 0x1501 (len 4)) ∧ (asks s c 0 1 = d) ∧ (asks s c 1 1 = i) ∧ (asks s c 2 2 = 0) ∧ (d = 5 ∨ d = 7 ∨ d = 8 ∨ d = 9) ∧ (i < fenceCnt d) ∧ (fencedB s d i = false) :=
  ⟨ask 5 0x1501 [9, 3, 0, 0] up, 5, 9, 3, by decide +kernel⟩

theorem test_FenceCommands_3_1 : ∃ (s : State) (c : Nat), (Asked s c 0x1501 (len 4)) ∧ (asks s c 0 1 = 11 ∨ (asks s c 0 1 = 10 ∧ asks s c 1 1 = c)) :=
  ⟨ask 5 0x1501 [10, 5, 0, 0] up, 5, by decide +kernel⟩

theorem test_FenceCommands_3_2 : ∃ (s : State) (c : Nat), (Asked s c 0x1501 (len 4)) ∧ (asks s c 0 1 < 10) ∧ (fenceCnt (asks s c 0 1) ≤ asks s c 1 1) :=
  ⟨ask 5 0x1501 [2, 6, 0, 0] up, 5, by decide +kernel⟩

theorem test_FenceCommands_4 : ∃ (s : State) (c : Nat) (p : Nat), (Asked s c 0x1502 (len 4)) ∧ (asks s c 0 1 = 0) ∧ (asks s c 1 1 = p) ∧ (asks s c 2 2 = 0) ∧ (p < 24) ∧ (p < s.ports.length) ∧ (fencedB s 0 p = true) ∧ (requestedB s 0 p = true) ∧ ((getPort s p).byGroup = false) :=
  ⟨ask 5 0x1502 [0, 23, 0, 0] (fenceNow 0 23 true 0 0 up), 5, 23, by decide +kernel⟩

theorem test_FenceCommands_5_1 : ∃ (s : State) (c : Nat) (d : Nat) (i : Nat), (Asked s c 0x1502 (len 4)) ∧ (asks s c 0 1 = d) ∧ (asks s c 1 1 = i) ∧ (asks s c 2 2 = 0) ∧ (d ≤ 11) ∧ (i < fenceCnt d) ∧ (fencedB s d i = false) :=
  ⟨ask 5 0x1502 [3, 27, 0, 0] up, 5, 3, 27, by decide +kernel⟩

theorem test_FenceCommands_5_2 : ∃ (s : State) (c : Nat) (d : Nat) (i : Nat), (Asked s c 0x1502 (len 4)) ∧ (asks s c 0 1 = d) ∧ (asks s c 1 1 = i) ∧ (asks s c 2 2 = 0) ∧ (d ≤ 11) ∧ (i < fenceCnt d) ∧ (fencedB s d i = true) ∧ (d < 4) ∧ (requestedB s d i = false) :=
  ⟨ask 5 0x1502 [0, 23, 0, 0] (fenceNow 0 23 false 1 9 up), 5, 0, 23, by decide +kernel⟩

theorem test_FenceCommands_5_3 : ∃ (s : State) (c : Nat) (d : Nat) (i : Nat) (ok : Bool), (Asked s c 0x1502 (len 4)) ∧ (asks s c 0 1 = d) ∧ (asks s c 1 1 = i) ∧ (asks s c 2 2 = 0) ∧ (d ≤ 11) ∧ (i < fenceCnt d) ∧ (fencedB s d i = true) ∧ (3 < d) ∧ (ok = false ∨ d = 11) :=
  ⟨ask 5 0x1502 [8, 1, 0, 0] (fenceNow 8 1 true 0 0 up), 5, 8, 1, false, by decide +kernel⟩

theorem test_FenceCommands_6 : ∃ (s : State) (c : Nat), (Asked s c 0x1503 (len 0)) ∧ (rdy s rAP = true) ∧ (s.meter.lanes.map.length = 28) ∧ (s.fences.rows.length = 16) :=
  ⟨ask 7 0x1503 [] up, 7, by decide +kernel⟩

theorem test_FenceCommands_7 : ∃ (s : State) (c : Nat) (cls : Nat), (Asked s c 0x1504 (len 4)) ∧ (rdy s rAP = true) ∧ (asks s c 0 1 = cls) ∧ (cls ≤ 1) ∧ (s.ports.length = 24) :=
  ⟨ask 7 0x1504 [1, 0, 0, 0] (at23 (fun q => { q with life := { q.life with mains := 77 } }) up), 7, 1, by decide +kernel⟩

theorem test_FenceCommands_8 : ∃ (s : State), (s.rtc.valid = true) ∧ (yearOf s.fences.yearStart < yearOf s.rtc.sec) :=
  ⟨up, by decide +kernel⟩

theorem test_FenceCommands_9 : ∃ (s : State), (s.rtc.valid = false) :=
  ⟨{ up with rtc := {} }, by decide +kernel⟩

theorem test_SpareTakeover_1 : ∃ (s : State) (k : Nat), (k < 5) ∧ (s.meter.sars.length = 6) ∧ ((getSar s k).role = 0) ∧ ((getSar s k).carries = k) ∧ (2 ≤ (getSar s k).run) ∧ ((getSar s 5).role = 1) ∧ (fencedB s 2 k = false) ∧ (tickRun s = true) :=
  ⟨{ up with meter := { up.meter with sars := up.meter.sars.modify 4 fun q => { q with run := 2 } } }, 4, by decide +kernel⟩

theorem test_SpareTakeover_2 : ∃ (s : State) (k : Nat), ((getSar s k).run < 2) :=
  ⟨up, 4, by decide +kernel⟩

theorem test_SpareTakeover_3 : ∃ (s : State), (s.meter.sars.length = 6) ∧ ((getSar s 5).role = 1) ∧ ((getSar s 5).carries = 0xFF) ∧ (2 ≤ (getSar s 5).run) ∧ (fencedB s 2 5 = false) ∧ (tickRun s = true) :=
  ⟨{ up with meter := { up.meter with sars := up.meter.sars.modify 5 fun q => { q with run := 2 } } }, by decide +kernel⟩

theorem test_SpareTakeover_4 : ∃ (s : State) (l : Nat) (sp : Nat) (p : Nat), (l < 28) ∧ (sp < 28) ∧ (l ≠ sp) ∧ (s.meter.lanes.map.length = 28) ∧ (s.meter.lanes.withdrawn.length = 28) ∧ (nth s.meter.lanes.map l 0xFF = p) ∧ (p ≠ 0xFF) ∧ (laneFree s sp = true) ∧ (nth s.meter.lanes.shadow sp 0xFF = l) ∧ (fencedB s 3 l = false) ∧ (orRun s = true) :=
  ⟨{ up with meter := { up.meter with lanes := { up.meter.lanes with shadow := up.meter.lanes.shadow.set 27 23 } } }, 23, 27, 23, by decide +kernel⟩

theorem test_SpareTakeover_5 : ∃ (s : State) (l : Nat) (sp : Nat) (p : Nat), (l < 28) ∧ (sp < 28) ∧ (nth s.meter.lanes.map l 0xFF = p) ∧ (p ≠ 0xFF) ∧ (laneFree s sp = true) ∧ (nth s.meter.lanes.shadow sp 0xFF = l) ∧ (orRun s = true) :=
  ⟨{ up with meter := { up.meter with lanes := { up.meter.lanes with shadow := up.meter.lanes.shadow.set 27 23 } } }, 23, 27, 23, by decide +kernel⟩

theorem test_SpareTakeover_6 : ∃ (s : State), (freeLanes s ≠ []) ∧ (activeLanes s ≠ []) ∧ (s.meter.lanes.rotTick + 8000 ≤ now s) ∧ (orRun s = true) :=
  ⟨up, by decide +kernel⟩

theorem test_SpareTakeover_7 : ∃ (s : State) (f : List Nat), (freeLanes s = []) ∧ (s.meter.lanes.rotTick + 8000 ≤ now s) ∧ ((∀ l ∈ activeLanes s, l ∉ f)) ∧ (orRun s = true) :=
  ⟨{ up with meter := { up.meter with lanes := { up.meter.lanes with withdrawn := List.replicate 24 0 ++ [2, 2, 2, 2] } } }, [24, 25], by decide +kernel⟩

theorem test_SpareTakeover_8 : ∃ (s : State) (p : Nat), (p < 24) ∧ (p < s.ports.length) ∧ (portLift s p = true) ∧ (ksRun s = true) :=
  ⟨at23 (fun q => { q with hs := { q.hs with st := 1 }, liftOpen := 80000, liftRuns := 3, ct := { q.ct with welded := true } }) (fenceNow 0 23 false 1 9 up), 23, by decide +kernel⟩

theorem test_SpareTakeover_9 : ∃ (s : State) (p : Nat), (requestedB s 0 p = true) :=
  ⟨fenceNow 0 23 true 0 0 up, 23, by decide +kernel⟩

theorem test_MeterCommands_1 : ∃ (s : State) (c : Nat), (Asked s c 0x0301 (len 0)) ∧ (rdy s rOR = true) ∧ (s.meter.sars.length = 6) ∧ (s.meter.lanes.map.length = 28) ∧ (s.meter.grps.length = 4) ∧ (s.meter.phs.length = 72) :=
  ⟨ask 7 0x0301 [] up, 7, by decide +kernel⟩

theorem test_MeterCommands_2_1 : ∃ (s : State) (c : Nat) (p : Nat) (x : Nat) (m : Nat) (d : Nat), (Asked s c 0x0302 (len 8)) ∧ (asks s c 0 1 = p) ∧ (asks s c 1 1 = x) ∧ (asks s c 2 1 = m) ∧ (asks s c 4 4 = d) ∧ (p ≤ 23) ∧ (x ≤ 3) ∧ (m ≤ 2) ∧ (m = 0 ∨ (1 ≤ d ∧ d ≤ 3600)) ∧ (rdy s p = true) ∧ (sealPort s = true) ∧ (s.meter.phs.length = 72) :=
  ⟨ask 5 0x0302 [23, 3, 2, 0, 0x10, 0x0E, 0, 0] unsealed, 5, 23, 3, 2, 3600, by decide +kernel⟩

theorem test_MeterCommands_2_2 : ∃ (s : State) (c : Nat) (p : Nat) (x : Nat) (m : Nat) (d : Nat), (Asked s c 0x0302 (len 8)) ∧ (asks s c 0 1 = p) ∧ (asks s c 1 1 = x) ∧ (asks s c 2 1 = m) ∧ (asks s c 4 4 = d) ∧ (p ≤ 23) ∧ (x ≤ 3) ∧ (m ≤ 2) ∧ (m = 0 ∨ (1 ≤ d ∧ d ≤ 3600)) ∧ (rdy s p = true) ∧ (sealPort s = false) :=
  ⟨ask 5 0x0302 [23, 0, 0, 0, 0, 0, 0, 0] up, 5, 23, 0, 0, 0, by decide +kernel⟩

theorem test_MeterCommands_3_1 : ∃ (s : State) (c : Nat) (p : Nat) (set : Nat), (Asked s c 0x0303 (len 4)) ∧ (rdy s rOR = true) ∧ (asks s c 0 1 = p) ∧ (asks s c 1 1 = set) ∧ (p ≤ 23) ∧ (set ≤ 1) ∧ (fitted s p = false) :=
  ⟨ask 7 0x0303 [23, 1, 0, 0] { up with tabs := { installed := [⟨0x4301, 1, zeros 120, 0⟩] } }, 7, 23, 1, by decide +kernel⟩

theorem test_MeterCommands_3_2 : ∃ (s : State) (c : Nat) (p : Nat) (set : Nat), (Asked s c 0x0303 (len 4)) ∧ (rdy s rOR = true) ∧ (asks s c 0 1 = p) ∧ (asks s c 1 1 = set) ∧ (p ≤ 23) ∧ (set ≤ 1) ∧ (fitted s p = true) ∧ ((∃ x, x < 3 ∧ (getPh s p x).vals = none)) :=
  ⟨ask 7 0x0303 [23, 0, 0, 0] up, 7, 23, 0, by decide +kernel⟩

theorem test_MeterCommands_3_3 : ∃ (s : State) (c : Nat) (p : Nat) (set : Nat), (Asked s c 0x0303 (len 4)) ∧ (rdy s rOR = true) ∧ (asks s c 0 1 = p) ∧ (asks s c 1 1 = set) ∧ (p ≤ 23) ∧ (set ≤ 1) ∧ (fitted s p = true) ∧ ((∀ x, x < 3 → (getPh s p x).vals ≠ none)) :=
  ⟨ask 7 0x0303 [23, 1, 0, 0] (foldN 3 (fun x s => updPh (69 + x) (fun q => { q with vals := some { i2 := 1600000000 } }) s) up), 7, 23, 1, by decide +kernel⟩

theorem test_MeterCommands_4 : ∃ (s : State) (c : Nat) (g : Nat), (Asked s c 0x0304 (len 4)) ∧ (asks s c 0 1 = g) ∧ (g ≤ 3) ∧ (grpFitted s g = true) ∧ (rdy s (rVG + g) = true) ∧ ((getGrp s g).urms ≠ []) :=
  ⟨ask 7 0x0304 [3, 0, 0, 0] (updGrp 3 (fun q => { q with urms := [0, 0, 0, 0] }) up), 7, 3, by decide +kernel⟩

theorem test_MeterCommands_5 : ∃ (s : State) (c : Nat), (Asked s c 0x0304 (len 4)) ∧ (asks s c 0 1 = 0xFF) ∧ (rdy s rOR = true) :=
  ⟨ask 7 0x0304 [0xFF, 0, 0, 0] up, 7, by decide +kernel⟩

theorem test_MeterCommands_6_1 : ∃ (s : State) (c : Nat) (p : Nat) (h : Nat), (Asked s c 0x0305 (len 4)) ∧ (rdy s rOR = true) ∧ (asks s c 0 1 = p) ∧ (asks s c 1 1 = h) ∧ (p ≤ 23) ∧ (h < 3) ∧ (fitted s p = true) ∧ ((getPh s p h).harm.cycles = 0) :=
  ⟨ask 7 0x0305 [23, 0, 0, 0] up, 7, 23, 0, by decide +kernel⟩

theorem test_MeterCommands_6_2 : ∃ (s : State) (c : Nat) (p : Nat) (h : Nat), (Asked s c 0x0305 (len 4)) ∧ (rdy s rOR = true) ∧ (asks s c 0 1 = p) ∧ (asks s c 1 1 = h) ∧ (p ≤ 23) ∧ (h < 3) ∧ (fitted s p = true) ∧ ((getPh s p h).harm.cycles ≠ 0) :=
  ⟨ask 7 0x0305 [23, 2, 0, 0] (updPh 71 (fun q => { q with harm := { cycles := 10, valid := true } }) up), 7, 23, 2, by decide +kernel⟩

theorem test_MeterCommands_7 : ∃ (s : State) (c : Nat) (p : Nat) (l : Nat), (Asked s c 0x0305 (len 4)) ∧ (rdy s rOR = true) ∧ (asks s c 0 1 = p) ∧ (asks s c 1 1 = 4 + l) ∧ (l < 3) ∧ (fitted s p = true) ∧ ((nth (getGrp s (groupOf s p)).harms l {}).cycles ≠ 0) :=
  ⟨ask 7 0x0305 [23, 6, 0, 0] (updGrp 3 (fun q => { q with harms := [{}, {}, { cycles := 10, valid := true }] }) up), 7, 23, 2, by decide +kernel⟩

theorem test_MeterCommands_8 : ∃ (s : State) (c : Nat) (o : Nat) (p : Nat) (d : Nat), (Asked s c 0x0306 (len 4)) ∧ (rdy s rPulse = true) ∧ (asks s c 0 1 = o) ∧ (asks s c 1 1 = p) ∧ (asks s c 2 1 = d) ∧ (o ≤ 1) ∧ (d ≤ 2) ∧ (fitted s p = true ∨ p = 24 ∨ p = 0xFF) ∧ (o < s.meter.pulses.length) ∧ (s.cairn.queue = []) :=
  ⟨ask 7 0x0306 [1, 23, 2, 0] { up with meter := { up.meter with pulses := [{}, { sel := { source := 3, phase := 1, dir := 2 }, pulses := 17 }] } }, 7, 1, 23, 2, by decide +kernel⟩

theorem test_CycleEnds_1 : ∃ (s : State) (g : Nat) (e : CycEnd), (g < 4) ∧ (g < s.meter.grps.length) ∧ (s.meter.phs.length = 72) ∧ ((getGrp s g).ended = some e) ∧ (e.kind = 0) ∧ (orRun s = true) :=
  ⟨updGrp 3 (fun q => { q with cross := some 1000000, ended := some { tick := 1000161, len := 160, sums := [1, 2, 3, 4] } }) up, 3, { tick := 1000161, len := 160, sums := [1, 2, 3, 4] }, by decide +kernel⟩

theorem test_CycleEnds_2 : ∃ (s : State) (g : Nat) (e : CycEnd), (g < 4) ∧ (g < s.meter.grps.length) ∧ ((getGrp s g).ended = some e) ∧ (e.kind = 1) ∧ (orRun s = true) :=
  ⟨updGrp 3 (fun q => { q with cross := some 1000000, goodN := 4, ended := some { kind := 1, tick := 1000178, len := 178, sums := [1, 2, 3, 4] } }) up, 3, { kind := 1, tick := 1000178, len := 178, sums := [1, 2, 3, 4] }, by decide +kernel⟩

theorem test_CycleEnds_3 : ∃ (s : State) (g : Nat) (e : CycEnd), (g < 4) ∧ (g < s.meter.grps.length) ∧ ((getGrp s g).ended = some e) ∧ (e.kind = 2) ∧ (orRun s = true) :=
  ⟨updGrp 3 (fun q => { q with ended := some { kind := 2, tick := 1000160, len := 160, sums := [1, 2, 3, 4] } }) up, 3, { kind := 2, tick := 1000160, len := 160, sums := [1, 2, 3, 4] }, by decide +kernel⟩

theorem test_CycleEnds_4 : ∃ (s : State) (g : Nat), ((getGrp s g).ended = none) :=
  ⟨up, 3, by decide +kernel⟩

theorem test_CycleEnds_5 : ∃ (s : State) (g : Nat) (w : HWin), (g < s.meter.grps.length) ∧ (s.meter.phs.length = 72) ∧ ((getGrp s g).winDone = some w) ∧ (orRun s = true) :=
  ⟨updGrp 3 (fun q => { q with freq := 550000, winDone := some { cycles := 12, len := 12, sumF := 6600000, lo := 549000, hi := 554000 } }) up, 3, { cycles := 12, len := 12, sumF := 6600000, lo := 549000, hi := 554000 }, by decide +kernel⟩

theorem test_CycleEnds_6 : ∃ (s : State) (g : Nat), ((getGrp s g).winDone = none) :=
  ⟨up, 3, by decide +kernel⟩

theorem test_SupplyAndStreamFaults_1 : ∃ (s : State) (g : Nat) (ev : Nat) (k : SupEv), (g < 4) ∧ (g < s.meter.grps.length) ∧ (s.ports.length = 24) ∧ ((getGrp s g).evs.zipIdx.find? (fun e => e.1.due != 0) = some (k, ev)) ∧ (k.due = 1) ∧ (s.cairn.queue = []) ∧ (orRun s = true) :=
  ⟨at23 (fun q => { q with ct := { q.ct with chs := true, stage := 4 } }) (updGrp 3 (fun q => { q with evs := q.evs.set 6 { due := 1, setN := 3 } }) up), 3, 6, { due := 1, setN := 3 }, by decide +kernel⟩

theorem test_SupplyAndStreamFaults_2 : ∃ (s : State) (g : Nat) (ev : Nat) (k : SupEv), (g < 4) ∧ (g < s.meter.grps.length) ∧ ((getGrp s g).evs.zipIdx.find? (fun e => e.1.due != 0) = some (k, ev)) ∧ (k.due = 2) ∧ (orRun s = true) :=
  ⟨updGrp 3 (fun q => { q with veto := true, evs := q.evs.set 14 { on := true, due := 2, worst := 1200, far := 30 } }) up, 3, 14, { on := true, due := 2, worst := 1200, far := 30 }, by decide +kernel⟩

theorem test_SupplyAndStreamFaults_3 : ∃ (s : State) (g : Nat), ((getGrp s g).evs.zipIdx.find? (fun e => e.1.due != 0) = none) :=
  ⟨up, 3, by decide +kernel⟩

theorem test_SupplyAndStreamFaults_4 : ∃ (s : State) (k : Nat), (k < s.meter.streams.length) ∧ (streamFit s k = true) ∧ (s.clk.xref = true) ∧ ((getStream s k).cond = 0) ∧ (tickRun s = true) :=
  ⟨up, 111, by decide +kernel⟩

theorem test_SupplyAndStreamFaults_5 : ∃ (s : State) (k : Nat) (p : Nat), (k < 96) ∧ (k % 4 ≠ 3) ∧ (k / 4 = p) ∧ (k < s.meter.streams.length) ∧ (p < s.ports.length) ∧ (streamFit s k = true) ∧ (s.clk.xref = true) ∧ ((getStream s k).cond < 2) ∧ (anyOn (getPort s p) = true) ∧ ((getPort s p).ss.stage = 0) ∧ (tickRun s = true) :=
  ⟨at23 (fun q => { q with ct := { q.ct with chs := true, stage := 4 } }) up, 94, 23, by decide +kernel⟩

theorem test_SupplyAndStreamFaults_6 : ∃ (s : State) (k : Nat) (c : Nat), (c ≤ (getStream s k).cond) :=
  ⟨updStream 94 (fun q => { q with cond := 2 }) up, 94, 1, by decide +kernel⟩

theorem test_SupplyAndStreamFaults_7 : ∃ (s : State) (k : Nat), (k < 96) ∧ (k % 4 ≠ 3) ∧ (k < s.meter.streams.length) ∧ (streamFit s k = true) ∧ ((getStream s k).biasDone = false) ∧ (512 ≤ (getStream s k).winTicks) ∧ ((getStream s k).winN ≠ 0) ∧ (tickRun s = true) :=
  ⟨updStream 94 (fun q => { q with winTicks := 512, winN := 512, winSum := 512 * 41944 }) up, 94, by decide +kernel⟩

theorem test_SupplyAndStreamFaults_8 : ∃ (s : State) (k : Nat), (96 ≤ k ∨ ((getStream s k).biasDone = true ∧ k % 4 ≠ 3)) ∧ (k < s.meter.streams.length) ∧ (streamFit s k = true) ∧ (8000 ≤ (getStream s k).winTicks) ∧ ((getStream s k).winN ≠ 0) ∧ (biasOff (getStream s k) = true) ∧ (tickRun s = true) :=
  ⟨updStream 111 (fun q => { q with winTicks := 8000, winN := 7900, winSum := -7900 * 41944, biasBad := 2 }) up, 111, by decide +kernel⟩

theorem test_SupplyAndStreamFaults_9 : ∃ (s : State) (k : Nat) (p : Nat), (k < 96) ∧ (k % 4 ≠ 3) ∧ (k / 4 = p) ∧ (k < s.meter.streams.length) ∧ (p < s.ports.length) ∧ (streamFit s k = true) ∧ ((getStream s k).failed = false) ∧ (8 ≤ (getStream s k).mark) ∧ (anyOn (getPort s p) = true) ∧ ((getPort s p).ss.stage = 0) ∧ (tickRun s = true) :=
  ⟨updStream 94 (fun q => { q with mark := 8 }) (at23 (fun q => { q with ct := { q.ct with chs := true, stage := 4 } }) up), 94, 23, by decide +kernel⟩

theorem test_SupplyAndStreamFaults_10 : ∃ (s : State) (k : Nat), ((getStream s k).mark < 8) ∧ ((getStream s k).biasFail = false) :=
  ⟨up, 94, by decide +kernel⟩

theorem test_CalibrationCommands_1 : ∃ (s : State) (c : Nat) (g : Nat), (Asked s c 0x0401 (len 4)) ∧ (rdy s rOR = true) ∧ (asks s c 0 1 = g) ∧ (0x80 ≤ g) ∧ (g ≤ 0x83) ∧ (grpFitted s (g - 0x80) = true) :=
  ⟨ask 5 0x0401 [0x83, 0, 0, 0] up, 5, 0x83, by decide +kernel⟩

theorem test_CalibrationCommands_2 : ∃ (s : State) (c : Nat) (p : Nat), (Asked s c 0x0401 (len 4)) ∧ (rdy s rOR = true) ∧ (asks s c 0 1 = p) ∧ (p < 24) ∧ (fitted s p = true) :=
  ⟨ask 5 0x0401 [23, 0, 0, 0] up, 5, 23, by decide +kernel⟩

theorem test_CalibrationCommands_3_1 : ∃ (s : State) (c : Nat) (p : Nat) (x : Nat) (k : Nat), (Asked s c 0x0402 (len 32)) ∧ (rdy s rOR = true) ∧ (asks s c 0 1 = p) ∧ (asks s c 1 1 = x) ∧ (asks s c 2 1 = k) ∧ (p < 24) ∧ (x ≤ 2) ∧ (k ≤ 1) ∧ (fitted s p = true) ∧ (sealPort s = false) :=
  ⟨ask 5 0x0402 ([23, 2, 1, 0] ++ unitBlock) up, 5, 23, 2, 1, by decide +kernel⟩

theorem test_CalibrationCommands_3_2 : ∃ (s : State) (c : Nat) (p : Nat) (x : Nat) (k : Nat), (Asked s c 0x0402 (len 32)) ∧ (rdy s rOR = true) ∧ (asks s c 0 1 = p) ∧ (asks s c 1 1 = x) ∧ (asks s c 2 1 = k) ∧ (p < 24) ∧ (x ≤ 2) ∧ (k ≤ 1) ∧ (fitted s p = true) ∧ (sealPort s = true) ∧ ((∃ o, s.cal.owner = some o ∧ o ≠ c)) :=
  ⟨ask 5 0x0402 ([23, 2, 1, 0] ++ unitBlock) { unsealed with cal := { unsealed.cal with owner := some 4 } }, 5, 23, 2, 1, by decide +kernel⟩

theorem test_CalibrationCommands_3_3_1 : ∃ (s : State) (c : Nat) (p : Nat) (x : Nat) (k : Nat), (Asked s c 0x0402 (len 32)) ∧ (rdy s rOR = true) ∧ (asks s c 0 1 = p) ∧ (asks s c 1 1 = x) ∧ (asks s c 2 1 = k) ∧ (p < 24) ∧ (x ≤ 2) ∧ (k ≤ 1) ∧ (fitted s p = true) ∧ (sealPort s = true) ∧ (s.cal.owner = none ∨ s.cal.owner = some c) ∧ (blockIn false (bytesAt (reqPayload s c) 4 28) = false) :=
  ⟨ask 5 0x0402 ([23, 2, 1, 0] ++ zeros 28) unsealed, 5, 23, 2, 1, by decide +kernel⟩

theorem test_CalibrationCommands_3_3_2 : ∃ (s : State) (c : Nat) (p : Nat) (x : Nat) (k : Nat), (Asked s c 0x0402 (len 32)) ∧ (rdy s rOR = true) ∧ (asks s c 0 1 = p) ∧ (asks s c 1 1 = x) ∧ (asks s c 2 1 = k) ∧ (p < 24) ∧ (x ≤ 2) ∧ (k ≤ 1) ∧ (fitted s p = true) ∧ (sealPort s = true) ∧ (s.cal.owner = none ∨ s.cal.owner = some c) ∧ (blockIn false (bytesAt (reqPayload s c) 4 28) = true) :=
  ⟨ask 5 0x0402 ([23, 2, 1, 0] ++ unitBlock) unsealed, 5, 23, 2, 1, by decide +kernel⟩

theorem test_CalibrationCommands_4 : ∃ (s : State) (c : Nat) (g : Nat), (Asked s c 0x0402 (len 32)) ∧ (rdy s rOR = true) ∧ (asks s c 0 1 = 0x80 + g) ∧ (asks s c 1 1 = 0) ∧ (asks s c 2 1 = 0) ∧ (allZero (bytesAt (reqPayload s c) 4 28) 16 12 = true) ∧ (g ≤ 3) ∧ (grpFitted s g = true) ∧ (sealPort s = true) ∧ (s.cal.owner = none ∨ s.cal.owner = some c) ∧ (blockIn true (bytesAt (reqPayload s c) 4 28) = true) :=
  ⟨ask 5 0x0402 ([0x83, 0, 0, 0] ++ q30 ++ q30 ++ q30 ++ q30 ++ zeros 12) unsealed, 5, 3, by decide +kernel⟩

theorem test_CalibrationCommands_5_1 : ∃ (s : State) (c : Nat) (p : Nat), (Asked s c 0x0403 (len 4)) ∧ (rdy s rOR = true) ∧ (asks s c 0 1 = p) ∧ (calTarget p = true) ∧ (sealPort s = true) ∧ (s.cal.owner = some c) ∧ (s.cal.run = none) ∧ ((∃ b ∈ s.cal.blocks, b.target = p)) ∧ (s.boot.pfailN = false) :=
  ⟨ask 5 0x0403 [23, 0, 0, 0] { unsealed with boot := { unsealed.boot with pfailN := false }, cal := { unsealed.cal with owner := some 5, blocks := [⟨23, 0, 0, unitBlock⟩] } }, 5, 23, by decide +kernel⟩

theorem test_CalibrationCommands_5_2 : ∃ (s : State) (c : Nat) (p : Nat), (Asked s c 0x0403 (len 4)) ∧ (rdy s rOR = true) ∧ (asks s c 0 1 = p) ∧ (calTarget p = true) ∧ (sealPort s = true) ∧ (s.cal.owner = some c) ∧ (s.cal.run = none) ∧ ((∃ b ∈ s.cal.blocks, b.target = p)) ∧ (s.boot.pfailN = true) ∧ (s.cairn.queue = []) :=
  ⟨ask 5 0x0403 [23, 0, 0, 0] { unsealed with cal := { unsealed.cal with owner := some 5, blocks := [⟨23, 0, 0, unitBlock⟩, ⟨4, 0, 0, unitBlock⟩] } }, 5, 23, by decide +kernel⟩

theorem test_CalibrationCommands_6 : ∃ (s : State) (c : Nat), (Asked s c 0x0403 (len 4)) ∧ (rdy s rOR = true) ∧ (asks s c 0 1 = 0xFF) ∧ (sealPort s = true) ∧ (s.cal.owner = some c) ∧ (s.cal.run = none) ∧ (stagedTargets s ≠ []) ∧ (s.boot.pfailN = true) :=
  ⟨ask 5 0x0403 [0xFF, 0, 0, 0] { unsealed with cal := { unsealed.cal with owner := some 5, blocks := [⟨23, 0, 0, unitBlock⟩, ⟨4, 0, 0, unitBlock⟩] } }, 5, by decide +kernel⟩

theorem test_CalibrationCommands_7_1 : ∃ (s : State) (c : Nat) (p : Nat), (Asked s c 0x0403 (len 4)) ∧ (rdy s rOR = true) ∧ (asks s c 0 1 = p) ∧ (calTarget p = true ∨ p = 0xFF) ∧ (sealPort s = false) :=
  ⟨ask 5 0x0403 [23, 0, 0, 0] up, 5, 23, by decide +kernel⟩

theorem test_CalibrationCommands_7_2 : ∃ (s : State) (c : Nat) (p : Nat), (Asked s c 0x0403 (len 4)) ∧ (rdy s rOR = true) ∧ (asks s c 0 1 = p) ∧ (calTarget p = true ∨ p = 0xFF) ∧ (sealPort s = true) ∧ ((∃ o, s.cal.owner = some o ∧ o ≠ c) ∨ s.cal.run ≠ none) :=
  ⟨ask 5 0x0403 [23, 0, 0, 0] { unsealed with cal := { unsealed.cal with owner := some 4 } }, 5, 23, by decide +kernel⟩

theorem test_CalibrationCommands_8 : ∃ (s : State) (c : Nat) (p : Nat), (Asked s c 0x0403 (len 4)) ∧ (rdy s rOR = true) ∧ (asks s c 0 1 = p) ∧ (calTarget p = true) ∧ (sealPort s = true) ∧ (s.cal.owner = none) ∧ (s.cal.run = none) ∧ ((∀ b ∈ s.cal.blocks, b.target ≠ p)) :=
  ⟨ask 5 0x0403 [23, 0, 0, 0] unsealed, 5, 23, by decide +kernel⟩

theorem test_CalibrationCommands_9 : ∃ (s : State) (c : Nat) (p : Nat), (Asked s c 0x0404 (len 4)) ∧ (asks s c 0 1 = p) ∧ (calTarget p = true) ∧ (s.cal.owner = some c) ∧ ((∃ b ∈ s.cal.blocks, b.target = p)) :=
  ⟨ask 5 0x0404 [23, 0, 0, 0] { unsealed with cal := { unsealed.cal with owner := some 5, blocks := [⟨23, 0, 0, unitBlock⟩, ⟨4, 0, 0, unitBlock⟩] } }, 5, 23, by decide +kernel⟩

theorem test_CalibrationCommands_10_1 : ∃ (s : State) (c : Nat) (p : Nat), (Asked s c 0x0404 (len 4)) ∧ (asks s c 0 1 = p) ∧ (calTarget p = true) ∧ ((∃ o, s.cal.owner = some o ∧ o ≠ c)) :=
  ⟨ask 5 0x0404 [23, 0, 0, 0] { unsealed with cal := { unsealed.cal with owner := some 4 } }, 5, 23, by decide +kernel⟩

theorem test_CalibrationCommands_10_2 : ∃ (s : State) (c : Nat) (p : Nat), (Asked s c 0x0404 (len 4)) ∧ (asks s c 0 1 = p) ∧ (calTarget p = true) ∧ (s.cal.owner = none ∨ s.cal.owner = some c) ∧ ((∀ b ∈ s.cal.blocks, b.target ≠ p)) :=
  ⟨ask 5 0x0404 [23, 0, 0, 0] unsealed, 5, 23, by decide +kernel⟩

theorem test_CalibrationCommands_11 : ∃ (s : State) (c : Nat) (o : Nat) (p : Nat) (x : Nat) (d : Nat), (Asked s c 0x0405 (len 4)) ∧ (asks s c 0 1 = o) ∧ (asks s c 1 1 = p) ∧ (asks s c 2 1 = x) ∧ (asks s c 3 1 = d) ∧ (o ≤ 1) ∧ (p ≤ 23) ∧ (d ≤ 2) ∧ (x ≤ 2) ∧ (fitted s p = true) ∧ (rdy s rPulse = true) ∧ (rdy s p = true) ∧ (sealPort s = true) ∧ (o < s.meter.pulses.length) ∧ ((pulseSel (getPulse s o)).phase = 0xFF) ∧ (s.cairn.queue = []) :=
  ⟨ask 5 0x0405 [1, 23, 2, 2] unsealed, 5, 1, 23, 2, 2, by decide +kernel⟩

theorem test_CalibrationCommands_12 : ∃ (s : State), (s.cal.bandSet = true) ∧ (8000 ≤ s.cal.secTicks) ∧ (s.cal.frozen = false) ∧ ((tempMean s.cal.sum0 s.cal.n0 - tempMean s.cal.sum1 s.cal.n1).natAbs ≤ 50) ∧ (s.cairn.queue = []) ∧ (orRun s = true) :=
  ⟨{ up with cal := { up.cal with bandSet := true, secTicks := 8000, band := 3, sum0 := 5000, n0 := 10, sum1 := 5300, n1 := 10 } }, by decide +kernel⟩

theorem test_CalibrationCommands_13 : ∃ (s : State), (s.cal.bandSet = true) ∧ (8000 ≤ s.cal.secTicks) ∧ (s.cal.frozen = false) ∧ (150 < (tempMean s.cal.sum0 s.cal.n0 - tempMean s.cal.sum1 s.cal.n1).natAbs) ∧ (2 ≤ s.cal.farN) ∧ (orRun s = true) :=
  ⟨{ up with cal := { up.cal with bandSet := true, secTicks := 8000, band := 3, farN := 2, sum0 := 5000, n0 := 10, sum1 := 6510, n1 := 10 } }, by decide +kernel⟩

theorem test_CalibrationCommands_14 : ∃ (s : State), (s.cal.secTicks < 8000) :=
  ⟨up, by decide +kernel⟩

theorem test_VaultCommands_1 : ∃ (s : State) (c : Nat) (n : Nat), (Asked s c 0x0F01 (len 80)) ∧ (rdy s rDrupe = true) ∧ (kuCheck s (reqPayload s c) = 0x0F00) ∧ (asks s c 1 1 = 1) ∧ (asks s c 2 1 = n) ∧ (s.vault.cells.length = 128) ∧ (nth s.vault.map n 0 < 128) ∧ ((nth s.vault.cells (nth s.vault.map n 0) {}).bad = false) ∧ (s.vault.kseq.length = 120) ∧ (s.rind.zLine = 0) :=
  ⟨ask 5 0x0F01 (kuMsg 1 5 3 16 [249, 235, 24, 32, 134, 223, 248, 19, 45, 64, 35, 205, 156, 132, 168, 195]) up, 5, 5, by decide +kernel⟩

theorem test_VaultCommands_2 : ∃ (s : State) (c : Nat) (n : Nat), (Asked s c 0x0F01 (len 80)) ∧ (rdy s rDrupe = true) ∧ (kuCheck s (reqPayload s c) = 0x0F00) ∧ (asks s c 1 1 = 2) ∧ (asks s c 2 1 = n) ∧ (s.vault.cells.length = 128) ∧ (nth s.vault.map n 0 < 128) :=
  ⟨ask 5 0x0F01 (kuMsg 2 119 0 0 [248, 183, 82, 208, 126, 176, 189, 228, 88, 23, 172, 156, 29, 228, 172, 50]) { up with vault := { up.vault with cells := up.vault.cells.set 119 { a := { klen := 16 } } } }, 5, 119, by decide +kernel⟩

theorem test_VaultCommands_3 : ∃ (s : State) (c : Nat), (Asked s c 0x0F01 (len 80)) ∧ (rdy s rDrupe = true) ∧ (kuCheck s (reqPayload s c) = 0x0F00) ∧ (asks s c 1 1 = 3) :=
  ⟨ask 5 0x0F01 (kuMsg 3 0 0 0 [217, 149, 152, 179, 118, 28, 88, 199, 230, 103, 173, 57, 49, 91, 174, 63]) { up with vault := { up.vault with cells := up.vault.cells.set 119 { a := { klen := 16 } } } }, 5, by decide +kernel⟩

theorem test_VaultCommands_4 : ∃ (s : State) (c : Nat), (Asked s c 0x0F01 (len 80)) ∧ (rdy s rDrupe = true) ∧ (kuCheck s (reqPayload s c) ≠ 0x0F00) :=
  ⟨ask 5 0x0F01 (kuMsg 1 120 3 16 (zeros 16)) up, 5, by decide +kernel⟩

theorem test_VaultCommands_5 : ∃ (s : State) (c : Nat), (Asked s c 0x0F02 (len 0)) ∧ (rdy s rDrupe = true) ∧ (s.otp.devId.length = 16) :=
  ⟨ask 5 0x0F02 [] { up with vault := { up.vault with cells := up.vault.cells.set 119 { a := { klen := 16 } }, lost := up.vault.lost.set 3 true } }, 5, by decide +kernel⟩

theorem test_VaultCommands_6 : ∃ (s : State) (c : Nat), (Asked s c 0x0F03 (len 0)) ∧ (rdy s rKS = true) :=
  ⟨ask 5 0x0F03 [] { up with rind := { up.rind with broken := true, zTick := 77 } }, 5, by decide +kernel⟩

theorem test_VaultAndTamper_1 : ∃ (s : State), (s.boot.phase ≠ .reset) ∧ (s.pw.mode ≠ 2) ∧ (s.vault.rngBad = false) ∧ (s.eg.pfailTick = none) ∧ ((∀ n, s.vault.last = some n → n + 480000 ≤ now s)) ∧ (s.vault.cells.length = 128) ∧ (s.vault.map.length = 120) ∧ ((∀ k ∈ s.vault.map, k < 128)) ∧ ((∀ k ∈ s.vault.cells, (activeOf k).pat.length = 32 ∧ (activeOf k).mask.length = 32 ∧ (activeOf k).klen ≤ 32)) :=
  ⟨{ up with vault := { up.vault with last := some 520003, cells := (List.replicate 127 { a := { pat := zeros 32, mask := zeros 32 }, b := { pat := zeros 32, mask := zeros 32 } }) ++ [{ a := { pat := zeros 32, mask := List.replicate 32 7, klen := 16, attr := 3 } }], map := (List.range 119) ++ [127] } }, by decide +kernel⟩

theorem test_VaultAndTamper_2 : ∃ (s : State) (n : Nat), (s.vault.last = some n) ∧ (now s < n + 480000) :=
  ⟨{ up with vault := { up.vault with last := some 520004 } }, 520004, by decide +kernel⟩

theorem test_VaultAndTamper_3 : ∃ (s : State), (s.vault.rngBad = false) ∧ (s.boot.phase ≠ .reset) :=
  ⟨up, by decide +kernel⟩

theorem test_VaultAndTamper_4 : ∃ (s : State), (s.rind.broken = false) :=
  ⟨{ up with vault := { up.vault with cells := up.vault.cells.set 119 { a := { klen := 16 } } } }, by decide +kernel⟩

theorem test_VaultAndTamper_5 : ∃ (s : State), (s.rind.broken = true) :=
  ⟨{ up with rind := { up.rind with broken := true } }, by decide +kernel⟩

theorem test_VaultAndTamper_6 : ∃ (s : State), (s.rind.cover = false) :=
  ⟨{ up with vault := { up.vault with coverBit := true, cells := up.vault.cells.set 119 { a := { klen := 16 } } } }, by decide +kernel⟩

theorem test_VaultAndTamper_7 : ∃ (s : State), (s.rind.cover = true) :=
  ⟨{ up with rind := { up.rind with cover := true } }, by decide +kernel⟩

theorem test_VaultAndTamper_8_1 : ∃ (s : State), (s.rind.cover = true) :=
  ⟨{ up with rind := { up.rind with cover := true } }, by decide +kernel⟩

theorem test_VaultAndTamper_8_2 : ∃ (s : State), (s.rind.cover = false) :=
  ⟨up, by decide +kernel⟩

theorem test_VaultAndTamper_9 : ∃ (s : State) (e : Tamper) (l : List Tamper), (s.rind.latch = e :: l) ∧ (e.token = none) ∧ (rdy s rKS = true) ∧ (s.cairn.queue = []) ∧ (ksRun s = true) :=
  ⟨{ up with rind := { up.rind with latch := [{ code := 0x63, data := [1, 0] }, { code := 0x62 }] } }, { code := 0x63, data := [1, 0] }, [{ code := 0x62 }], by decide +kernel⟩

theorem test_VaultAndTamper_10 : ∃ (s : State), (s.rind.latch = []) :=
  ⟨up, by decide +kernel⟩

theorem test_VaultAndTamper_11 : ∃ (s : State), (s.rind.mag = false) ∧ (s.rind.fault = false) ∧ (s.rind.outN < 8000) ∧ (s.rind.setN ≠ 0) ∧ (8 * magTab s 6 ≤ s.rind.setN) ∧ (s.cairn.queue = []) ∧ (ksRun s = true) :=
  ⟨{ up with rind := { up.rind with setN := 40000, level := 700 } }, by decide +kernel⟩

theorem test_VaultAndTamper_12 : ∃ (s : State), (s.rind.mag = true) ∧ (s.rind.outN < 8000) :=
  ⟨{ up with rind := { up.rind with mag := true } }, by decide +kernel⟩

theorem test_VaultAndTamper_13 : ∃ (s : State), (s.rind.mag = true) ∧ (s.rind.fault = false) ∧ (8 * magTab s 8 ≤ s.rind.clrN) ∧ (s.cairn.queue = []) ∧ (ksRun s = true) :=
  ⟨{ up with rind := { up.rind with mag := true, clrN := 480000, peak := 900, start := 5 } }, by decide +kernel⟩

theorem test_VaultAndTamper_14 : ∃ (s : State), (s.rind.mag = false) :=
  ⟨up, by decide +kernel⟩

theorem test_TariffCommands_1 : ∃ (s : State) (c : Nat), (Asked s c 0x0901 (len 0)) ∧ (rdy s rOR = true) :=
  ⟨ask 7 0x0901 [] up, 7, by decide +kernel⟩

theorem test_TariffCommands_2 : ∃ (s : State) (c : Nat) (k : Nat), (Asked s c 0x0902 (len 4)) ∧ (rdy s rOR = true) ∧ (asks s c 0 1 = k) ∧ (k ≤ 24) :=
  ⟨ask 7 0x0902 [24, 0, 0, 0] up, 7, 24, by decide +kernel⟩

theorem test_TariffCommands_3 : ∃ (s : State) (c : Nat), (Asked s c 0x0902 (len 4)) ∧ (rdy s rOR = true) ∧ (asks s c 0 1 = 0xFF) :=
  ⟨ask 7 0x0902 [0xFF, 0, 0, 0] up, 7, by decide +kernel⟩

theorem test_TariffCommands_4_1 : ∃ (s : State) (c : Nat) (n : Nat) (b : List Byte), (Asked s c 0x0903 (len 8)) ∧ (rdy s rOR = true) ∧ (asks s c 0 4 = n) ∧ (n ≠ 0) ∧ (n < periodNo s) ∧ (snapOf s n = some b) :=
  ⟨ask 7 0x0903 [1, 0, 0, 0, 0, 0, 0, 0] { up with eg := { up.eg with regs := [(0x0C41, ⟨2, 0⟩)] }, tar := { up.tar with snaps := [le 4 1 ++ [9], []] } }, 7, 1, le 4 1 ++ [9], by decide +kernel⟩

theorem test_TariffCommands_4_2 : ∃ (s : State) (c : Nat) (n : Nat), (Asked s c 0x0903 (len 8)) ∧ (rdy s rOR = true) ∧ (asks s c 0 4 = n) ∧ (periodNo s ≤ n) :=
  ⟨ask 7 0x0903 [1, 0, 0, 0, 0, 0, 0, 0] up, 7, 1, by decide +kernel⟩

theorem test_TariffCommands_5_1 : ∃ (s : State) (c : Nat) (m : List Byte), (Asked s c 0x0904 (len 36)) ∧ (rdy s rOR = true) ∧ (reqPayload s c = m) ∧ (631152000 ≤ fld m 0 8) ∧ (fld m 0 8 < 2 ^ 48) ∧ (fld m 8 2 ≤ 32767) ∧ (fld m 10 2 = 0) ∧ (macOk s 0 (s.otp.devId ++ le 2 0x0904 ++ m.take 20) (bytesAt m 20 16) = false) :=
  ⟨ask 7 0x0904 (setMsg 800000002 0 7 ++ zeros 16) keyed, 7, setMsg 800000002 0 7 ++ zeros 16, by decide +kernel⟩

theorem test_TariffCommands_5_2_1 : ∃ (s : State) (c : Nat) (m : List Byte), (Asked s c 0x0904 (len 36)) ∧ (rdy s rOR = true) ∧ (reqPayload s c = m) ∧ (631152000 ≤ fld m 0 8) ∧ (fld m 0 8 < 2 ^ 48) ∧ (fld m 8 2 ≤ 32767) ∧ (fld m 10 2 = 0) ∧ (macOk s 0 (s.otp.devId ++ le 2 0x0904 ++ m.take 20) (bytesAt m 20 16) = true) ∧ (fld m 12 8 ≤ s.tar.counter) :=
  ⟨ask 7 0x0904 (setMsg 800000002 0 7 ++ set2Mac) { Tests.keyed with tar := { keyed.tar with counter := 7 } }, 7, setMsg 800000002 0 7 ++ set2Mac, by decide +kernel⟩

theorem test_TariffCommands_5_2_2 : ∃ (s : State) (c : Nat) (m : List Byte), (Asked s c 0x0904 (len 36)) ∧ (rdy s rOR = true) ∧ (reqPayload s c = m) ∧ (631152000 ≤ fld m 0 8) ∧ (fld m 0 8 < 2 ^ 48) ∧ (fld m 8 2 ≤ 32767) ∧ (fld m 10 2 = 0) ∧ (macOk s 0 (s.otp.devId ++ le 2 0x0904 ++ m.take 20) (bytesAt m 20 16) = true) ∧ (s.tar.counter < fld m 12 8) ∧ (s.rtc.valid = false) :=
  ⟨ask 7 0x0904 (setMsg 800000002 0 7 ++ set2Mac) { Tests.keyed with rtc := { keyed.rtc with valid := false } }, 7, setMsg 800000002 0 7 ++ set2Mac, by decide +kernel⟩

theorem test_TariffCommands_5_2_3 : ∃ (s : State) (c : Nat) (m : List Byte), (Asked s c 0x0904 (len 36)) ∧ (rdy s rOR = true) ∧ (reqPayload s c = m) ∧ (631152000 ≤ fld m 0 8) ∧ (fld m 0 8 < 2 ^ 48) ∧ (fld m 8 2 ≤ 32767) ∧ (fld m 10 2 = 0) ∧ (macOk s 0 (s.otp.devId ++ le 2 0x0904 ++ m.take 20) (bytesAt m 20 16) = true) ∧ (s.tar.counter < fld m 12 8) ∧ (s.rtc.valid = true) ∧ (fld m 0 8 * 32768 + fld m 8 2 = rtcUnits s) :=
  ⟨ask 7 0x0904 (setMsg 800000000 0 7 ++ set0Mac) keyed, 7, setMsg 800000000 0 7 ++ set0Mac, by decide +kernel⟩

theorem test_TariffCommands_5_2_4 : ∃ (s : State) (c : Nat) (m : List Byte), (Asked s c 0x0904 (len 36)) ∧ (rdy s rOR = true) ∧ (reqPayload s c = m) ∧ (631152000 ≤ fld m 0 8) ∧ (fld m 0 8 < 2 ^ 48) ∧ (fld m 8 2 ≤ 32767) ∧ (fld m 10 2 = 0) ∧ (macOk s 0 (s.otp.devId ++ le 2 0x0904 ++ m.take 20) (bytesAt m 20 16) = true) ∧ (s.tar.counter < fld m 12 8) ∧ (s.rtc.valid = true) ∧ (s.tar.trims = []) ∧ (rtcUnits s + 33 ≤ fld m 0 8 * 32768 + fld m 8 2) ∧ (fld m 0 8 * 32768 + fld m 8 2 ≤ rtcUnits s + 65536) :=
  ⟨ask 7 0x0904 (setMsg 800000002 0 7 ++ set2Mac) keyed, 7, setMsg 800000002 0 7 ++ set2Mac, by decide +kernel⟩

theorem test_TariffCommands_6_1 : ∃ (s : State) (c : Nat) (v : Nat), (Asked s c 0x0905 (len 4)) ∧ (rdy s rOR = true) ∧ (asks s c 0 2 = v) ∧ (sealPort s = false) :=
  ⟨ask 5 0x0905 [3, 0, 0, 0] up, 5, 3, by decide +kernel⟩

theorem test_TariffCommands_6_2 : ∃ (s : State) (c : Nat) (v : Nat), (Asked s c 0x0905 (len 4)) ∧ (rdy s rOR = true) ∧ (asks s c 0 2 = v) ∧ (sealPort s = true) ∧ ((passive s).map TableRec.version ≠ some v) :=
  ⟨ask 5 0x0905 [3, 0, 0, 0] unsealed, 5, 3, by decide +kernel⟩

theorem test_TariffCommands_6_3 : ∃ (s : State) (c : Nat) (v : Nat), (Asked s c 0x0905 (len 4)) ∧ (rdy s rOR = true) ∧ (asks s c 0 2 = v) ∧ (sealPort s = true) ∧ ((passive s).map TableRec.version = some v) ∧ (s.tar.act ≠ none) :=
  ⟨ask 5 0x0905 [3, 0, 0, 0] { unsealed with tar := { unsealed.tar with act := some 5 }, tabs := { installed := [⟨0x4902, 3, def4901, 0⟩] } }, 5, 3, by decide +kernel⟩

theorem test_TariffCommands_6_4_1 : ∃ (s : State) (c : Nat) (v : Nat), (Asked s c 0x0905 (len 4)) ∧ (rdy s rOR = true) ∧ (asks s c 0 2 = v) ∧ (sealPort s = true) ∧ ((passive s).map TableRec.version = some v) ∧ (s.tar.act = none) ∧ (s.rtc.valid = false) :=
  ⟨ask 5 0x0905 [3, 0, 0, 0] { unsealed with rtc := { unsealed.rtc with valid := false }, tabs := { installed := [⟨0x4902, 3, def4901, 0⟩] } }, 5, 3, by decide +kernel⟩

theorem test_TariffCommands_6_4_2 : ∃ (s : State) (c : Nat) (v : Nat), (Asked s c 0x0905 (len 4)) ∧ (rdy s rOR = true) ∧ (asks s c 0 2 = v) ∧ (sealPort s = true) ∧ ((passive s).map TableRec.version = some v) ∧ (s.tar.act = none) ∧ (s.rtc.valid = true) :=
  ⟨ask 5 0x0905 [3, 0, 0, 0] { unsealed with tabs := { installed := [⟨0x4902, 3, def4901, 0⟩] } }, 5, 3, by decide +kernel⟩

theorem test_TariffCommands_7 : ∃ (s : State) (r : Nat), (r = 1 ∨ r = 2) ∧ (s.rtc.valid = true) ∧ (boundaryDue s = false) ∧ (s.cairn.queue = []) :=
  ⟨up, 2, by decide +kernel⟩

theorem test_TariffCommands_8 : ∃ (s : State) (r : Nat), (s.rtc.valid = false ∨ 2 < r) :=
  ⟨up, 3, by decide +kernel⟩

theorem test_SessionCommands_1 : ∃ (s : State) (c : Nat) (p : Nat) (a : Nat) (r : List Byte), (Asked s c 0x0A04 (len 8)) ∧ (asks s c 0 1 = p) ∧ (asks s c 4 4 = a) ∧ (a ≤ 262143) ∧ (p < 24) ∧ (p < s.ports.length) ∧ (portChecks s p = none) ∧ ((ledFetch a s).1 = some r) ∧ (acctChecks s r = none) :=
  ⟨ask 7 0x0A04 [23, 0, 0, 0, 7, 0, 0, 0] (held7 up), 7, 23, 7, acct7, by decide +kernel⟩

theorem test_SessionCommands_2 : ∃ (s : State) (c : Nat) (p : Nat) (a : Nat) (st : Nat), (Asked s c 0x0A04 (len 8)) ∧ (asks s c 0 1 = p) ∧ (asks s c 4 4 = a) ∧ (a ≤ 262143) ∧ (p < 24) ∧ (portChecks s p = some st) :=
  ⟨ask 7 0x0A04 [23, 0, 0, 0, 7, 0, 0, 0] (at23 (fun q => { q with hs := { q.hs with permit := true } }) up), 7, 23, 7, 0x0A14, by decide +kernel⟩

theorem test_SessionCommands_3_1 : ∃ (s : State) (c : Nat) (p : Nat), (Asked s c 0x0A05 (len 4)) ∧ (asks s c 0 1 = p) ∧ (p < 24) ∧ (p < s.ports.length) ∧ (rdy s rAP = true) ∧ (rdy s rKS = true) ∧ (fitted s p = true) ∧ ((getPort s p).se.stage ≠ 2) :=
  ⟨ask 7 0x0A05 [23, 0, 0, 0] up, 7, 23, by decide +kernel⟩

theorem test_SessionCommands_3_2 : ∃ (s : State) (c : Nat) (p : Nat), (Asked s c 0x0A05 (len 4)) ∧ (asks s c 0 1 = p) ∧ (p < 24) ∧ (p < s.ports.length) ∧ (rdy s rAP = true) ∧ (rdy s rKS = true) ∧ (fitted s p = true) ∧ ((getPort s p).se.stage = 2) ∧ (portOn s p = true) :=
  ⟨ask 7 0x0A05 [23, 0, 0, 0] (at23 (fun q => { q with se := { q.se with stage := 2, id := 9 }, ct := { q.ct with chs := true, stage := 4 } }) up), 7, 23, by decide +kernel⟩

theorem test_SessionCommands_3_3 : ∃ (s : State) (c : Nat) (p : Nat), (Asked s c 0x0A05 (len 4)) ∧ (asks s c 0 1 = p) ∧ (p < 24) ∧ (p < s.ports.length) ∧ (rdy s rAP = true) ∧ (rdy s rKS = true) ∧ (fitted s p = true) ∧ ((getPort s p).se.stage = 2) ∧ (portOn s p = false) ∧ ((getPort s p).hs.permit = true) :=
  ⟨ask 7 0x0A05 [23, 0, 0, 0] (at23 (fun q => { q with se := { q.se with stage := 2, id := 9 }, hs := { q.hs with permit := true }, ct := { q.ct with stage := 1, step := 1 } }) up), 7, 23, by decide +kernel⟩

theorem test_SessionCommands_4_1 : ∃ (s : State) (c : Nat) (p : Nat), (Asked s c 0x0A06 (len 4)) ∧ (asks s c 0 1 = p) ∧ (p < 24) ∧ (rdy s rAP = true) ∧ ((getPort s p).se.stage ≠ 2) :=
  ⟨ask 7 0x0A06 [23, 0, 0, 0] up, 7, 23, by decide +kernel⟩

theorem test_SessionCommands_4_2 : ∃ (s : State) (c : Nat) (p : Nat), (Asked s c 0x0A06 (len 4)) ∧ (asks s c 0 1 = p) ∧ (p < 24) ∧ (rdy s rAP = true) ∧ ((getPort s p).se.stage = 2) :=
  ⟨ask 7 0x0A06 [23, 0, 0, 0] (at23 (fun q => { q with se := { q.se with stage := 2, id := 9, charge := 1234 } }) up), 7, 23, by decide +kernel⟩

theorem test_SessionCommands_5_1 : ∃ (s : State) (c : Nat) (a : Nat) (k : Nat) (o : Nat) (r : List Byte), (Asked s c 0x0A01 (len 4)) ∧ (rdy s rLedger = true) ∧ (asks s c 0 4 = a) ∧ (a ≤ 262143) ∧ (pendRec s a = none) ∧ (ledRead s a = some (k, o, r)) :=
  ⟨ask 7 0x0A01 [7, 0, 0, 0] { up with qr := { up.qr with gen := 1 } }, 7, 7, 0, 0, freeRec 7, by decide +kernel⟩

theorem test_SessionCommands_5_2 : ∃ (s : State) (c : Nat) (a : Nat), (Asked s c 0x0A01 (len 4)) ∧ (rdy s rLedger = true) ∧ (asks s c 0 4 = a) ∧ (a ≤ 262143) ∧ (pendRec s a = none) ∧ (ledRead s a = none) :=
  ⟨ask 7 0x0A01 [7, 0, 0, 0] { up with qr := { up.qr with gen := 2 } }, 7, 7, by decide +kernel⟩

theorem test_SessionCommands_6 : ∃ (s : State) (c : Nat) (a : Nat) (r : List Byte), (Asked s c 0x0A01 (len 4)) ∧ (rdy s rLedger = true) ∧ (asks s c 0 4 = a) ∧ (a ≤ 262143) ∧ (pendRec s a = some r) :=
  ⟨ask 7 0x0A01 [7, 0, 0, 0] (held7 up), 7, 7, acct7, by decide +kernel⟩

theorem test_SessionCommands_7 : ∃ (s : State) (c : Nat), (Asked s c 0x0A01 (len 4)) ∧ (rdy s rLedger = true) ∧ (262143 < asks s c 0 4) :=
  ⟨ask 7 0x0A01 [0, 0, 4, 0] up, 7, by decide +kernel⟩

theorem test_SessionCommands_8_1 : ∃ (s : State) (c : Nat) (m : List Byte), (Asked s c 0x0A02 (len 64)) ∧ (rdy s rLedger = true) ∧ (rdy s rAP = true) ∧ (reqPayload s c = m) ∧ (acctForm m = true) ∧ (macOk s 3 (s.otp.devId ++ le 2 0x0A02 ++ m.take 48) (bytesAt m 48 16) = false) :=
  ⟨ask 7 0x0A02 (setAcct ++ zeros 16) keyed, 7, setAcct ++ zeros 16, by decide +kernel⟩

theorem test_SessionCommands_8_2_1 : ∃ (s : State) (c : Nat) (m : List Byte), (Asked s c 0x0A02 (len 64)) ∧ (rdy s rLedger = true) ∧ (rdy s rAP = true) ∧ (reqPayload s c = m) ∧ (acctForm m = true) ∧ (macOk s 3 (s.otp.devId ++ le 2 0x0A02 ++ m.take 48) (bytesAt m 48 16) = true) ∧ (fld m 40 8 ≤ s.qr.acctCtr) :=
  ⟨ask 7 0x0A02 (setAcct ++ setAcctMac) { Tests.keyed with qr := { keyed.qr with acctCtr := 9 } }, 7, setAcct ++ setAcctMac, by decide +kernel⟩

theorem test_SessionCommands_8_2_2 : ∃ (s : State) (c : Nat) (m : List Byte), (Asked s c 0x0A02 (len 64)) ∧ (rdy s rLedger = true) ∧ (rdy s rAP = true) ∧ (reqPayload s c = m) ∧ (acctForm m = true) ∧ (macOk s 3 (s.otp.devId ++ le 2 0x0A02 ++ m.take 48) (bytesAt m 48 16) = true) ∧ (s.qr.acctCtr < fld m 40 8) ∧ (fld m 20 1 = 0) ∧ (fld m 4 1 ≠ 0) ∧ (pendRec s (fld m 0 4) = none) ∧ ((ledRead s (fld m 0 4)).any (fun e => inSession e.2.2) = false) :=
  ⟨ask 7 0x0A02 (setAcct ++ setAcctMac) { Tests.keyed with qr := { keyed.qr with gen := 1 } }, 7, setAcct ++ setAcctMac, by decide +kernel⟩

theorem test_SessionCommands_9_1 : ∃ (s : State) (c : Nat) (st : Nat), (Asked s c 0x0A03 (len 32)) ∧ (rdy s rLedger = true) ∧ (rdy s rAP = true) ∧ ((tokenCheck (reqPayload s c) s).1 = .inl st) ∧ (readsPending (reqPayload s c) s = false) :=
  ⟨ask 7 0x0A03 (zeros 32) keyed, 7, 0x0A19, by decide +kernel⟩

theorem test_SessionCommands_9_2 : ∃ (s : State) (c : Nat) (st : Nat), (Asked s c 0x0A03 (len 32)) ∧ (rdy s rLedger = true) ∧ (rdy s rAP = true) ∧ ((tokenCheck (reqPayload s c) s).1 = .inl st) ∧ (readsPending (reqPayload s c) s = true) :=
  ⟨ask 7 0x0A03 (token7.take 24 ++ zeros 8) (held7 keyed), 7, 0x0AF5, by decide +kernel⟩

theorem test_SessionCommands_10 : ∃ (s : State) (c : Nat) (r : List Byte), (Asked s c 0x0A03 (len 32)) ∧ (rdy s rLedger = true) ∧ (rdy s rAP = true) ∧ ((tokenCheck (reqPayload s c) s).1 = .inr r) :=
  ⟨ask 7 0x0A03 token7 (held7 keyed), 7, putF (putF acct7 32 (le 4 5)) 16 (leI 8 6000) |> fun r => putF r 40 (le 8 16), by decide +kernel⟩

theorem test_SessionCommands_11 : ∃ (high : Nat) (map : Nat) (n : Nat) (r : Nat × Nat), (map < 2 ^ 64) ∧ (serialRule high map n = .inr r) :=
  ⟨100, 5, 40, (100, 5 + 2 ^ 59), by decide +kernel⟩

theorem test_SessionEvents_1 : ∃ (s : State) (p : Nat), (p < s.ports.length) ∧ (((List.range 24).find? fun p => (getPort s p).se.stage == 5 && (getPort s p).se.at_ < now s) = some p) ∧ (owesSettle s p = false) ∧ ((getPort s p).se.start = impVals s p) ∧ (orRun s = true) ∧ (ssrDemand s = false) :=
  ⟨at23 (fun q => { q with se := { q.se with stage := 5, at_ := 1000002, start := List.replicate 8 0, ch := 7 } }) calm, 23, by decide +kernel⟩

theorem test_SessionEvents_2 : ∃ (s : State) (p : Nat), (p < s.ports.length) ∧ (((List.range 24).find? fun p => (getPort s p).se.stage == 5 && (getPort s p).se.at_ < now s) = some p) ∧ (owesSettle s p = false) ∧ ((getPort s p).se.start = impVals s p) ∧ (orRun s = true) ∧ (ssrDemand s = true) :=
  ⟨at23 (fun q => { q with se := { q.se with stage := 5, at_ := 1000002, start := List.replicate 8 0, ch := 7 } }) up, 23, by decide +kernel⟩

theorem test_SessionEvents_3 : ∃ (s : State) (p : Nat) (r : List Byte), (p < s.ports.length) ∧ (((List.range 24).find? fun p => (getPort s p).se.stage == 5 && (getPort s p).se.at_ < now s) = some p) ∧ (owesSettle s p = false) ∧ ((getPort s p).se.start ≠ impVals s p) ∧ ((getPort s p).se.tries = 0) ∧ (ledView s (getPort s p).se.account = some r) ∧ (orRun s = true) :=
  ⟨at23 (fun q => { q with se := { q.se with stage := 5, at_ := 1000002, start := List.replicate 8 1, ch := 7, account := 7 } }) (held7 up), 23, acct7, by decide +kernel⟩

theorem test_SessionEvents_4 : ∃ (s : State), ((∀ p, p < 24 → (getPort s p).se.stage ≠ 5)) :=
  ⟨up, by decide +kernel⟩

theorem test_SessionEvents_5 : ∃ (s : State) (p : Nat), (((List.range 24).find? fun p => (getPort s p).se.stage == 5 && (getPort s p).se.at_ < now s) = some p) ∧ (owesSettle s p = true) :=
  ⟨{ at23 (fun q => { q with se := { q.se with stage := 5, at_ := 1000002, start := List.replicate 8 0, ch := 7 } }) up with qr := { up.qr with sess := [sessRecord 9 7 23 0 0 0 0 0 5 5000 0 0 (List.replicate 8 0) 0] } }, 23, by decide +kernel⟩

theorem test_SessionEvents_6 : ∃ (s : State) (p : Nat), (p < s.ports.length) ∧ (((List.range 24).find? fun p => (getPort s p).se.stage == 3 && (getPort s p).se.ended) = some p) ∧ (rdy s rLedger = true) ∧ (rdy s rAP = true) :=
  ⟨at23 (fun q => { q with se := { q.se with stage := 3, ended := true, account := 7, id := 9 } }) (held7 up), 23, by decide +kernel⟩

theorem test_SessionEvents_7 : ∃ (s : State), ((∀ p, p < 24 → (getPort s p).se.stage ≠ 3)) :=
  ⟨up, by decide +kernel⟩

theorem test_SessionEvents_8 : ∃ (s : State) (r : List Byte), (unsettled s = some r) ∧ (rdy s rLedger = true) ∧ (rdy s rOR = true) ∧ (rdy s rAP = true) :=
  ⟨{ held7 up with qr := { (held7 up).qr with sess := [sessRecord 9 7 23 0 0 0 0 0 5 5000 0 0 (List.replicate 8 0) 0] } }, sessRecord 9 7 23 0 0 0 0 0 5 5000 0 0 (List.replicate 8 0) 0, by decide +kernel⟩

theorem test_SessionEvents_9 : ∃ (s : State), (unsettled s = none) :=
  ⟨up, by decide +kernel⟩

theorem test_SessionEvents_10 : ∃ (s : State), (s.ports.length = 24) :=
  ⟨at23 (fun q => { q with se := { q.se with stage := 2, ckpt := 520003 } }) up, by decide +kernel⟩

theorem test_StoreCommands_1 : ∃ (s : State) (c : Nat), (Asked s c 0x0E01 (len 0)) ∧ (rdy s rSE = true) :=
  ⟨ask 7 0x0E01 [] up, 7, by decide +kernel⟩

theorem test_StoreCommands_2 : ∃ (s : State) (c : Nat) (f : Nat) (n : Nat), (Asked s c 0x0E02 (len 12)) ∧ (rdy s rSE = true) ∧ (asks s c 0 8 = f) ∧ (asks s c 8 2 = n) ∧ (1 ≤ n) ∧ (n ≤ 11) ∧ (zoneReads s 0x21 = true) ∧ ((nth s.qr.aged 0 0 = 0 ∨ nth s.qr.aged 0 0 < f)) :=
  ⟨ask 7 0x0E02 (le 8 6 ++ [11, 0, 0, 0]) { up with qr := { up.qr with profs := [le 8 5, le 8 6, le 8 7] } }, 7, 6, 11, by decide +kernel⟩

theorem test_StoreCommands_3_1 : ∃ (s : State) (c : Nat) (n : Nat), (Asked s c 0x0E02 (len 12)) ∧ (rdy s rSE = true) ∧ (asks s c 8 2 = n) ∧ (n = 0 ∨ 11 < n) :=
  ⟨ask 7 0x0E02 (le 8 6 ++ [12, 0, 0, 0]) up, 7, 12, by decide +kernel⟩

theorem test_StoreCommands_3_2 : ∃ (s : State) (c : Nat) (n : Nat), (Asked s c 0x0E02 (len 12)) ∧ (rdy s rSE = true) ∧ (asks s c 8 2 = n) ∧ (1 ≤ n) ∧ (n ≤ 11) ∧ (zoneReads s 0x21 = false) :=
  ⟨ask 7 0x0E02 (le 8 6 ++ [1, 0, 0, 0]) (fenceNow 8 0 true 0 0 (fenceNow 8 1 true 0 0 up)), 7, 1, by decide +kernel⟩

theorem test_StoreCommands_3_3 : ∃ (s : State) (c : Nat) (n : Nat), (Asked s c 0x0E02 (len 12)) ∧ (rdy s rSE = true) ∧ (asks s c 8 2 = n) ∧ (1 ≤ n) ∧ (n ≤ 11) ∧ (zoneReads s 0x21 = true) ∧ (nth s.qr.aged 0 0 ≠ 0) ∧ (asks s c 0 8 ≤ nth s.qr.aged 0 0) :=
  ⟨ask 7 0x0E02 (le 8 6 ++ [1, 0, 0, 0]) { up with qr := { up.qr with aged := [6, 0] } }, 7, 1, by decide +kernel⟩

theorem test_StoreCommands_4 : ∃ (s : State) (c : Nat) (f : Nat) (n : Nat), (Asked s c 0x0E03 (len 8)) ∧ (rdy s rSE = true) ∧ (asks s c 0 4 = f) ∧ (asks s c 4 2 = n) ∧ (1 ≤ n) ∧ (n ≤ 47) ∧ (zoneReads s 0x20 = true) ∧ ((f = 0 ∨ nth s.qr.aged 1 0 < f)) :=
  ⟨ask 7 0x0E03 (le 4 0 ++ [2, 0, 0, 0]) { up with qr := { up.qr with sess := [le 4 5 ++ zeros 28, le 4 3 ++ zeros 28, le 4 9 ++ zeros 28] } }, 7, 0, 2, by decide +kernel⟩

theorem test_StoreEngine_1 : ∃ (s : State) (o : SeOp) (i : Nat), (seServes s = true) ∧ (nextAsk s = some (o, i)) :=
  ⟨{ up with clk := { up.clk with tick := 1000000 }, qr := { up.qr with time := List.replicate 2 { used := [(999999, 5, 80)] }, asks := [{ code := 11, cls := 5 }, { code := 4, cls := 3, recs := [(7, acct7)] }, { cls := 4 }] } }, { code := 4, cls := 3, recs := [(7, acct7)] }, 1, by decide +kernel⟩

theorem test_StoreEngine_2 : ∃ (s : State), (seServes s = false) :=
  ⟨{ up with upd := { up.upd with quiesce := true, image := 5 } }, by decide +kernel⟩

theorem test_StoreEngine_3 : ∃ (s : State) (e : CairnEntry), (seServes s = true) ∧ (nextAsk s = none) ∧ (rdy s rCairn = true) ∧ (journalTight s = false) ∧ ((s.cairn.ring.find? fun e => e.seq == max s.cairn.mirrorSeq s.cairn.copying + 1) = some e) :=
  ⟨{ up with cairn := { up.cairn with ring := [{ seq := 1, code := 3 }], head := 1 } }, { seq := 1, code := 3 }, by decide +kernel⟩

theorem test_StoreEngine_4 : ∃ (s : State) (ch : Nat) (id : Nat) (o : SeOp) (k : NStep) (t1 : NStep) (l : List NStep), (nandTurn s ch id = some o) ∧ (o.steps = k :: t1 :: l) ∧ (k.act = 0) :=
  ⟨{ up with qr := { up.qr with time := [{}, { run := some (4, 1000001) }], ops := [{ id := 4, steps := [{ act := 0, chan := 1, chip := 0, blk := 9 }, { act := 1, chan := 1 }] }, { id := 5 }] } }, 1, 4, { id := 4, steps := [{ act := 0, chan := 1, chip := 0, blk := 9 }, { act := 1, chan := 1 }] }, { act := 0, chan := 1, chip := 0, blk := 9 }, { act := 1, chan := 1 }, [], by decide +kernel⟩

theorem test_StoreEngine_5 : ∃ (s : State) (ch : Nat) (id : Nat) (b : Nat) (o : SeOp) (k : NStep) (l : List NStep), (nandTurn s ch id = some o) ∧ (o.steps = k :: l) ∧ (k.act = 1) ∧ (placeBlk s (2 * k.chan + k.chip) k.kind = some b) ∧ (2 * k.chan + k.chip < s.qr.chips.length) ∧ ((getBlk (chipOf s (2 * k.chan + k.chip)) b).bad = false) :=
  ⟨{ up with qr := { up.qr with time := [{}, { run := some (4, 1000001) }], chips := [{ fit := true, st := 1, blocks := 8 }, {}, { fit := true, st := 1, blocks := 8 }, {}], ops := [{ id := 4, steps := [{ act := 1, chan := 1, chip := 0, kind := 0x22 }] }] } }, 1, 4, 4, { id := 4, steps := [{ act := 1, chan := 1, chip := 0, kind := 0x22 }] }, { act := 1, chan := 1, chip := 0, kind := 0x22 }, [], by decide +kernel⟩

theorem test_StoreEngine_6 : ∃ (s : State) (ch : Nat) (id : Nat) (o : SeOp) (k : NStep), (nandTurn s ch id = some o) ∧ (o.steps = [k]) ∧ (k.act ≠ 1) :=
  ⟨{ up with qr := { up.qr with time := [{}, { run := some (4, 1000001) }], ops := [{ id := 4, code := 7, steps := [{ act := 2, chan := 1, chip := 0, blk := 9 }] }, { id := 5 }] } }, 1, 4, { id := 4, code := 7, steps := [{ act := 2, chan := 1, chip := 0, blk := 9 }] }, { act := 2, chan := 1, chip := 0, blk := 9 }, by decide +kernel⟩

theorem test_StoreEngine_7 : ∃ (s : State) (ch : Nat) (id : Nat), (nandTurn s ch id = none) :=
  ⟨up, 1, 4, by decide +kernel⟩

theorem test_StoreEngine_8 : ∃ (s : State), (rdy s rSE = true) ∧ (s.qr.ckpt + 512 ≤ s.qr.jseq) ∧ (askedFor s 11 = false) :=
  ⟨{ up with qr := { up.qr with jseq := 512 } }, by decide +kernel⟩

theorem test_StoreEngine_9 : ∃ (s : State), (s.qr.jseq < s.qr.ckpt + 512 ∨ askedFor s 11 = true) :=
  ⟨{ up with qr := { up.qr with jseq := 511 } }, by decide +kernel⟩

theorem test_StoreEngine_10 : ∃ (s : State) (c : Nat) (b : Nat), (c < 2) ∧ (rdy s rSE = true) ∧ (chipUp s (copyChip s c) = true) ∧ (quotaOf s (copyChip s c) (0x10 + c) ≤ (blksOf (chipOf s (copyChip s c)) (0x10 + c)).length + 8) ∧ (leastBlk (fun n => (liveUnits s (copyChip s c / 2, copyChip s c % 2, n)).length) (((blksOf (chipOf s (copyChip s c)) (0x10 + c)).filter fun e => !openBlk s (copyChip s c) e).map (·.1)) = some b) :=
  ⟨{ up with qr := { up.qr with chips := [{ fit := true, st := 1 }, {}, { fit := true, st := 1, blks := (List.range 536).map fun n => (n + 4, ({ kind := 0x11, shut := true, units := [{ kind := 0x11, idx := n }] } : Blk)) }, {}], bmap := [(1, 512)] } }, 1, 5, by decide +kernel⟩

theorem test_StoreEngine_11 : ∃ (s : State), (rdy s rSE = false) :=
  ⟨{ up with boot := { up.boot with ready := 0 } }, by decide +kernel⟩

theorem test_StoreEngine_12 : ∃ (s : State) (i : Nat) (b : Nat), (i < 4) ∧ (rdy s rSE = true) ∧ (chipUp s i = true) ∧ (leastBlk (fun n => (getBlk (chipOf s i) n).erases) (((chipOf s i).blks.filter fun e => 2 ≤ e.2.kind && !e.2.units.isEmpty && !e.2.bad).map (·.1)) = some b) ∧ ((getBlk (chipOf s i) b).erases + 500 < ((chipOf s i).blks.map fun e => e.2.erases).foldl max 0) :=
  ⟨{ up with qr := { up.qr with chips := [{ fit := true, st := 1 }, {}, { fit := true, st := 1, blks := [(4, ({ kind := 0x20, units := [{}], erases := 99 } : Blk)), (9, ({ erases := 600 } : Blk))] }, {}] } }, 2, 4, by decide +kernel⟩

theorem test_StoreEngine_13 : ∃ (s : State) (i : Nat) (e : Nat × Blk), (i < 4) ∧ (rdy s rSE = true) ∧ (chipUp s i = true) ∧ (movePending s i [5, 6, 10] = false) ∧ (throughPending s i = false) ∧ (e ∈ (chipOf s i).blks) ∧ (e.2.units ≠ []) ∧ (isVictim s i e.1 = false) ∧ (e.2.bad = false) ∧ (e.2.weak = true) :=
  ⟨{ up with qr := { up.qr with chips := [{ fit := true, st := 1 }, {}, { fit := true, st := 1, blks := [(4, ({ kind := 2, units := [{ kind := 2 }], weak := true } : Blk))] }, {}] } }, 2, (4, ({ kind := 2, units := [{ kind := 2 }], weak := true } : Blk)), by decide +kernel⟩

theorem test_StoreEngine_14 : ∃ (s : State), (rdy s rSE = true) ∧ (s.qr.sessPend ≠ []) ∧ (s.qr.sweepAt + 480000 ≤ now s) :=
  ⟨{ up with qr := { up.qr with sessPend := [(false, [1]), (true, [2])] } }, by decide +kernel⟩

theorem test_StoreEngine_15 : ∃ (s : State) (ch : Nat) (k : Nat) (a : Nat) (b : Nat), (ch < 2) ∧ (k < 2) ∧ (chipReads s (2 * ch + k) = true) ∧ (2 * ch + k < s.qr.chips.length) ∧ ((chipOf s (2 * ch + k)).late = [a, b]) ∧ (now s < a + 28800000) ∧ (now s < b + 28800000) ∧ (fencedB s 9 (2 * ch + k) = false) :=
  ⟨{ up with qr := { up.qr with chips := [{ fit := true, st := 1 }, {}, { fit := true, st := 1, late := [999000, 1000000] }, {}] } }, 1, 0, 999000, 1000000, by decide +kernel⟩

theorem test_StoreEngine_16 : ∃ (s : State) (ch : Nat) (k : Nat), (ch < 2) ∧ (k < 2) ∧ (chipReads s (2 * ch + k) = true) ∧ (2 * ch + k < s.qr.chips.length) ∧ ((chipOf s (2 * ch + k)).late = []) :=
  ⟨up, 1, 0, by decide +kernel⟩

theorem test_Contactless_1 : ∃ (s : State) (c : Nat), (Asked s c 0x0C01 (len 0)) ∧ (rdy s rLE = true) ∧ (s.nf.staged.length ≤ 16) :=
  ⟨ask 7 0x0C01 [] up, 7, by decide +kernel⟩

theorem test_Contactless_2_1 : ∃ (s : State) (c : Nat) (u : Nat) (l : Nat) (rest : List Staged), (Asked s c 0x0C02 (len 40)) ∧ (rdy s rLE = true) ∧ (asks s c 0 1 = u) ∧ (u = 4 ∨ u = 7 ∨ u = 10) ∧ (asks s c 12 1 = l) ∧ (s.nf.staged.filter (fun g => g.uid != bytesAt (reqPayload s c) 2 u) = rest) ∧ (l ≤ 26) ∧ (rest.length < 16) :=
  ⟨ask 7 0x0C02 ((((zeros 40).set 0 4).set 2 1).set 12 26) { up with nf := { up.nf with staged := [{ uid := [1, 0, 0, 0] }, {}] } }, 7, 4, 26, [{}], by decide +kernel⟩

theorem test_Contactless_2_2 : ∃ (s : State) (c : Nat) (u : Nat) (l : Nat) (rest : List Staged), (Asked s c 0x0C02 (len 40)) ∧ (rdy s rLE = true) ∧ (asks s c 0 1 = u) ∧ (u = 4 ∨ u = 7 ∨ u = 10) ∧ (asks s c 12 1 = l) ∧ (s.nf.staged.filter (fun g => g.uid != bytesAt (reqPayload s c) 2 u) = rest) ∧ (l = 0xFF) ∧ (rest.length ≤ 16) :=
  ⟨ask 7 0x0C02 ((((zeros 40).set 0 4).set 2 1).set 12 255) { up with nf := { up.nf with staged := [{ uid := [1, 0, 0, 0] }, {}] } }, 7, 4, 0xFF, [{}], by decide +kernel⟩

theorem test_Contactless_2_3 : ∃ (s : State) (c : Nat) (u : Nat) (l : Nat) (rest : List Staged), (Asked s c 0x0C02 (len 40)) ∧ (rdy s rLE = true) ∧ (asks s c 0 1 = u) ∧ (u = 4 ∨ u = 7 ∨ u = 10) ∧ (asks s c 12 1 = l) ∧ (s.nf.staged.filter (fun g => g.uid != bytesAt (reqPayload s c) 2 u) = rest) ∧ (l ≤ 26) ∧ (rest.length = 16) :=
  ⟨ask 7 0x0C02 ((((zeros 40).set 0 4).set 2 1).set 12 0) { up with nf := { up.nf with staged := List.replicate 16 {} } }, 7, 4, 0, List.replicate 16 {}, by decide +kernel⟩

theorem test_Contactless_2_4 : ∃ (s : State) (c : Nat) (u : Nat) (l : Nat) (rest : List Staged), (Asked s c 0x0C02 (len 40)) ∧ (rdy s rLE = true) ∧ (asks s c 0 1 = u) ∧ (u = 4 ∨ u = 7 ∨ u = 10) ∧ (asks s c 12 1 = l) ∧ (s.nf.staged.filter (fun g => g.uid != bytesAt (reqPayload s c) 2 u) = rest) ∧ (26 < l) ∧ (l ≠ 0xFF) :=
  ⟨ask 7 0x0C02 ((((zeros 40).set 0 4).set 2 1).set 12 27) up, 7, 4, 27, [], by decide +kernel⟩

theorem test_Contactless_3_1 : ∃ (s : State) (n : Nat) (q : Nf), (nfUp s n = true) ∧ (s.nf.fe.length = 2) ∧ (getNf s n = q) ∧ (q.ph = 0) ∧ (nfTab s n = q.cfg) ∧ (nfMode q = 1 ∨ nfMode q = 2) ∧ (q.nextPing ≤ now s) ∧ (s.clk.plln = true) ∧ (fieldHolds s q = false) ∧ (q.based = true) ∧ (q.rebase = true) :=
  ⟨nf0 (fun q => { q with based := true, rebase := true }), 0, getNf (nf0 (fun q => { q with based := true, rebase := true })) 0, by decide +kernel⟩

theorem test_Contactless_3_2 : ∃ (s : State) (n : Nat) (a : Nat) (phi : Int) (q : Nf), (nfUp s n = true) ∧ (s.nf.fe.length = 2) ∧ (getNf s n = q) ∧ (q.ph = 0) ∧ (nfTab s n = q.cfg) ∧ (nfMode q = 1 ∨ nfMode q = 2) ∧ (q.nextPing ≤ now s) ∧ (s.clk.plln = true) ∧ (fieldHolds s q = false) ∧ (q.based = true) ∧ (q.rebase = false) ∧ ((nfOpt q 6 2 : Rat) ≤ deltaOf q a phi) :=
  ⟨nf0 (fun q => { q with based := true, aBase := 1000 }), 0, 1015, 0, getNf (nf0 (fun q => { q with based := true, aBase := 1000 })) 0, by decide +kernel⟩

theorem test_Contactless_3_3 : ∃ (s : State) (n : Nat) (a : Nat) (phi : Int) (q : Nf), (nfUp s n = true) ∧ (s.nf.fe.length = 2) ∧ (getNf s n = q) ∧ (q.ph = 0) ∧ (nfTab s n = q.cfg) ∧ (nfMode q = 1 ∨ nfMode q = 2) ∧ (q.nextPing ≤ now s) ∧ (s.clk.plln = true) ∧ (fieldHolds s q = false) ∧ (q.based = true) ∧ (q.rebase = false) ∧ (deltaOf q a phi < (nfOpt q 6 2 : Rat)) :=
  ⟨nf0 (fun q => { q with based := true, aBase := 1000 }), 0, 1014, -14, getNf (nf0 (fun q => { q with based := true, aBase := 1000 })) 0, by decide +kernel⟩

theorem test_Contactless_3_4 : ∃ (s : State) (n : Nat) (q : Nf), (nfUp s n = true) ∧ (s.nf.fe.length = 2) ∧ (getNf s n = q) ∧ (q.ph = 0) ∧ (nfTab s n = q.cfg) ∧ (nfMode q = 1 ∨ nfMode q = 2) ∧ (q.nextPing ≤ now s) ∧ (s.clk.plln = true) ∧ (fieldHolds s q = true) ∧ (q.rebase = true) :=
  ⟨nf0 (fun q => { q with based := true, rebase := true, field := true }), 0, getNf (nf0 (fun q => { q with based := true, rebase := true, field := true })) 0, by decide +kernel⟩

theorem test_Contactless_4 : ∃ (s : State) (n : Nat), (fld (nfTab s n) 0 1 = 1 ∨ fld (nfTab s n) 0 1 = 2) ∧ (now s < (getNf s n).nextPing ∨ (getNf s n).ph ≠ 0) :=
  ⟨nf0 (fun q => { q with nextPing := 1000004 }), 0, by decide +kernel⟩

theorem test_Contactless_5 : ∃ (s : State) (n : Nat) (l : List (Nat × Int)), (nfUp s n = true) ∧ (s.nf.fe.length = 2) ∧ ((getNf s n).ph = 0) ∧ (l.length = 16) ∧ ((getNf s n).cfg.length = 16) ∧ (nfMode (getNf s n) = 1 ∨ nfMode (getNf s n) = 2) ∧ ((getNf s n).based = false) ∧ (fieldHolds s (getNf s n) = false) ∧ (s.clk.plln = true) ∧ (fencedB s 10 (6 + n) = false) :=
  ⟨nf0 (fun q => { q with ph := 0 }), 0, List.replicate 16 (1000, -3), by decide +kernel⟩

theorem test_Contactless_6_1 : ∃ (s : State) (n : Nat) (q : Nf), (nfUp s n = true) ∧ (s.nf.fe.length = 2) ∧ (getNf s n = q) ∧ (q.carrier = true) ∧ (q.ph = 1) ∧ (q.card.known = []) ∧ (s.clk.nfRun = true) ∧ (s.clk.plln = true) :=
  ⟨nf0 (fun q => { q with carrier := true, ph := 1, card := { level := 2 } }), 0, getNf (nf0 (fun q => { q with carrier := true, ph := 1, card := { level := 2 } })) 0, by decide +kernel⟩

theorem test_Contactless_6_2 : ∃ (s : State) (n : Nat) (ans : List Byte) (pos : Nat) (q : Nf), (nfUp s n = true) ∧ (s.nf.fe.length = 2) ∧ (getNf s n = q) ∧ (q.carrier = true) ∧ (q.ph = 2) ∧ (q.card.known.length ≤ pos) ∧ (pos < 40) ∧ (ans.length = 5) ∧ (s.clk.nfRun = true) ∧ (s.clk.plln = true) :=
  ⟨nf0 (fun q => { q with carrier := true, ph := 2 }), 0, [0x3A, 0x71, 0x0C, 0x34, 0x73], 31, getNf (nf0 (fun q => { q with carrier := true, ph := 2 })) 0, by decide +kernel⟩

theorem test_Contactless_6_3 : ∃ (s : State) (n : Nat) (ans : List Byte) (pos : Nat) (q : Nf), (nfUp s n = true) ∧ (s.nf.fe.length = 2) ∧ (getNf s n = q) ∧ (q.carrier = true) ∧ (q.ph = 2) ∧ (q.card.known = []) ∧ (pos = 40) ∧ (ans.length = 5) ∧ (nth ans 0 0 ^^^ nth ans 1 0 ^^^ nth ans 2 0 ^^^ nth ans 3 0 = nth ans 4 0) ∧ (s.clk.nfRun = true) ∧ (s.clk.plln = true) :=
  ⟨nf0 (fun q => { q with carrier := true, ph := 2 }), 0, [0x3A, 0x71, 0x0C, 0x34, 0x73], 40, getNf (nf0 (fun q => { q with carrier := true, ph := 2 })) 0, by decide +kernel⟩

theorem test_Contactless_6_4 : ∃ (s : State) (n : Nat) (ans : List Byte) (pos : Nat) (q : Nf), (nfUp s n = true) ∧ (s.nf.fe.length = 2) ∧ (getNf s n = q) ∧ (q.carrier = true) ∧ (q.ph = 2) ∧ (q.card.known = []) ∧ (pos = 40) ∧ (q.card.restarts < 3) ∧ (nth ans 0 0 ^^^ nth ans 1 0 ^^^ nth ans 2 0 ^^^ nth ans 3 0 ≠ nth ans 4 0) ∧ (ans.length = 5) ∧ (s.clk.nfRun = true) ∧ (s.clk.plln = true) :=
  ⟨nf0 (fun q => { q with carrier := true, ph := 2, card := { restarts := 2 } }), 0, [0x3A, 0x71, 0x0C, 0x34, 0x72], 40, getNf (nf0 (fun q => { q with carrier := true, ph := 2, card := { restarts := 2 } })) 0, by decide +kernel⟩

theorem test_Contactless_6_5 : ∃ (s : State) (n : Nat) (ans : List Byte) (q : Nf) (km : List Byte) (inf : List Byte), (nfUp s n = true) ∧ (s.nf.fe.length = 2) ∧ (getNf s n = q) ∧ (q.carrier = true) ∧ (q.ph = 7) ∧ (slotKey s 4 3 = some km) ∧ (s.vault.rngBad = false) ∧ (q.card.bn ≤ 1) ∧ (q.card.acc = []) ∧ (ans = byteOf (2 + q.card.bn) :: inf) ∧ (inf.length = 17) ∧ (fld inf 0 1 = 0) ∧ (s.clk.nfRun = true) ∧ (s.clk.plln = true) :=
  ⟨{ nf0 (fun q => { q with carrier := true, ph := 7, card := { uid := [1, 2, 3, 4] } }) with vault := kv45 }, 0, [2, 0] ++ zeros 16, getNf ({ nf0 (fun q => { q with carrier := true, ph := 7, card := { uid := [1, 2, 3, 4] } }) with vault := kv45 }) 0, zeros 16, [0] ++ zeros 16, by decide +kernel⟩

theorem test_Contactless_6_6 : ∃ (s : State) (n : Nat) (ans : List Byte) (q : Nf) (inf : List Byte), (nfUp s n = true) ∧ (s.nf.fe.length = 2) ∧ (getNf s n = q) ∧ (q.carrier = true) ∧ (q.ph = 8) ∧ (q.card.part4 = true) ∧ (q.card.bn ≤ 1) ∧ (q.card.acc = []) ∧ (ans = byteOf (2 + q.card.bn) :: inf) ∧ (bytesAt inf 1 16 ≠ cmac q.card.ks ([0x43] ++ q.card.rr ++ q.card.rc)) ∧ ((∀ k, oldKeys s q.card = some k → bytesAt inf 1 16 ≠ cmac k.2 ([0x43] ++ q.card.rr ++ q.card.rc))) ∧ (s.clk.nfRun = true) ∧ (s.clk.plln = true) :=
  ⟨nf0 (fun q => { q with carrier := true, ph := 8, card := { part4 := true, ks := zeros 16, rr := zeros 16, rc := zeros 16 } }), 0, [2, 0] ++ zeros 16, getNf (nf0 (fun q => { q with carrier := true, ph := 8, card := { part4 := true, ks := zeros 16, rr := zeros 16, rc := zeros 16 } })) 0, [0] ++ zeros 16, by decide +kernel⟩

theorem test_Contactless_6_7 : ∃ (s : State) (n : Nat) (ans : List Byte) (q : Nf) (inf : List Byte), (nfUp s n = true) ∧ (s.nf.fe.length = 2) ∧ (getNf s n = q) ∧ (q.carrier = true) ∧ (q.ph = 9) ∧ (q.card.bn ≤ 1) ∧ (q.card.acc = []) ∧ (ans = byteOf (2 + q.card.bn) :: inf) ∧ (rspOk q.card inf 32 = true) ∧ (q.card.rcd < 5) ∧ (s.clk.nfRun = true) ∧ (s.clk.plln = true) :=
  ⟨nf0 (fun q => { q with carrier := true, ph := 9, card := { ks := zeros 16, ctr := 65535, rcd := 4, recs := [[1]] } }), 0, [2] ++ [0] ++ zeros 32 ++ [177, 236, 143, 172, 119, 96, 16, 8], getNf (nf0 (fun q => { q with carrier := true, ph := 9, card := { ks := zeros 16, ctr := 65535, rcd := 4, recs := [[1]] } })) 0, [0] ++ zeros 32 ++ [177, 236, 143, 172, 119, 96, 16, 8], by decide +kernel⟩

theorem test_Contactless_6_8 : ∃ (s : State) (n : Nat) (ans : List Byte) (q : Nf) (inf : List Byte), (nfUp s n = true) ∧ (s.nf.fe.length = 2) ∧ (getNf s n = q) ∧ (q.carrier = true) ∧ (q.ph = 13 ∨ q.ph = 15) ∧ (q.card.bn ≤ 1) ∧ (q.card.acc = []) ∧ (ans = byteOf (2 + q.card.bn) :: inf) ∧ (rspOk q.card inf 32 = true) ∧ (bytesAt inf 1 32 ≠ q.card.wr) ∧ (q.card.bad = 1) ∧ (q.card.part4 = true) ∧ (s.clk.nfRun = true) ∧ (s.clk.plln = true) :=
  ⟨nf0 (fun q => { q with carrier := true, ph := 15, card := { ks := zeros 16, wr := [1], bad := 1, part4 := true } }), 0, [2] ++ [0] ++ zeros 32 ++ [177, 236, 143, 172, 119, 96, 16, 8], getNf (nf0 (fun q => { q with carrier := true, ph := 15, card := { ks := zeros 16, wr := [1], bad := 1, part4 := true } })) 0, [0] ++ zeros 32 ++ [177, 236, 143, 172, 119, 96, 16, 8], by decide +kernel⟩

theorem test_Contactless_6_9 : ∃ (s : State) (n : Nat) (ans : List Byte) (q : Nf) (inf : List Byte), (nfUp s n = true) ∧ (s.nf.fe.length = 2) ∧ (getNf s n = q) ∧ (q.carrier = true) ∧ (q.ph = 17) ∧ (q.card.bn ≤ 1) ∧ (q.card.acc = []) ∧ (ans = byteOf (2 + q.card.bn) :: inf) ∧ (rspOk q.card inf 32 = true) ∧ (bytesAt inf 1 32 = q.card.wr) ∧ (s.clk.nfRun = true) ∧ (s.clk.plln = true) :=
  ⟨{ nf0 (fun q => { q with carrier := true, ph := 17, card := { ks := zeros 16, wr := zeros 32, uid := [1], prof := some { uid := [1] } } }) with nf := { (nf0 (fun q => { q with carrier := true, ph := 17, card := { ks := zeros 16, wr := zeros 32, uid := [1], prof := some { uid := [1] } } })).nf with staged := [{ uid := [1] }, {}] } }, 0, [2] ++ [0] ++ zeros 32 ++ [177, 236, 143, 172, 119, 96, 16, 8], getNf ({ nf0 (fun q => { q with carrier := true, ph := 17, card := { ks := zeros 16, wr := zeros 32, uid := [1], prof := some { uid := [1] } } }) with nf := { (nf0 (fun q => { q with carrier := true, ph := 17, card := { ks := zeros 16, wr := zeros 32, uid := [1], prof := some { uid := [1] } } })).nf with staged := [{ uid := [1] }, {}] } }) 0, [0] ++ zeros 32 ++ [177, 236, 143, 172, 119, 96, 16, 8], by decide +kernel⟩

theorem test_Contactless_6_10 : ∃ (s : State) (n : Nat) (q : Nf), (nfUp s n = true) ∧ (s.nf.fe.length = 2) ∧ (getNf s n = q) ∧ (q.carrier = true) ∧ (q.ph = 0 ∨ q.ph = 11) :=
  ⟨nf0 (fun q => { q with carrier := true, ph := 11 }), 0, getNf (nf0 (fun q => { q with carrier := true, ph := 11 })) 0, by decide +kernel⟩

theorem test_Contactless_6_11 : ∃ (s : State) (n : Nat) (ans : List Byte) (q : Nf) (m : Byte), (nfUp s n = true) ∧ (s.nf.fe.length = 2) ∧ (getNf s n = q) ∧ (q.carrier = true) ∧ (6 ≤ q.ph ∧ q.ph ≤ 17 ∧ q.ph ≠ 11) ∧ (ans = [0xF2, m]) ∧ (s.clk.nfRun = true) ∧ (s.clk.plln = true) :=
  ⟨nf0 (fun q => { q with carrier := true, ph := 9, card := { ks := zeros 16 } }), 0, [0xF2, 0x41], getNf (nf0 (fun q => { q with carrier := true, ph := 9, card := { ks := zeros 16 } })) 0, 0x41, by decide +kernel⟩

theorem test_Contactless_6_12 : ∃ (s : State) (n : Nat) (ans : List Byte) (q : Nf) (inf : List Byte), (nfUp s n = true) ∧ (s.nf.fe.length = 2) ∧ (getNf s n = q) ∧ (q.carrier = true) ∧ (6 ≤ q.ph ∧ q.ph ≤ 17 ∧ q.ph ≠ 11) ∧ (q.card.bn ≤ 1) ∧ (ans = byteOf (0x12 + q.card.bn) :: inf) ∧ (s.clk.nfRun = true) ∧ (s.clk.plln = true) :=
  ⟨nf0 (fun q => { q with carrier := true, ph := 9, card := { ks := zeros 16, acc := [7] } }), 0, [0x12, 5], getNf (nf0 (fun q => { q with carrier := true, ph := 9, card := { ks := zeros 16, acc := [7] } })) 0, [5], by decide +kernel⟩

theorem test_Contactless_6_13 : ∃ (s : State) (n : Nat) (ans : List Byte) (q : Nf), (nfUp s n = true) ∧ (s.nf.fe.length = 2) ∧ (getNf s n = q) ∧ (q.carrier = true) ∧ (6 ≤ q.ph ∧ q.ph ≤ 17 ∧ q.ph ≠ 11) ∧ (q.card.bn ≤ 1) ∧ (q.card.out ≠ []) ∧ (ans = [byteOf (0xA2 + q.card.bn)]) ∧ (s.clk.nfRun = true) ∧ (s.clk.plln = true) :=
  ⟨nf0 (fun q => { q with carrier := true, ph := 16, card := { out := zeros 40, bn := 1 } }), 0, [0xA3], getNf (nf0 (fun q => { q with carrier := true, ph := 16, card := { out := zeros 40, bn := 1 } })) 0, by decide +kernel⟩

theorem test_Contactless_7_1 : ∃ (s : State) (n : Nat) (q : Nf), (nfUp s n = true) ∧ (s.nf.fe.length = 2) ∧ (getNf s n = q) ∧ (q.carrier = true) ∧ (q.ph = 1) ∧ (q.reqa < 3) ∧ (s.clk.nfRun = true) ∧ (s.clk.plln = true) :=
  ⟨nf0 (fun q => { q with carrier := true, ph := 1, reqa := 2 }), 0, getNf (nf0 (fun q => { q with carrier := true, ph := 1, reqa := 2 })) 0, by decide +kernel⟩

theorem test_Contactless_7_2 : ∃ (s : State) (n : Nat) (q : Nf), (nfUp s n = true) ∧ (s.nf.fe.length = 2) ∧ (getNf s n = q) ∧ (q.carrier = true) ∧ (q.ph = 1) ∧ (q.reqa = 3) ∧ (s.clk.nfRun = true) ∧ (s.clk.plln = true) :=
  ⟨nf0 (fun q => { q with carrier := true, ph := 1, reqa := 3 }), 0, getNf (nf0 (fun q => { q with carrier := true, ph := 1, reqa := 3 })) 0, by decide +kernel⟩

theorem test_Contactless_7_3 : ∃ (s : State) (n : Nat) (q : Nf), (nfUp s n = true) ∧ (s.nf.fe.length = 2) ∧ (getNf s n = q) ∧ (q.carrier = true) ∧ (q.ph = 10 ∨ (12 ≤ q.ph ∧ q.ph ≤ 15)) ∧ (s.clk.nfRun = true) ∧ (s.clk.plln = true) :=
  ⟨nf0 (fun q => { q with carrier := true, ph := 12 }), 0, getNf (nf0 (fun q => { q with carrier := true, ph := 12 })) 0, by decide +kernel⟩

theorem test_Contactless_8 : ∃ (s : State) (n : Nat), (n < 2) ∧ (s.nf.fe.length = 2) ∧ ((getNf s n).cfg.length = 16) ∧ (nfMode (getNf s n) = 2 ∨ nfMode (getNf s n) = 3) ∧ ((getNf s n).carrier = false) ∧ ((getNf s n).field = false) ∧ (fencedB s 4 n = false) ∧ (s.boot.phase ≠ .reset ∨ s.pw.mode = 3) ∧ (s.vault.rngBad = false) :=
  ⟨nf0 (fun q => { q with ended := some 5 }), 0, by decide +kernel⟩

theorem test_Contactless_9 : ∃ (s : State) (n : Nat), (n < 2) ∧ (s.nf.fe.length = 2) ∧ (modeOf s n = 2 ∨ modeOf s n = 3) ∧ ((getNf s n).carrier = false) ∧ ((getNf s n).field = false) ∧ (fencedB s 4 n = false) ∧ (s.boot.phase ≠ .reset) ∧ (s.vault.rngBad = true) :=
  ⟨{ nf0 (fun q => { q with ended := some 5 }) with vault := { up.vault with rngBad := true } }, 0, by decide +kernel⟩

theorem test_Contactless_10 : ∃ (s : State) (n : Nat), (n < 2) ∧ (s.nf.fe.length = 2) ∧ ((getNf s n).field = true) :=
  ⟨nf0 (fun q => { q with field := true, mks := some [] }), 0, by decide +kernel⟩

theorem test_Contactless_11 : ∃ (s : State) (n : Nat), ((getNf s n).field = false) :=
  ⟨up, 0, by decide +kernel⟩

theorem test_Contactless_12 : ∃ (s : State) (n : Nat), ((getNf s n).field = false ∨ (getNf s n).emuUid = []) :=
  ⟨up, 1, by decide +kernel⟩

theorem test_Contactless_13_1 : ∃ (s : State) (n : Nat), (n < 2) ∧ (s.nf.fe.length = 2) ∧ ((getNf s n).field = true) ∧ (fencedB s 4 n = false) ∧ (modeOf s n = 2 ∨ modeOf s n = 3) ∧ ((getNf s n).carrier = false) ∧ ((getNf s n).emuUid ≠ []) ∧ (s.clk.nfRun = true) ∧ ((getNf s n).emu = 0) :=
  ⟨nf0 (fun q => { q with field := true, emuUid := [8, 1, 2, 3], emu := 0 }), 0, by decide +kernel⟩

theorem test_Contactless_13_2 : ∃ (s : State) (n : Nat), (n < 2) ∧ (s.nf.fe.length = 2) ∧ ((getNf s n).field = true) ∧ (fencedB s 4 n = false) ∧ (modeOf s n = 2 ∨ modeOf s n = 3) ∧ ((getNf s n).carrier = false) ∧ ((getNf s n).emuUid ≠ []) ∧ (s.clk.nfRun = true) ∧ ((getNf s n).emu = 3) :=
  ⟨nf0 (fun q => { q with field := true, emuUid := [8, 1, 2, 3], emu := 3 }), 0, by decide +kernel⟩

theorem test_Contactless_13_3 : ∃ (s : State) (n : Nat), (n < 2) ∧ (s.nf.fe.length = 2) ∧ ((getNf s n).field = true) ∧ (fencedB s 4 n = false) ∧ (modeOf s n = 2 ∨ modeOf s n = 3) ∧ ((getNf s n).carrier = false) ∧ ((getNf s n).emuUid ≠ []) ∧ (s.clk.nfRun = true) ∧ ((getNf s n).emu = 1) ∧ (((getNf s n).emuUid.length = 4)) :=
  ⟨nf0 (fun q => { q with field := true, emu := 1, emuUid := [8, 1, 2, 3] }), 0, by decide +kernel⟩

theorem test_Contactless_13_4 : ∃ (s : State) (n : Nat), (n < 2) ∧ (s.nf.fe.length = 2) ∧ ((getNf s n).field = true) ∧ (fencedB s 4 n = false) ∧ (modeOf s n = 2 ∨ modeOf s n = 3) ∧ ((getNf s n).carrier = false) ∧ ((getNf s n).emuUid ≠ []) ∧ (s.clk.nfRun = true) ∧ ((getNf s n).emu = 2) :=
  ⟨nf0 (fun q => { q with field := true, emuUid := [8, 1, 2, 3], emu := 2 }), 0, by decide +kernel⟩

theorem test_Contactless_13_5 : ∃ (s : State) (n : Nat), (n < 2) ∧ (s.nf.fe.length = 2) ∧ ((getNf s n).field = true) ∧ (fencedB s 4 n = false) ∧ (modeOf s n = 2 ∨ modeOf s n = 3) ∧ ((getNf s n).carrier = false) ∧ ((getNf s n).emuUid ≠ []) ∧ (s.clk.nfRun = true) ∧ ((getNf s n).emu = 4) :=
  ⟨nf0 (fun q => { q with field := true, emuUid := [8, 1, 2, 3], emu := 4, mks := some [1] }), 0, by decide +kernel⟩

theorem test_Contactless_13_6 : ∃ (s : State) (n : Nat) (b : List Byte), (n < 2) ∧ (s.nf.fe.length = 2) ∧ ((getNf s n).field = true) ∧ (fencedB s 4 n = false) ∧ (modeOf s n = 2 ∨ modeOf s n = 3) ∧ ((getNf s n).carrier = false) ∧ ((getNf s n).emuUid ≠ []) ∧ (s.clk.nfRun = true) ∧ ((getNf s n).emu = 4) ∧ (b = [2] ∨ b = [3]) :=
  ⟨nf0 (fun q => { q with field := true, emuUid := [8, 1, 2, 3], emu := 4, ebn := 1 }), 0, [3], by decide +kernel⟩

theorem test_Contactless_13_7 : ∃ (s : State) (n : Nat), (n < 2) ∧ (s.nf.fe.length = 2) ∧ ((getNf s n).field = true) ∧ (fencedB s 4 n = false) ∧ (modeOf s n = 2 ∨ modeOf s n = 3) ∧ ((getNf s n).carrier = false) ∧ ((getNf s n).emuUid ≠ []) ∧ (s.clk.nfRun = true) ∧ ((getNf s n).emu = 4) ∧ ((getNf s n).eout ≠ []) :=
  ⟨nf0 (fun q => { q with field := true, emuUid := [8, 1, 2, 3], emu := 4, eout := zeros 300 }), 0, by decide +kernel⟩

theorem test_Contactless_13_8 : ∃ (s : State) (n : Nat), (n < 2) ∧ (s.nf.fe.length = 2) ∧ ((getNf s n).field = true) ∧ (fencedB s 4 n = false) ∧ (modeOf s n = 2 ∨ modeOf s n = 3) ∧ ((getNf s n).carrier = false) ∧ ((getNf s n).emuUid ≠ []) ∧ (s.clk.nfRun = true) ∧ ((getNf s n).emu = 4) ∧ ((getNf s n).eout = []) :=
  ⟨nf0 (fun q => { q with field := true, emuUid := [8, 1, 2, 3], emu := 4 }), 0, by decide +kernel⟩

theorem test_Contactless_14_1 : ∃ (s : State) (n : Nat), (nfUp s n = true) ∧ (s.nf.fe.length = 2) ∧ ((getNf s n).field = true) ∧ ((getNf s n).emu = 4) ∧ (s.clk.nfRun = true) ∧ (nfOpt (getNf s n) 12 1 = 0) :=
  ⟨updNf 0 (fun q => { q with field := true, emu := 4, rh := zeros 16, cfg := (nfTab up 0).set 12 0 }) up, 0, by decide +kernel⟩

theorem test_Contactless_14_2 : ∃ (s : State) (n : Nat) (env : List Byte), (nfUp s n = true) ∧ (s.nf.fe.length = 2) ∧ ((getNf s n).field = true) ∧ ((getNf s n).emu = 4) ∧ (s.clk.nfRun = true) ∧ (nfOpt (getNf s n) 12 1 = 1) ∧ (fld env 0 1 = 1) ∧ (s.vault.rngBad = false) :=
  ⟨nf0 (fun q => { q with field := true, emu := 4 }), 0, [1, 0], by decide +kernel⟩

theorem test_Contactless_14_3 : ∃ (s : State) (n : Nat) (env : List Byte) (km : List Byte), (nfUp s n = true) ∧ (s.nf.fe.length = 2) ∧ ((getNf s n).field = true) ∧ ((getNf s n).emu = 4) ∧ (s.clk.nfRun = true) ∧ (nfOpt (getNf s n) 12 1 = 1) ∧ (fld env 0 1 = 2) ∧ (slotKey s 5 3 = some km) ∧ (env.length = 38) ∧ ((getNf s n).rh.length = 16) ∧ (env.drop 22 = cmac (cmac km ([1] ++ bytesAt env 6 16 ++ (getNf s n).rh)) ([0x54] ++ (getNf s n).rh ++ bytesAt env 6 16)) :=
  ⟨{ nf0 (fun q => { q with field := true, emu := 4, rh := zeros 16, wake := true }) with vault := kv45 }, 0, [2, 0, 0, 0, 0, 0] ++ zeros 16 ++ [249, 52, 78, 47, 151, 138, 127, 77, 221, 200, 210, 24, 219, 28, 145, 1], zeros 16, by decide +kernel⟩

theorem test_Contactless_14_4 : ∃ (s : State) (n : Nat) (env : List Byte) (ks : List Byte), (nfUp s n = true) ∧ (s.nf.fe.length = 2) ∧ ((getNf s n).field = true) ∧ ((getNf s n).emu = 4) ∧ (s.clk.nfRun = true) ∧ (nfOpt (getNf s n) 12 1 = 1) ∧ (fld env 0 1 = 0x10) ∧ ((getNf s n).mks = some ks) ∧ (env.length < 14 ∨ ks = [] ∨ (cmac ks (env.take (env.length - 8))).take 8 ≠ env.drop (env.length - 8)) :=
  ⟨nf0 (fun q => { q with field := true, emu := 4, mks := some (zeros 16) }), 0, [0x10, 0, 1, 0, 0, 0] ++ zeros 16 ++ [193, 136, 99, 131, 245, 133, 168, 127], zeros 16, by decide +kernel⟩

theorem test_Contactless_14_5 : ∃ (s : State) (n : Nat) (env : List Byte) (ks : List Byte), (nfUp s n = true) ∧ (s.nf.fe.length = 2) ∧ ((getNf s n).field = true) ∧ ((getNf s n).emu = 4) ∧ (s.clk.nfRun = true) ∧ (nfOpt (getNf s n) 12 1 = 1) ∧ (fld env 0 1 = 0x10) ∧ ((getNf s n).mks = some ks) ∧ (14 ≤ env.length) ∧ (env.length ≤ 2062) ∧ (ks ≠ []) ∧ ((cmac ks (env.take (env.length - 8))).take 8 = env.drop (env.length - 8)) ∧ ((getNf s n).mctr < fld env 2 4) ∧ ((chan s (6 + n)).st = .idle) ∧ (s.link.chans.length = 8) ∧ (memWf s.link.mem = true) :=
  ⟨nf0 (fun q => { q with field := true, emu := 4, mks := some (zeros 16) }), 0, [0x10, 0, 1, 0, 0, 0] ++ zeros 16 ++ [193, 136, 99, 131, 245, 133, 168, 126], zeros 16, by decide +kernel⟩

theorem test_Contactless_14_6 : ∃ (s : State) (n : Nat) (env : List Byte) (ks : List Byte), (nfUp s n = true) ∧ (s.nf.fe.length = 2) ∧ ((getNf s n).field = true) ∧ ((getNf s n).emu = 4) ∧ (s.clk.nfRun = true) ∧ (nfOpt (getNf s n) 12 1 = 1) ∧ (fld env 0 1 = 0x10) ∧ ((getNf s n).mks = some ks) ∧ (14 ≤ env.length) ∧ (ks ≠ []) ∧ ((cmac ks (env.take (env.length - 8))).take 8 = env.drop (env.length - 8)) ∧ (fld env 2 4 ≤ (getNf s n).mctr) :=
  ⟨nf0 (fun q => { q with field := true, emu := 4, mks := some (zeros 16), mctr := 1 }), 0, [0x10, 0, 1, 0, 0, 0] ++ zeros 16 ++ [193, 136, 99, 131, 245, 133, 168, 126], zeros 16, by decide +kernel⟩

theorem test_Contactless_15 : ∃ (s : State) (n : Nat), (n < 2) ∧ (s.nf.fe.length = 2) ∧ ((getNf s n).mks.isSome = true) ∧ ((getNf s n).mAt + 480000 ≤ now s) :=
  ⟨nf0 (fun q => { q with mks := some [], mAt := 520003 }), 0, by decide +kernel⟩

theorem test_Powerline_1 : ∃ (s : State) (c : Nat), (Asked s c 0x0D01 (len 0)) ∧ (rdy s rLE = true) :=
  ⟨ask 7 0x0D01 [] up, 7, by decide +kernel⟩

theorem test_Powerline_2_1 : ∃ (s : State) (c : Nat) (d : Nat) (fl : Nat) (n : Nat), (Asked s c 0x0D02 (fun k => decide (4 ≤ k ∧ k ≤ 259))) ∧ (rdy s rLE = true) ∧ (asks s c 0 1 = d) ∧ (d ≤ 32 ∨ d = 0xFF) ∧ (asks s c 1 1 = fl) ∧ (fl ≤ 1) ∧ (asks s c 2 1 = n) ∧ (n ≠ 0) ∧ (reqLen s c = 4 + n) ∧ (plUp s = false) :=
  ⟨ask 5 0x0D02 ([32, 0, 40, 0] ++ zeros 40) ({ up with boot := { up.boot with ready := up.boot.ready &&& ~~~(1#64 <<< rPL) } }), 5, 32, 0, 40, by decide +kernel⟩

theorem test_Powerline_2_2 : ∃ (s : State) (c : Nat) (d : Nat) (fl : Nat) (n : Nat), (Asked s c 0x0D02 (fun k => decide (4 ≤ k ∧ k ≤ 259))) ∧ (rdy s rLE = true) ∧ (asks s c 0 1 = d) ∧ (d ≤ 32 ∨ d = 0xFF) ∧ (asks s c 1 1 = fl) ∧ (fl ≤ 1) ∧ (asks s c 2 1 = n) ∧ (n ≠ 0) ∧ (reqLen s c = 4 + n) ∧ (plUp s = true) ∧ (8 ≤ s.pl.queue.length) :=
  ⟨ask 5 0x0D02 ([0, 1, 1, 0] ++ zeros 1) ({ up with pl := { up.pl with queue := List.replicate 8 {} } }), 5, 0, 1, 1, by decide +kernel⟩

theorem test_Powerline_2_3 : ∃ (s : State) (c : Nat) (d : Nat) (fl : Nat) (n : Nat), (Asked s c 0x0D02 (fun k => decide (4 ≤ k ∧ k ≤ 259))) ∧ (rdy s rLE = true) ∧ (asks s c 0 1 = d) ∧ (d ≤ 32 ∨ d = 0xFF) ∧ (asks s c 1 1 = fl) ∧ (fl ≤ 1) ∧ (asks s c 2 1 = n) ∧ (n ≠ 0) ∧ (reqLen s c = 4 + n) ∧ (plUp s = true) ∧ (s.pl.queue.length < 8) ∧ ((if fl = 1 then 13 else 40) < n) :=
  ⟨ask 5 0x0D02 ([0, 1, 14, 0] ++ zeros 14) (up), 5, 0, 1, 14, by decide +kernel⟩

theorem test_Powerline_2_4 : ∃ (s : State) (c : Nat) (d : Nat) (fl : Nat) (n : Nat), (Asked s c 0x0D02 (fun k => decide (4 ≤ k ∧ k ≤ 259))) ∧ (rdy s rLE = true) ∧ (asks s c 0 1 = d) ∧ (d ≤ 32 ∨ d = 0xFF) ∧ (asks s c 1 1 = fl) ∧ (fl ≤ 1) ∧ (asks s c 2 1 = n) ∧ (n ≠ 0) ∧ (reqLen s c = 4 + n) ∧ (plUp s = true) ∧ (s.pl.queue.length < 8) ∧ (n ≤ (if fl = 1 then 13 else 40)) :=
  ⟨ask 5 0x0D02 ([255, 1, 13, 0] ++ zeros 13) (up), 5, 255, 1, 13, by decide +kernel⟩

theorem test_Powerline_3 : ∃ (s : State) (c : Nat), (Asked s c 0x0D02 (fun k => decide (4 ≤ k ∧ k ≤ 259))) ∧ (reqLen s c ≠ 4 + asks s c 2 1) :=
  ⟨ask 5 0x0D02 [0, 0, 2, 0, 9] up, 5, by decide +kernel⟩

theorem test_Powerline_4 : ∃ (s : State) (k : Nat) (stamp : Nat) (t0 : Nat) (p : Nat) (ps : List Nat), ((getZc s k).last = some t0) ∧ ((getZc s k).periods = p :: ps) ∧ (5 * (zcAt s k stamp - t0) < 3 * p) :=
  ⟨plHub 0 (fun q => { q with zc := [{ last := some 1000000, periods := List.replicate 8 655360, locked := true, cal := true }, {}, {}] }), 0, 1393215, 1000000, 655360, List.replicate 7 655360, by decide +kernel⟩

theorem test_Powerline_5 : ∃ (s : State) (k : Nat) (stamp : Nat) (t0 : Nat) (ps : List Nat), (k < 3) ∧ (s.boot.phase ≠ .reset) ∧ (s.pl.zc.length = 3) ∧ ((getZc s k).last = some t0) ∧ ((getZc s k).periods = ps) ∧ (3 * ps.headD 0 ≤ 5 * (zcAt s k stamp - t0)) ∧ (zcPeriodOk (zcAt s k stamp - t0) = true) ∧ (fencedB s 5 k = false) ∧ (tickRun s = true) :=
  ⟨plHub 0 (fun q => { q with zc := [{ last := some 1000000, periods := List.replicate 8 655360, locked := true, cal := true }, {}, {}], cross := 63, start := some 0, own := some 0, stamps := [1000000] }), 0, 1655360, 1000000, List.replicate 8 655360, by decide +kernel⟩

theorem test_Powerline_6 : ∃ (s : State) (k : Nat), (k < 3) ∧ (s.pl.zc.length = 3) ∧ ((getZc s k).locked = true) ∧ (tickRun s = true) :=
  ⟨plHub 0 (fun q => { q with zc := [{ last := some 1000000, periods := List.replicate 8 655360, locked := true, cal := true }, {}, {}] }), 0, by decide +kernel⟩

theorem test_Powerline_7 : ∃ (s : State) (k : Nat), ((getZc s k).locked = false) :=
  ⟨up, 2, by decide +kernel⟩

theorem test_Powerline_8 : ∃ (s : State) (robust : Bool) (hdr : Nat) (m : List Byte), (plCheck s robust hdr m = 0) :=
  ⟨plHub 0 id, false, 792737808, dataM, by decide +kernel⟩

theorem test_Powerline_9 : ∃ (s : State) (a : List Nat) (b : List Nat) (c : List Nat) (mid : Nat) (rx : List (List Int)) (robust : Bool) (hdr : Nat) (m : List Byte), (plRuns s = true) ∧ ((plWorks s).isEmpty = false) ∧ (lessMid mid [a, b, c] = rx) ∧ (decodeFrame ((plWorks s).map (plHear s rx)) = (robust, hdr, m)) :=
  ⟨plHub 0 id, [2048, 2049], [], [], 2048, lessMid 2048 [[2048, 2049], [], []], (decodeFrame ((plWorks (plHub 0 id)).map (plHear (plHub 0 id) (lessMid 2048 [[2048, 2049], [], []])))).1, (decodeFrame ((plWorks (plHub 0 id)).map (plHear (plHub 0 id) (lessMid 2048 [[2048, 2049], [], []])))).2.1, (decodeFrame ((plWorks (plHub 0 id)).map (plHear (plHub 0 id) (lessMid 2048 [[2048, 2049], [], []])))).2.2, by decide +kernel, by decide +kernel, rfl, by generalize decodeFrame _ = x; rfl⟩

theorem test_Powerline_10 : ∃ (s : State) (k : Nat), (s.pl.zc.length = 3) ∧ (k ∈ plWorks s) :=
  ⟨plHub 0 id, 0, by decide +kernel⟩

theorem test_Powerline_11_1 : ∃ (s : State) (t : State) (robust : Bool) (hdr : Nat) (ago : Nat) (m : List Byte) (body : List Byte), (plReceive robust hdr m ago s = t) ∧ ((m.drop 7).take (m.length - 15) = body) ∧ (hdr.testBit 9 = true) ∧ (hcrc hdr ≠ hdr / 2 ^ 22 % 256) :=
  ⟨plHub 0 (fun q => { q with cross := 100 }), plReceive false ((276832768 + 4194304)) ([]) 2 (plHub 0 (fun q => { q with cross := 100 })), false, (276832768 + 4194304), 2, [], [], rfl, by decide +kernel, by decide +kernel, by decide +kernel⟩

theorem test_Powerline_11_2 : ∃ (s : State) (t : State) (robust : Bool) (hdr : Nat) (ago : Nat) (m : List Byte) (body : List Byte), (plReceive robust hdr m ago s = t) ∧ ((m.drop 7).take (m.length - 15) = body) ∧ (hdr.testBit 9 = false) ∧ (1 ≤ plCheck s robust hdr m) ∧ (plCheck s robust hdr m ≤ 6) :=
  ⟨plHub 0 (fun q => { q with cross := 100 }), plReceive false (792737808) (dataM.set 15 0) 2 (plHub 0 (fun q => { q with cross := 100 })), false, 792737808, 2, dataM.set 15 0, ((dataM.set 15 0).drop 7).take ((dataM.set 15 0).length - 15), rfl, by decide +kernel, by decide +kernel, by decide +kernel, by decide +kernel⟩

theorem test_Powerline_11_3 : ∃ (s : State) (t : State) (robust : Bool) (hdr : Nat) (ago : Nat) (m : List Byte) (body : List Byte), (plReceive robust hdr m ago s = t) ∧ ((m.drop 7).take (m.length - 15) = body) ∧ (hdr.testBit 9 = false) ∧ (plCheck s robust hdr m = 7) :=
  ⟨plHub 0 (fun q => { q with cross := 100, high := List.replicate 33 8 }), plReceive false (792737808) (dataM) 2 (plHub 0 (fun q => { q with cross := 100, high := List.replicate 33 8 })), false, 792737808, 2, dataM, ((dataM).drop 7).take ((dataM).length - 15), rfl, by decide +kernel, by decide +kernel, by decide +kernel⟩

theorem test_Powerline_11_4 : ∃ (s : State) (t : State) (robust : Bool) (hdr : Nat) (ago : Nat) (m : List Byte) (body : List Byte), (plReceive robust hdr m ago s = t) ∧ ((m.drop 7).take (m.length - 15) = body) ∧ (hdr.testBit 9 = false) ∧ (plCheck s robust hdr m = 0) ∧ (fld m 0 1 = 0x17) ∧ (plOpt s 10 = 1) ∧ (s.link.noteCh ≠ 0xFF) ∧ (s.link.noteMask.testBit 13 = true) ∧ (s.link.notes.length < 64) :=
  ⟨{ plHub 0 (fun q => { q with cross := 100 }) with link := { up.link with noteCh := 3, noteMask := 0x2000 } }, plReceive false (792737808) (dataM) 2 ({ plHub 0 (fun q => { q with cross := 100 }) with link := { up.link with noteCh := 3, noteMask := 0x2000 } }), false, 792737808, 2, dataM, ((dataM).drop 7).take ((dataM).length - 15), rfl, by decide +kernel, by decide +kernel, by decide +kernel, by decide +kernel, by decide +kernel, by decide +kernel, by decide +kernel, by decide +kernel⟩

theorem test_Powerline_11_5 : ∃ (s : State) (t : State) (robust : Bool) (hdr : Nat) (ago : Nat) (m : List Byte) (body : List Byte) (j : Nat), (plReceive robust hdr m ago s = t) ∧ ((m.drop 7).take (m.length - 15) = body) ∧ (hdr.testBit 9 = false) ∧ (plCheck s robust hdr m = 0) ∧ (fld m 0 1 = 1) ∧ (budgetRole s = 1) ∧ (s.pl.beaconSrc = none) ∧ (fld body 0 2 = s.lintel.epoch) ∧ ((List.range (fld body 3 1)).find? (fun j => fld body (4 + 7 * j) 1 == hubId s) = some j) :=
  ⟨plHub 1 (fun q => { q with cross := 100 }), plReceive false (935329818) (beaconM) 2 (plHub 1 (fun q => { q with cross := 100 })), false, 935329818, 2, beaconM, ((beaconM).drop 7).take ((beaconM).length - 15), 0, rfl, by decide +kernel, by decide +kernel, by decide +kernel, by decide +kernel, by decide +kernel, by decide +kernel, by decide +kernel, by decide +kernel⟩

theorem test_Powerline_11_6 : ∃ (s : State) (t : State) (robust : Bool) (hdr : Nat) (ago : Nat) (m : List Byte) (body : List Byte), (plReceive robust hdr m ago s = t) ∧ ((m.drop 7).take (m.length - 15) = body) ∧ (hdr.testBit 9 = false) ∧ (plCheck s robust hdr m = 0) ∧ (fld m 0 1 = 2) ∧ (budgetRole s = 2) ∧ (fld body 0 2 = s.lintel.epoch) ∧ (fld body 9 1 = 0) :=
  ⟨plHub 2 (fun q => { q with cross := 100 }), plReceive false (763367451) (demandM) 2 (plHub 2 (fun q => { q with cross := 100 })), false, 763367451, 2, demandM, ((demandM).drop 7).take ((demandM).length - 15), rfl, by decide +kernel, by decide +kernel, by decide +kernel, by decide +kernel, by decide +kernel, by decide +kernel, by decide +kernel⟩

theorem test_Powerline_11_7 : ∃ (s : State) (t : State) (robust : Bool) (hdr : Nat) (ago : Nat) (m : List Byte) (body : List Byte) (f : TxFrame) (rest : List TxFrame), (plReceive robust hdr m ago s = t) ∧ ((m.drop 7).take (m.length - 15) = body) ∧ (hdr.testBit 9 = true) ∧ (hcrc hdr = hdr / 2 ^ 22 % 256) ∧ (hdr % 512 = 0) ∧ (robust = false) ∧ (s.pl.queue = f :: rest) ∧ (f.sentAt.isSome = true) ∧ (f.fcnt % 4096 = hdr / 1024 % 4096) :=
  ⟨plHub 2 (fun q => { q with cross := 100, queue := [{ ty := 7, fcnt := 8, sentAt := some 98 }, { ty := 5 }] }), plReceive false (276832768) ([]) 2 (plHub 2 (fun q => { q with cross := 100, queue := [{ ty := 7, fcnt := 8, sentAt := some 98 }, { ty := 5 }] })), false, 276832768, 2, [], [], { ty := 7, fcnt := 8, sentAt := some 98 }, [{ ty := 5 }], rfl, by decide +kernel, by decide +kernel, by decide +kernel, by decide +kernel, by decide +kernel, by decide +kernel, by decide +kernel, by decide +kernel⟩

theorem test_Powerline_12_1 : ∃ (s : State), (plRuns s = false) :=
  ⟨{ up with eg := { up.eg with pfailTick := some 1 } }, by decide +kernel⟩

theorem test_Powerline_12_2 : ∃ (s : State), (plRuns s = true) ∧ ((plWorks s).isEmpty = true) :=
  ⟨{ plHub 0 id with boot := { up.boot with ready := up.boot.ready &&& ~~~(1#64 <<< rPL) } }, by decide +kernel⟩

theorem test_Powerline_13 : ∃ (s : State), (sfPos s = none ∨ s.pl.txAt = some s.pl.cross) :=
  ⟨up, by decide +kernel⟩

theorem test_Powerline_14_1 : ∃ (s : State) (pos : Nat) (info : Nat), (sfPos s = some pos) ∧ (plRuns s = true) ∧ (plUp s = true) ∧ (s.pl.txAt ≠ some s.pl.cross) ∧ (s.pl.ack = some (info, s.pl.cross)) :=
  ⟨plHub 0 (fun q => { q with start := some 100, cross := 129, ack := some (8, 129) }), 29, 8, by decide +kernel⟩

theorem test_Powerline_14_2 : ∃ (s : State) (pos : Nat) (info : Nat) (at_ : Nat), (sfPos s = some pos) ∧ (plRuns s = true) ∧ (plUp s = true) ∧ (s.pl.txAt ≠ some s.pl.cross) ∧ (s.pl.ack = some (info, at_)) ∧ (s.pl.cross < at_) :=
  ⟨plHub 0 (fun q => { q with start := some 100, cross := 129, ack := some (8, 131) }), 29, 8, 131, by decide +kernel⟩

theorem test_Powerline_14_3 : ∃ (s : State) (pos : Nat) (f : TxFrame) (rest : List TxFrame) (tg : List Byte), (sfPos s = some pos) ∧ (plRuns s = true) ∧ (plUp s = true) ∧ (s.pl.txAt ≠ some s.pl.cross) ∧ (ackDue s s.pl.cross = none) ∧ (hubPair pos = true) ∧ (s.pl.queue = f :: rest) ∧ (f.sentAt = none) ∧ (f.skip = 0) ∧ (f.ready + 8 ≤ now s) ∧ (plTag s f.mpdu = some tg) ∧ (f.ackReq = true) :=
  ⟨plHub 0 (fun q => { q with start := some 100, cross := 128, queue := [{ ty := 7, mpdu := [0x17, 9, 5, 1, 0, 0, 0, 0x41], fcnt := 1, ackReq := true, ready := 1 }] }), 28, { ty := 7, mpdu := [0x17, 9, 5, 1, 0, 0, 0, 0x41], fcnt := 1, ackReq := true, ready := 1 }, [], ((plTag (plHub 0 id) ([0x17, 9, 5, 1, 0, 0, 0, 0x41])).getD []), by decide +kernel⟩

theorem test_Powerline_14_4 : ∃ (s : State) (pos : Nat) (u : State) (tg : List Byte), (sfPos s = some pos) ∧ (plRuns s = true) ∧ (plUp s = true) ∧ (s.pl.txAt ≠ some s.pl.cross) ∧ (superframeStart s = u) ∧ (ackDue s s.pl.cross = none) ∧ (pos = 0) ∧ (budgetRole s = 2) ∧ (hubId s ≤ 12) ∧ (s.lintel.conflict = 0) ∧ (plTag s ([1, byteOf (hubId s), 0xFF] ++ le 4 s.pl.fcnt ++ beaconBody u) = some tg) :=
  ⟨plHub 2 (fun q => { q with start := some 100, cross := 164 }), 0, superframeStart (plHub 2 (fun q => { q with start := some 100, cross := 164 })), ((plTag (plHub 2 (fun q => { q with start := some 100, cross := 164 })) ([1, 9, 0xFF] ++ le 4 1 ++ beaconBody (superframeStart (plHub 2 (fun q => { q with start := some 100, cross := 164 }))))).getD []), by decide +kernel, by decide +kernel, by decide +kernel, by decide +kernel, rfl, by decide +kernel, by decide +kernel, by decide +kernel, by decide +kernel, by decide +kernel, by decide +kernel⟩

theorem test_Powerline_14_5 : ∃ (s : State) (pos : Nat) (tg : List Byte), (sfPos s = some pos) ∧ (plRuns s = true) ∧ (plUp s = true) ∧ (s.pl.txAt ≠ some s.pl.cross) ∧ (ackDue s s.pl.cross = none) ∧ (pos = 2 + 2 * hubId s) ∧ (budgetRole s = 1) ∧ (hubId s ≤ 12) ∧ (s.pl.src ≠ 0) ∧ (plTag s ([2, byteOf (hubId s), 0xFF] ++ le 4 s.pl.fcnt ++ demandBody s) = some tg) :=
  ⟨plHub 1 (fun q => { q with start := some 100, cross := 120, src := 1, leaving := true }), 20, ((plTag (plHub 1 (fun q => { q with start := some 100, cross := 120, src := 1, leaving := true })) ([2, 9, 0xFF] ++ le 4 1 ++ demandBody (plHub 1 (fun q => { q with start := some 100, cross := 120, src := 1, leaving := true })))).getD []), by decide +kernel⟩

theorem test_Powerline_15_1 : ∃ (s : State) (f : TxFrame) (rest : List TxFrame) (n : Nat), (s.pl.queue = f :: rest) ∧ (f.sentAt = some n) ∧ (n + 4 ≤ s.pl.cross) ∧ (4 ≤ f.sent) :=
  ⟨plHub 0 (fun q => { q with cross := 100, queue := [{ ty := 5, fcnt := 3, sent := 4, sentAt := some 96 }] }), { ty := 5, fcnt := 3, sent := 4, sentAt := some 96 }, [], 96, by decide +kernel⟩

theorem test_Powerline_15_2 : ∃ (s : State) (f : TxFrame) (rest : List TxFrame) (n : Nat), (s.pl.queue = f :: rest) ∧ (f.sentAt = some n) ∧ (n + 4 ≤ s.pl.cross) ∧ (f.sent < 4) :=
  ⟨plHub 0 (fun q => { q with cross := 100, queue := [{ ty := 5, fcnt := 3, sent := 3, sentAt := some 96 }, {}] }), { ty := 5, fcnt := 3, sent := 3, sentAt := some 96 }, [{}], 96, by decide +kernel⟩

theorem test_Powerline_16 : ∃ (s : State), ((s.pl.queue.head?.bind TxFrame.sentAt) = none) :=
  ⟨up, by decide +kernel⟩

theorem test_Powerline_17 : ∃ (a : List (List Nat)) (mid : Nat) (rx : List (List Int)), (lessMid mid a = rx) :=
  ⟨[[2048, 2049]], 2048, [[0, 1]], by decide +kernel⟩

theorem test_Powerline_18 : ∃ (s : State) (t : State) (rx : List (List Int)) (hdr : Nat) (m : List Byte), (wakeHeard (true, hdr, m) rx s = t) ∧ (s.pw.mode = 2) ∧ (s.pl.kept = none) ∧ (s.clk.plRun = true) ∧ (s.pl.window ≠ none) ∧ ((plWorks s).isEmpty = false) ∧ (hcrc hdr = hdr / 2 ^ 22 % 256) ∧ (hdr % 512 = 15) ∧ (s.pw.last.mask.testBit 3 = true) ∧ ((s.pw.fired.any fun f => f.1 == 3) = false) :=
  ⟨{ plHub 0 (fun q => { q with start := some 100, cross := 101, window := some 1000000 }) with pw := { up.pw with mode := 2, last := { mask := 8 } } }, wakeHeard (true, 750781455, []) [[1]] ({ plHub 0 (fun q => { q with start := some 100, cross := 101, window := some 1000000 }) with pw := { up.pw with mode := 2, last := { mask := 8 } } }), [[1]], 750781455, [], rfl, by decide +kernel, by decide +kernel, by decide +kernel, by decide +kernel, by decide +kernel, by decide +kernel, by decide +kernel, by decide +kernel⟩

theorem test_Powerline_19 : ∃ (s : State) (a : List (List Nat)) (mid : Nat) (rx : List (List Int)), (lessMid mid a = rx) ∧ (s.pw.mode ≠ 2 ∨ s.pl.kept ≠ none ∨ wakeOpen s = false ∨ s.pw.last.mask.testBit 3 = false ∨ (wakeDecode s rx).1 = false ∨ (wakeDecode s rx).2.1 % 512 ≠ 15) :=
  ⟨up, [[2048, 2049]], 2048, [[0, 1]], by decide +kernel⟩

theorem test_Update_1_1 : ∃ (s : State) (ch : Nat) (c : Nat) (m : List Byte), (Asked s ch 0x1001 (len 324)) ∧ (rdy s rAP = true) ∧ (asks s ch 0 1 = c) ∧ (1 ≤ c) ∧ (c ≤ 5) ∧ ((reqPayload s ch).drop 4 = m) ∧ (s.upd.st = 0 ∨ (s.upd.st = 4 ∧ s.upd.image = c)) ∧ (manCheck s c m (otherImgs s c) = 0x0200) :=
  ⟨ask 5 0x1001 ([4, 0, 0, 0] ++ man4) (upd4 4), 5, 4, man4, by decide +kernel⟩

theorem test_Update_1_2 : ∃ (s : State) (ch : Nat) (c : Nat) (m : List Byte), (Asked s ch 0x1001 (len 324)) ∧ (rdy s rAP = true) ∧ (asks s ch 0 1 = c) ∧ (1 ≤ c) ∧ (c ≤ 5) ∧ ((reqPayload s ch).drop 4 = m) ∧ (s.upd.st = 0 ∨ (s.upd.st = 4 ∧ s.upd.image = c)) ∧ (manCheck s c m (otherImgs s c) ≠ 0x0200) :=
  ⟨ask 5 0x1001 ([4, 0, 0, 0] ++ zeros 320) (updS), 5, 4, zeros 320, by decide +kernel⟩

theorem test_Update_1_3 : ∃ (s : State) (ch : Nat) (c : Nat) (m : List Byte), (Asked s ch 0x1001 (len 324)) ∧ (rdy s rAP = true) ∧ (asks s ch 0 1 = c) ∧ (1 ≤ c) ∧ (c ≤ 5) ∧ ((reqPayload s ch).drop 4 = m) ∧ (1 ≤ s.upd.st) ∧ (s.upd.st ≤ 3 ∨ s.upd.image ≠ c) :=
  ⟨ask 5 0x1001 ([4, 0, 0, 0] ++ man4) (upd4 3), 5, 4, man4, by decide +kernel⟩

theorem test_Update_2_1 : ∃ (s : State) (ch : Nat) (c : Nat) (n : Nat) (d : List Byte), (Asked s ch 0x1002 (fun k => decide (8 ≤ k ∧ k ≤ 2008))) ∧ (asks s ch 0 1 = c) ∧ (1 ≤ c) ∧ (c ≤ 5) ∧ (asks s ch 2 2 = n) ∧ (reqLen s ch = 8 + n) ∧ ((reqPayload s ch).drop 8 = d) ∧ (s.upd.image = c) ∧ (asks s ch 1 1 = 1) ∧ (1 ≤ n) ∧ (n ≤ 2000) ∧ (s.upd.st ≠ 1) :=
  ⟨ask 5 0x1002 ([4, 1] ++ le 2 1 ++ le 4 2 ++ [7]) (upd4 2), 5, 4, 1, [7], by decide +kernel⟩

theorem test_Update_2_2 : ∃ (s : State) (ch : Nat) (c : Nat) (n : Nat) (d : List Byte), (Asked s ch 0x1002 (fun k => decide (8 ≤ k ∧ k ≤ 2008))) ∧ (asks s ch 0 1 = c) ∧ (1 ≤ c) ∧ (c ≤ 5) ∧ (asks s ch 2 2 = n) ∧ (reqLen s ch = 8 + n) ∧ ((reqPayload s ch).drop 8 = d) ∧ (s.upd.image = c) ∧ (asks s ch 1 1 = 1) ∧ (1 ≤ n) ∧ (n ≤ 2000) ∧ (s.upd.st = 1) ∧ (asks s ch 4 4 ≠ s.upd.img.seq) :=
  ⟨ask 5 0x1002 ([4, 1] ++ le 2 1 ++ le 4 3 ++ [7]) ({ updS with upd := { st := 1, image := 4, img := { man := man4, seq := 2 } } }), 5, 4, 1, [7], by decide +kernel⟩

theorem test_Update_2_3 : ∃ (s : State) (ch : Nat) (c : Nat) (n : Nat) (d : List Byte), (Asked s ch 0x1002 (fun k => decide (8 ≤ k ∧ k ≤ 2008))) ∧ (asks s ch 0 1 = c) ∧ (1 ≤ c) ∧ (c ≤ 5) ∧ (asks s ch 2 2 = n) ∧ (reqLen s ch = 8 + n) ∧ ((reqPayload s ch).drop 8 = d) ∧ (s.upd.image = c) ∧ (asks s ch 1 1 = 1) ∧ (1 ≤ n) ∧ (n ≤ 2000) ∧ (s.upd.st = 1) ∧ (asks s ch 4 4 = s.upd.img.seq) ∧ (s.upd.img.hdr = []) ∧ (s.upd.img.out.length + n ≤ manLen s.upd.img.man) :=
  ⟨ask 5 0x1002 ([4, 1] ++ le 2 1 ++ le 4 2 ++ [7]) ({ updS with upd := { st := 1, image := 4, img := { man := man4, seq := 2 } } }), 5, 4, 1, [7], by decide +kernel⟩

theorem test_Update_2_4 : ∃ (s : State) (ch : Nat) (c : Nat) (n : Nat) (d : List Byte), (Asked s ch 0x1002 (fun k => decide (8 ≤ k ∧ k ≤ 2008))) ∧ (asks s ch 0 1 = c) ∧ (1 ≤ c) ∧ (c ≤ 5) ∧ (asks s ch 2 2 = n) ∧ (reqLen s ch = 8 + n) ∧ ((reqPayload s ch).drop 8 = d) ∧ (s.upd.image = c) ∧ (asks s ch 1 1 = 1) ∧ (1 ≤ n) ∧ (n ≤ 2000) ∧ (s.upd.st = 1) ∧ (asks s ch 4 4 = s.upd.img.seq) ∧ (s.upd.img.hdr = []) ∧ (manLen s.upd.img.man < s.upd.img.out.length + n) :=
  ⟨ask 5 0x1002 ([4, 1] ++ le 2 2 ++ le 4 2 ++ [7, 7]) ({ updS with upd := { st := 1, image := 4, img := { man := man4, seq := 2 } } }), 5, 4, 2, [7, 7], by decide +kernel⟩

theorem test_Update_2_5 : ∃ (s : State) (ch : Nat) (c : Nat) (n : Nat) (d : List Byte), (Asked s ch 0x1002 (fun k => decide (8 ≤ k ∧ k ≤ 2008))) ∧ (asks s ch 0 1 = c) ∧ (1 ≤ c) ∧ (c ≤ 5) ∧ (asks s ch 2 2 = n) ∧ (reqLen s ch = 8 + n) ∧ ((reqPayload s ch).drop 8 = d) ∧ (s.upd.image = c) ∧ (asks s ch 1 1 = 2) ∧ (1 ≤ n) ∧ (n ≤ 2000) ∧ (s.upd.st = 1) ∧ (c = 2 ∨ c = 3) :=
  ⟨ask 5 0x1002 ([2, 2] ++ le 2 1 ++ le 4 2 ++ [7]) ({ updS with upd := { st := 1, image := 2, img := { man := man4, seq := 2 } } }), 5, 2, 1, [7], by decide +kernel⟩

theorem test_Update_2_6 : ∃ (s : State) (ch : Nat) (c : Nat) (n : Nat) (d : List Byte), (Asked s ch 0x1002 (fun k => decide (8 ≤ k ∧ k ≤ 2008))) ∧ (asks s ch 0 1 = c) ∧ (1 ≤ c) ∧ (c ≤ 5) ∧ (asks s ch 2 2 = n) ∧ (reqLen s ch = 8 + n) ∧ ((reqPayload s ch).drop 8 = d) ∧ (s.upd.image = c) ∧ (asks s ch 1 1 = 4) ∧ (n = 0) ∧ (s.upd.st = 1) ∧ (asks s ch 4 4 = s.upd.img.seq) ∧ (deltaOpen s.upd.img = false) ∧ (s.upd.img.ins = 0) ∧ (s.upd.img.part = []) ∧ (s.upd.img.out.length = manLen s.upd.img.man) :=
  ⟨ask 5 0x1002 ([4, 4] ++ le 2 0 ++ le 4 2 ++ ([] : List Byte)) (upd4 1), 5, 4, 0, ([] : List Byte), by decide +kernel⟩

theorem test_Update_3_1 : ∃ (s : State) (ch : Nat) (c : Nat), (Asked s ch 0x1003 (len 4)) ∧ (asks s ch 0 1 = c) ∧ (1 ≤ c) ∧ (c ≤ 5) ∧ (s.upd.st ≠ 2) :=
  ⟨ask 5 0x1003 [4, 0, 0, 0] (upd4 1), 5, 4, by decide +kernel⟩

theorem test_Update_3_2 : ∃ (s : State) (ch : Nat) (c : Nat), (Asked s ch 0x1003 (len 4)) ∧ (asks s ch 0 1 = c) ∧ (1 ≤ c) ∧ (c ≤ 5) ∧ (s.upd.st = 2) ∧ (s.upd.image = c) ∧ (c = 2) ∧ (ksIdle s = false) :=
  ⟨ask 5 0x1003 [2, 0, 0, 0] (at23 (fun q => { q with ct := { q.ct with chs := true } }) ({ updS with upd := { st := 2, image := 2, img := { man := man4, out := [7] } }  })), 5, 2, by decide +kernel⟩

theorem test_Update_3_3 : ∃ (s : State) (ch : Nat) (c : Nat), (Asked s ch 0x1003 (len 4)) ∧ (asks s ch 0 1 = c) ∧ (1 ≤ c) ∧ (c ≤ 5) ∧ (s.upd.st = 2) ∧ (s.upd.image = c) ∧ ((c = 2 → ksIdle s = true)) ∧ (s.eg.pfailTick.isSome = true) :=
  ⟨ask 5 0x1003 [4, 0, 0, 0] ({ updS with upd := { st := 2, image := 4, img := { man := man4, out := [7] } } , eg := { up.eg with pfailTick := some 1 } }), 5, 4, by decide +kernel⟩

theorem test_Update_3_4 : ∃ (s : State) (ch : Nat) (c : Nat), (Asked s ch 0x1003 (len 4)) ∧ (asks s ch 0 1 = c) ∧ (1 ≤ c) ∧ (c ≤ 5) ∧ (s.upd.st = 2) ∧ (s.upd.image = c) ∧ (c = 3) ∧ (s.eg.pfailTick = none) ∧ (sealPort s = false) :=
  ⟨ask 5 0x1003 [3, 0, 0, 0] ({ updS with upd := { st := 2, image := 3, img := { man := man4, out := [7] } }  }), 5, 3, by decide +kernel⟩

theorem test_Update_3_5 : ∃ (s : State) (ch : Nat) (c : Nat), (Asked s ch 0x1003 (len 4)) ∧ (asks s ch 0 1 = c) ∧ (1 ≤ c) ∧ (c ≤ 5) ∧ (s.upd.st = 2) ∧ (s.upd.image = c) ∧ (c ≠ 3) ∧ (s.eg.pfailTick = none) ∧ (s.boot.imgs.length = 5) ∧ (s.ports.length = 24) ∧ (c = 2) ∧ (ksIdle s = true) ∧ (updCheck s = 0x0200) :=
  ⟨ask 5 0x1003 [2, 0, 0, 0] ({ updS with boot := { updS.boot with imgs := (List.range 5).map fun k => { st := .active, man := ((zeros 320).set 6 (byteOf (k + 1))).set 64 2 } }, upd := { st := 2, image := 2, img := { man := (man4.set 6 2).set 72 4, out := [7] } } }), 5, 2, by decide +kernel⟩

theorem test_Update_3_6_1 : ∃ (s : State) (ch : Nat) (c : Nat), (Asked s ch 0x1003 (len 4)) ∧ (asks s ch 0 1 = c) ∧ (1 ≤ c) ∧ (c ≤ 5) ∧ (s.upd.st = 2) ∧ (s.upd.image = c) ∧ (c = 1 ∨ c = 4 ∨ c = 5) ∧ (s.eg.pfailTick = none) ∧ (s.boot.imgs.length = 5) ∧ ((c = 5 → s.qr.ops = [])) ∧ ((c = 1 → ∀ k, k < 8 → k = ch ∨ (chan s k).st ≠ .inService)) ∧ (updCheck s = 0x0200) :=
  ⟨ask 5 0x1003 [4, 0, 0, 0] (upd4 2), 5, 4, by decide +kernel⟩

theorem test_Update_3_6_2 : ∃ (s : State) (ch : Nat) (c : Nat), (Asked s ch 0x1003 (len 4)) ∧ (asks s ch 0 1 = c) ∧ (1 ≤ c) ∧ (c ≤ 5) ∧ (s.upd.st = 2) ∧ (s.upd.image = c) ∧ (c = 1 ∨ c = 4 ∨ c = 5) ∧ (s.eg.pfailTick = none) ∧ (s.boot.imgs.length = 5) ∧ ((c = 5 → s.qr.ops = [])) ∧ ((c = 1 → ∀ k, k < 8 → k = ch ∨ (chan s k).st ≠ .inService)) ∧ (updCheck s ≠ 0x0200) :=
  ⟨ask 5 0x1003 [4, 0, 0, 0] ({ updS with upd := { st := 2, image := 4, img := { man := man4, out := [8] } }  }), 5, 4, by decide +kernel⟩

theorem test_Update_3_7 : ∃ (s : State) (ch : Nat) (c : Nat), (Asked s ch 0x1003 (len 4)) ∧ (asks s ch 0 1 = c) ∧ (1 ≤ c) ∧ (c ≤ 5) ∧ (s.upd.st = 2) ∧ (s.upd.image = c) ∧ (s.eg.pfailTick = none) ∧ ((c = 5 ∧ s.qr.ops ≠ []) ∨ (c = 1 ∧ ∃ k, k < 8 ∧ k ≠ ch ∧ (chan s k).st = .inService)) :=
  ⟨ask 5 0x1003 [5, 0, 0, 0] ({ updS with upd := { st := 2, image := 5, img := { man := man4, out := [7] } }, qr := { up.qr with ops := [{}] } }), 5, 5, by decide +kernel⟩

theorem test_Update_3_8 : ∃ (s : State) (ch : Nat) (c : Nat), (Asked s ch 0x1003 (len 4)) ∧ (asks s ch 0 1 = c) ∧ (1 ≤ c) ∧ (c ≤ 5) ∧ (s.upd.st = 2) ∧ (s.upd.image = c) ∧ (c = 3) ∧ (s.eg.pfailTick = none) ∧ (sealPort s = true) ∧ (updCheck s ≠ 0x0200) :=
  ⟨ask 5 0x1003 [3, 0, 0, 0] ({ updS with sealIn := { up.sealIn with port := true }, upd := { st := 2, image := 3, img := { man := man4, out := [8] } } }), 5, 3, by decide +kernel⟩

theorem test_Update_3_9 : ∃ (s : State) (ch : Nat) (c : Nat), (Asked s ch 0x1003 (len 4)) ∧ (asks s ch 0 1 = c) ∧ (1 ≤ c) ∧ (c ≤ 5) ∧ (s.upd.st = 2) ∧ (s.upd.image = c) ∧ (c = 3) ∧ (s.eg.pfailTick = none) ∧ (sealPort s = true) ∧ (s.cairn.queue = []) ∧ (updCheck s = 0x0200) :=
  ⟨ask 5 0x1003 [3, 0, 0, 0] ({ updS with sealIn := { up.sealIn with port := true }, boot := { updS.boot with imgs := (List.range 5).map fun k => { st := .active, man := ((zeros 320).set 6 (byteOf (k + 1))).set 64 3 } }, upd := { st := 2, image := 3, img := { man := (man4.set 6 3).set 80 4, out := [7] } } }), 5, 3, by decide +kernel⟩

theorem test_Update_4_1 : ∃ (s : State) (ch : Nat) (c : Nat), (s.boot.held = c) ∧ (1 ≤ c) ∧ (c ≤ 5) ∧ (c ≠ 3) ∧ (s.upd.ch = some ch) ∧ ((chan s ch).st = .inService) ∧ (ch < 8) ∧ ((c = 2 → ksReady { s with boot := { s.boot with held := 0 } } = true)) ∧ (s.upd.outcome = 0) :=
  ⟨setChan 5 .inService (ask 5 0x1003 [4, 0, 0, 0] { updS with boot := { updS.boot with held := 4, ready := 0 }, upd := { st := 4, image := 4, ch := some 5, outcome := 0, lastCode := 0x20F } }), 5, 4, by decide +kernel⟩

theorem test_Update_4_2 : ∃ (s : State) (ch : Nat) (c : Nat), (s.boot.held = c) ∧ (1 ≤ c) ∧ (c ≤ 5) ∧ (c ≠ 3) ∧ (s.upd.ch = some ch) ∧ ((chan s ch).st = .inService) ∧ (ch < 8) ∧ ((c = 2 → ksReady { s with boot := { s.boot with held := 0 } } = true)) ∧ (s.upd.outcome = 1) :=
  ⟨setChan 5 .inService (ask 5 0x1003 [4, 0, 0, 0] { updS with boot := { updS.boot with held := 4, ready := 0 }, upd := { st := 4, image := 4, ch := some 5, outcome := 1, lastCode := 0x20F } }), 5, 4, by decide +kernel⟩

theorem test_Update_5 : ∃ (s : State), (s.boot.held = 2) ∧ (ksReady { s with boot := { s.boot with held := 0 } } = false) :=
  ⟨{ State.reset with boot := { State.reset.boot with held := 2 } }, by decide +kernel⟩

theorem test_Update_6 : ∃ (s : State), (s.boot.held = 0) :=
  ⟨up, by decide +kernel⟩

theorem test_Update_7_1 : ∃ (s : State) (ch : Nat) (c : Nat) (before : Nat) (goal : Nat), (Asked s ch 0x1004 (len 4)) ∧ (asks s ch 0 1 = c) ∧ (1 ≤ c) ∧ (c ≤ 5) ∧ (nth s.otp.floors (c - 1) 0 = before) ∧ (before ≤ 64) ∧ (s.otp.floors.length = 5) ∧ (max before (min 64 (manEpoch (getImg s c).man)) = goal) ∧ (1 ≤ s.upd.st) ∧ (s.upd.st ≤ 3 ∨ s.upd.image ≠ c) :=
  ⟨ask 5 0x1004 [4, 0, 0, 0] (upd4 2), 5, 4, 0, 0, by decide +kernel⟩

theorem test_Update_7_2 : ∃ (s : State) (ch : Nat) (c : Nat) (before : Nat) (goal : Nat), (Asked s ch 0x1004 (len 4)) ∧ (asks s ch 0 1 = c) ∧ (1 ≤ c) ∧ (c ≤ 5) ∧ (nth s.otp.floors (c - 1) 0 = before) ∧ (before ≤ 64) ∧ (s.otp.floors.length = 5) ∧ (max before (min 64 (manEpoch (getImg s c).man)) = goal) ∧ (s.upd.st = 0 ∨ (s.upd.st = 4 ∧ s.upd.image = c)) ∧ (s.eg.pfailTick.isSome = true) :=
  ⟨ask 5 0x1004 [4, 0, 0, 0] ({ updS with eg := { up.eg with pfailTick := some 1 } }), 5, 4, 0, 0, by decide +kernel⟩

theorem test_Update_7_3 : ∃ (s : State) (ch : Nat) (c : Nat) (before : Nat) (goal : Nat) (blown : Nat), (Asked s ch 0x1004 (len 4)) ∧ (asks s ch 0 1 = c) ∧ (1 ≤ c) ∧ (c ≤ 5) ∧ (nth s.otp.floors (c - 1) 0 = before) ∧ (before ≤ 64) ∧ (s.otp.floors.length = 5) ∧ (max before (min 64 (manEpoch (getImg s c).man)) = goal) ∧ (s.upd.st = 0 ∨ (s.upd.st = 4 ∧ s.upd.image = c)) ∧ (s.eg.pfailTick = none) ∧ (rdy s (imgRdy c) = true) ∧ (goal ≤ before + blown) :=
  ⟨ask 5 0x1004 [4, 0, 0, 0] ({ updS with boot := { updS.boot with imgs := (List.replicate 3 { st := .active }) ++ [{ st := .active, man := man4.set 12 64 }, {}] } , upd := { st := 4, image := 4 } }), 5, 4, 0, 64, 64, by decide +kernel⟩

theorem test_Update_7_4 : ∃ (s : State) (ch : Nat) (c : Nat) (before : Nat) (goal : Nat) (blown : Nat), (Asked s ch 0x1004 (len 4)) ∧ (asks s ch 0 1 = c) ∧ (1 ≤ c) ∧ (c ≤ 5) ∧ (nth s.otp.floors (c - 1) 0 = before) ∧ (before ≤ 64) ∧ (s.otp.floors.length = 5) ∧ (max before (min 64 (manEpoch (getImg s c).man)) = goal) ∧ (s.upd.st = 0 ∨ (s.upd.st = 4 ∧ s.upd.image = c)) ∧ (s.eg.pfailTick = none) ∧ (rdy s (imgRdy c) = true) ∧ (before + blown < goal) :=
  ⟨ask 5 0x1004 [4, 0, 0, 0] ({ updS with boot := { updS.boot with imgs := (List.replicate 3 { st := .active }) ++ [{ st := .active, man := man4.set 12 64 }, {}] }  }), 5, 4, 0, 64, 63, by decide +kernel⟩

theorem test_Update_8_1 : ∃ (s : State) (ch : Nat) (c : Nat), (Asked s ch 0x1005 (len 4)) ∧ (asks s ch 0 1 = c) ∧ (s.upd.st = 0) :=
  ⟨ask 5 0x1005 [4, 0, 0, 0] (up), 5, 4, by decide +kernel⟩

theorem test_Update_8_2 : ∃ (s : State) (ch : Nat) (c : Nat), (Asked s ch 0x1005 (len 4)) ∧ (asks s ch 0 1 = c) ∧ (1 ≤ s.upd.st) ∧ (s.upd.image ≠ c) :=
  ⟨ask 5 0x1005 [5, 0, 0, 0] (upd4 1), 5, 5, by decide +kernel⟩

theorem test_Update_8_3 : ∃ (s : State) (ch : Nat) (c : Nat), (Asked s ch 0x1005 (len 4)) ∧ (asks s ch 0 1 = c) ∧ (3 ≤ s.upd.st) ∧ (s.upd.image = c) :=
  ⟨ask 5 0x1005 [4, 0, 0, 0] (upd4 3), 5, 4, by decide +kernel⟩

theorem test_Update_8_4 : ∃ (s : State) (ch : Nat) (c : Nat), (Asked s ch 0x1005 (len 4)) ∧ (asks s ch 0 1 = c) ∧ (s.upd.st = 1 ∨ s.upd.st = 2) ∧ (s.upd.image = c) :=
  ⟨ask 5 0x1005 [4, 0, 0, 0] (upd4 2), 5, 4, by decide +kernel⟩

theorem test_Update_9 : ∃ (s : State) (c : Nat), (Asked s c 0x1006 (len 0)) ∧ (rdy s rAP = true) :=
  ⟨ask 7 0x1006 [] updS, 7, by decide +kernel⟩

theorem test_Display_1 : ∃ (s : State) (c : Nat), (Asked s c 0x1301 (len 0)) ∧ (rdy s rDisp = true ∨ dispFenced s = true) :=
  ⟨ask 7 0x1301 [] (dispS id), 7, by decide +kernel⟩

theorem test_Display_2_1 : ∃ (s : State) (c : Nat) (a : Nat), (Asked s c 0x1302 (len 4)) ∧ (rdy s rDisp = true) ∧ (asks s c 0 1 = a) ∧ (a ≤ 3) ∧ (dispFenced s = true) :=
  ⟨ask 7 0x1302 [0, 0, 0, 0] ({ fenceNow 7 0 true 0 0 up with boot := up.boot }), 7, 0, by decide +kernel⟩

theorem test_Display_2_2 : ∃ (s : State) (c : Nat) (a : Nat), (Asked s c 0x1302 (len 4)) ∧ (rdy s rDisp = true) ∧ (asks s c 0 1 = a) ∧ (a ≤ 3) ∧ (dispFenced s = false) ∧ (s.disp.mode = 3) :=
  ⟨ask 7 0x1302 [1, 0, 0, 0] (dispS (fun d => { d with mode := 3 })), 7, 1, by decide +kernel⟩

theorem test_Display_2_3 : ∃ (s : State) (c : Nat) (a : Nat), (Asked s c 0x1302 (len 4)) ∧ (rdy s rDisp = true) ∧ (asks s c 0 1 = a) ∧ (a ≤ 3) ∧ (dispFenced s = false) ∧ (s.disp.mode ≠ 3) ∧ (a = 3) ∧ (dispFormat s = 0) :=
  ⟨ask 7 0x1302 [3, 0, 0, 0] (dispS id), 7, 3, by decide +kernel⟩

theorem test_Display_2_4 : ∃ (s : State) (c : Nat) (a : Nat), (Asked s c 0x1302 (len 4)) ∧ (rdy s rDisp = true) ∧ (asks s c 0 1 = a) ∧ (a ≤ 3) ∧ (dispFenced s = false) ∧ (s.disp.mode = 2) ∧ (a = 0 ∨ a = 2 ∨ (a = 3 ∧ dispFormat s ≠ 0)) :=
  ⟨ask 7 0x1302 [0, 0, 0, 0] (dispS id), 7, 0, by decide +kernel⟩

theorem test_Display_2_5 : ∃ (s : State) (c : Nat) (a : Nat), (Asked s c 0x1302 (len 4)) ∧ (rdy s rDisp = true) ∧ (asks s c 0 1 = a) ∧ (a ≤ 3) ∧ (dispFenced s = false) ∧ (s.disp.mode = 1) ∧ (a = 0) :=
  ⟨ask 7 0x1302 [0, 0, 0, 0] (dispS (fun d => { d with mode := 1 })), 7, 0, by decide +kernel⟩

theorem test_Display_2_6 : ∃ (s : State) (c : Nat) (a : Nat), (Asked s c 0x1302 (len 4)) ∧ (rdy s rDisp = true) ∧ (asks s c 0 1 = a) ∧ (a ≤ 3) ∧ (dispFenced s = false) ∧ (s.disp.mode = 0) ∧ (a = 1) :=
  ⟨ask 7 0x1302 [1, 0, 0, 0] (dispS (fun d => { d with mode := 0, hostOff := true })), 7, 1, by decide +kernel⟩

theorem test_Display_2_7 : ∃ (s : State) (c : Nat) (a : Nat), (Asked s c 0x1302 (len 4)) ∧ (rdy s rDisp = true) ∧ (asks s c 0 1 = a) ∧ (a ≤ 3) ∧ (dispFenced s = false) ∧ (s.disp.mode ≤ 1) ∧ (a = 2 ∨ (a = 3 ∧ dispFormat s ≠ 0)) :=
  ⟨ask 7 0x1302 [2, 0, 0, 0] (dispS (fun d => { d with mode := 0 })), 7, 2, by decide +kernel⟩

theorem test_Display_2_8 : ∃ (s : State) (c : Nat) (a : Nat), (Asked s c 0x1302 (len 4)) ∧ (rdy s rDisp = true) ∧ (asks s c 0 1 = a) ∧ (a ≤ 3) ∧ (dispFenced s = false) ∧ (s.disp.mode = 0) ∧ (a = 0) :=
  ⟨ask 7 0x1302 [0, 0, 0, 0] (dispS (fun d => { d with mode := 0 })), 7, 0, by decide +kernel⟩

theorem test_Display_2_9 : ∃ (s : State) (c : Nat) (a : Nat), (Asked s c 0x1302 (len 4)) ∧ (rdy s rDisp = true) ∧ (asks s c 0 1 = a) ∧ (a ≤ 3) ∧ (dispFenced s = false) ∧ (s.disp.mode = 1 ∨ s.disp.mode = 2) ∧ (a = 1) :=
  ⟨ask 7 0x1302 [1, 0, 0, 0] (dispS id), 7, 1, by decide +kernel⟩

theorem test_Display_3 : ∃ (s : State) (c : Nat), (Asked s c 0x1303 (fun k => decide (9 ≤ k ∧ k ≤ 2008))) ∧ (reqLen s c ≠ 8 + asks s c 2 2) :=
  ⟨ask 7 0x1303 ([0, 0] ++ le 2 2 ++ le 4 0 ++ [9]) (dispS id), 7, by decide +kernel⟩

theorem test_Display_4_1 : ∃ (s : State) (c : Nat) (r : Nat) (n : Nat) (off : Nat) (base : Nat) (size : Nat) (d : List Byte), (Asked s c 0x1303 (fun k => decide (9 ≤ k ∧ k ≤ 2008))) ∧ (dispFenced s = false) ∧ (rdy s rDisp = true) ∧ (asks s c 0 1 = r) ∧ (r ≤ 3) ∧ (asks s c 2 2 = n) ∧ (1 ≤ n) ∧ (n ≤ 2000) ∧ (reqLen s c = 8 + n) ∧ (asks s c 4 4 = off) ∧ (dispRegion s r = some (base, size)) ∧ ((reqPayload s c).drop 8 = d) ∧ (off + n ≤ size) ∧ (memWf s.disp.mem = true) :=
  ⟨ask 7 0x1303 ([0, 0] ++ le 2 1 ++ le 4 767999 ++ zeros 1) (dispS id), 7, 0, 1, 767999, 0, 768000, zeros 1, by decide +kernel⟩

theorem test_Display_4_2 : ∃ (s : State) (c : Nat) (r : Nat) (n : Nat) (off : Nat) (base : Nat) (size : Nat) (d : List Byte), (Asked s c 0x1303 (fun k => decide (9 ≤ k ∧ k ≤ 2008))) ∧ (dispFenced s = false) ∧ (rdy s rDisp = true) ∧ (asks s c 0 1 = r) ∧ (r ≤ 3) ∧ (asks s c 2 2 = n) ∧ (1 ≤ n) ∧ (n ≤ 2000) ∧ (reqLen s c = 8 + n) ∧ (asks s c 4 4 = off) ∧ (dispRegion s r = some (base, size)) ∧ ((reqPayload s c).drop 8 = d) ∧ (size < off + n) :=
  ⟨ask 7 0x1303 ([3, 0] ++ le 2 2 ++ le 4 1023 ++ zeros 2) (dispS id), 7, 3, 2, 1023, 0xC7BC0, 1024, zeros 2, by decide +kernel⟩

theorem test_Display_5 : ∃ (s : State) (c : Nat) (n : Nat), (Asked s c 0x1303 (fun k => decide (9 ≤ k ∧ k ≤ 2008))) ∧ (dispFenced s = false) ∧ (rdy s rDisp = true) ∧ (asks s c 0 1 = 1) ∧ (asks s c 2 2 = n) ∧ (1 ≤ n) ∧ (n ≤ 2000) ∧ (reqLen s c = 8 + n) ∧ (dispFormat s = 0) :=
  ⟨ask 7 0x1303 ([1, 0, 1, 0, 0, 0, 0, 0, 9]) (dispS id), 7, 1, by decide +kernel⟩

theorem test_Display_6 : ∃ (s : State), (s.disp.mode = 1) ∧ (s.clk.pixRun = true) ∧ (s.clk.busRun = true) ∧ (s.disp.vcomAt + 8 * fld (dispTim s) 32 2 ≤ now s) :=
  ⟨dispS (fun d => { d with mode := 1, vcomAt := 999603, tim := d.tim.set 32 50 }), by decide +kernel⟩

theorem test_Display_7 : ∃ (s : State), (s.disp.mode = 0 ∨ s.disp.mode = 3 ∨ s.clk.pixRun = false ∨ s.clk.busRun = false) :=
  ⟨up, by decide +kernel⟩

theorem test_Display_8_1 : ∃ (s : State) (up : List (Nat × Byte)) (c : Nat), (s.disp.mode = 2) ∧ (s.clk.pixRun = true) ∧ (s.clk.busRun = true) ∧ (s.disp.timNew = false) ∧ (s.disp.safeLoad = false) ∧ (frameCrc (dispUpset up s) = c) ∧ (s.disp.act = none) ∧ (s.disp.safe = false) ∧ (s.disp.written = false) ∧ (s.disp.ref = none) :=
  ⟨dispS (fun d => { d with ref := none }), [(1, 9)], frameCrc (dispUpset [(1, 9)] (dispS (fun d => { d with ref := none }))), by decide +kernel⟩

theorem test_Display_8_2 : ∃ (s : State) (up : List (Nat × Byte)) (c : Nat), (s.disp.mode = 2) ∧ (s.clk.pixRun = true) ∧ (s.clk.busRun = true) ∧ (s.disp.timNew = false) ∧ (s.disp.safeLoad = false) ∧ (frameCrc (dispUpset up s) = c) ∧ (s.disp.act = none) ∧ (s.disp.safe = false) ∧ (s.disp.written = true) :=
  ⟨dispS (fun d => { d with written := true }), [(1, 9)], frameCrc (dispUpset [(1, 9)] (dispS (fun d => { d with written := true }))), by decide +kernel⟩

theorem test_Display_8_3 : ∃ (s : State) (up : List (Nat × Byte)) (c : Nat), (s.disp.mode = 2) ∧ (s.clk.pixRun = true) ∧ (s.clk.busRun = true) ∧ (s.disp.timNew = false) ∧ (s.disp.safeLoad = false) ∧ (frameCrc (dispUpset up s) = c) ∧ (s.disp.act = none) ∧ (s.disp.safe = false) ∧ (s.disp.written = false) ∧ (s.disp.ref = some c) ∧ (s.disp.lost = 0) :=
  ⟨dispS (fun d => { d with ref := some (frameCrc (dispUpset [(1, 9)] (dispS (fun d => { d with written := false })))) }), [(1, 9)], frameCrc (dispUpset [(1, 9)] (dispS (fun d => { d with ref := some (frameCrc (dispUpset [(1, 9)] (dispS (fun d => { d with written := false })))) }))), by decide +kernel⟩

theorem test_Display_8_4 : ∃ (s : State) (up : List (Nat × Byte)) (c : Nat) (r : Nat), (s.disp.mode = 2) ∧ (s.clk.pixRun = true) ∧ (s.clk.busRun = true) ∧ (s.disp.timNew = false) ∧ (s.disp.safeLoad = false) ∧ (frameCrc (dispUpset up s) = c) ∧ (s.disp.act = none) ∧ (s.disp.safe = false) ∧ (s.disp.written = false) ∧ (s.disp.ref = some r) ∧ (r ≠ c) ∧ (s.disp.mis = 0) :=
  ⟨dispS (fun d => { d with ref := some 4294967296 }), [(1, 9)], frameCrc (dispUpset [(1, 9)] (dispS (fun d => { d with ref := some 4294967296 }))), 4294967296, by decide +kernel⟩

theorem test_Display_8_5 : ∃ (s : State) (up : List (Nat × Byte)) (c : Nat) (r : Nat), (s.disp.mode = 2) ∧ (s.clk.pixRun = true) ∧ (s.clk.busRun = true) ∧ (s.disp.timNew = false) ∧ (s.disp.safeLoad = false) ∧ (frameCrc (dispUpset up s) = c) ∧ (s.disp.act = none) ∧ (s.disp.safe = false) ∧ (s.disp.written = false) ∧ (s.disp.ref = some r) ∧ (r ≠ c) ∧ (s.disp.mis = 1) ∧ (s.disp.lost = 0) :=
  ⟨dispS (fun d => { d with ref := some 4294967296, mis := 1 }), [(1, 9)], frameCrc (dispUpset [(1, 9)] (dispS (fun d => { d with ref := some 4294967296, mis := 1 }))), 4294967296, by decide +kernel⟩

theorem test_Display_8_6 : ∃ (s : State) (up : List (Nat × Byte)) (c : Nat), (s.disp.mode = 2) ∧ (s.clk.pixRun = true) ∧ (s.clk.busRun = true) ∧ (s.disp.timNew = false) ∧ (s.disp.safeLoad = false) ∧ (frameCrc (dispUpset up s) = c) ∧ (s.disp.act = none) ∧ (s.disp.safe = true) ∧ (s.disp.safeMis = 0) ∧ (s.disp.written = false) ∧ (s.disp.ref = some c) ∧ (s.disp.lost = 2) ∧ (s.disp.hits = 1) :=
  ⟨dispS (fun d => { d with ref := some (frameCrc (dispUpset [(1, 9)] (dispS (fun d => { d with written := false })))), safe := true, lost := 2, hits := 1 }), [(1, 9)], frameCrc (dispUpset [(1, 9)] (dispS (fun d => { d with ref := some (frameCrc (dispUpset [(1, 9)] (dispS (fun d => { d with written := false })))), safe := true, lost := 2, hits := 1 }))), by decide +kernel⟩

theorem test_Display_8_7 : ∃ (s : State) (up : List (Nat × Byte)) (c : Nat), (s.disp.mode = 2) ∧ (s.clk.pixRun = true) ∧ (s.clk.busRun = true) ∧ (s.disp.timNew = false) ∧ (s.disp.safeLoad = false) ∧ (frameCrc (dispUpset up s) = c) ∧ (s.disp.act = some 3) ∧ (s.disp.safe = false) ∧ (s.disp.written = true) :=
  ⟨dispS (fun d => { d with act := some 3, written := true }), [(1, 9)], frameCrc (dispUpset [(1, 9)] (dispS (fun d => { d with act := some 3, written := true }))), by decide +kernel⟩

theorem test_Display_8_8 : ∃ (s : State) (up : List (Nat × Byte)) (c : Nat), (s.disp.mode = 2) ∧ (s.clk.pixRun = true) ∧ (s.clk.busRun = true) ∧ (s.disp.timNew = false) ∧ (s.disp.safeLoad = false) ∧ (frameCrc (dispUpset up s) = c) ∧ (s.disp.act = some 0) ∧ (s.disp.safe = false) ∧ (s.disp.written = true) :=
  ⟨dispS (fun d => { d with act := some 0, written := true }), [(1, 9)], frameCrc (dispUpset [(1, 9)] (dispS (fun d => { d with act := some 0, written := true }))), by decide +kernel⟩

theorem test_Display_8_9 : ∃ (s : State) (up : List (Nat × Byte)) (c : Nat), (s.disp.mode = 2) ∧ (s.clk.pixRun = true) ∧ (s.clk.busRun = true) ∧ (s.disp.timNew = false) ∧ (s.disp.safeLoad = false) ∧ (frameCrc (dispUpset up s) = c) ∧ (s.disp.safe = true) ∧ (s.disp.safeMis = 1) ∧ (s.disp.written = true) ∧ (fencedB s 7 0 = false) ∧ (crc32 (padTo 48012 (dispUpset up s).disp.safeMem) ≠ s.disp.safeCrc) :=
  ⟨dispS (fun d => { d with safe := true, safeMis := 1, written := true, safeCrc := 4294967296 }), [(1, 9)], frameCrc (dispUpset [(1, 9)] (dispS (fun d => { d with safe := true, safeMis := 1, written := true, safeCrc := 4294967296 }))), by decide +kernel, by decide +kernel, by decide +kernel, by decide +kernel, by decide +kernel, by decide +kernel, by decide +kernel, by decide +kernel, by decide +kernel, by decide +kernel, Nat.ne_of_lt (crc32_lt _)⟩

theorem test_Display_9_1 : ∃ (s : State), (s.disp.pdisch = true) ∧ (s.disp.pdAt + 160 ≤ now s) ∧ (dispFenced s = false) ∧ (s.disp.again = false) :=
  ⟨dispS (fun d => { d with mode := 3, pdisch := true, pdAt := 999843 }), by decide +kernel⟩

theorem test_Display_9_2 : ∃ (s : State), (s.disp.pdisch = true) ∧ (s.disp.pdAt + 160 ≤ now s) ∧ (dispFenced s = false) ∧ (s.disp.again = true) ∧ (s.eg.pfailTick = none) :=
  ⟨dispS (fun d => { d with mode := 3, pdisch := true, pdAt := 999843, again := true }), by decide +kernel⟩

theorem test_Display_10 : ∃ (s : State), (s.disp.pdisch = false ∨ now s < s.disp.pdAt + 160) :=
  ⟨dispS (fun d => { d with mode := 3, pdisch := true, pdAt := 999844 }), by decide +kernel⟩

theorem test_Display_11 : ∃ (s : State), (rdy s rAP = true) ∧ (rdy s rDisp = true) ∧ (s.disp.mode = 0) ∧ (s.disp.again = false) ∧ (s.disp.hostOff = false) ∧ (dispFenced s = false) ∧ (s.eg.pfailTick = none) ∧ (s.pw.entry = none) :=
  ⟨up, by decide +kernel⟩

theorem test_Display_12 : ∃ (s : State), (s.disp.mode ≠ 0 ∨ s.disp.hostOff = true ∨ rdy s rAP = false) :=
  ⟨dispS id, by decide +kernel⟩

theorem test_PowerStates_1_1 : ∃ (s : State) (c : Nat) (ret : Nat) (mask : Nat), (Asked s c 0x1401 (len 20)) ∧ (rdy s rAP = true) ∧ (asks s c 0 1 = 1) ∧ (asks s c 4 2 = ret) ∧ (asks s c 6 2 = mask) ∧ (mask < 64) ∧ (psRefuser c s = 0) :=
  ⟨ask 5 0x1401 ([1, 0, 0, 0] ++ le 2 0x87FF ++ le 2 63 ++ zeros 12) (calm), 5, 0x87FF, 63, by decide +kernel⟩

theorem test_PowerStates_1_2 : ∃ (s : State) (c : Nat) (ret : Nat) (mask : Nat), (Asked s c 0x1401 (len 20)) ∧ (rdy s rAP = true) ∧ (asks s c 0 1 = 1) ∧ (asks s c 4 2 = ret) ∧ (asks s c 6 2 = mask) ∧ (mask < 64) ∧ (psRefuser c s ≠ 0) :=
  ⟨ask 5 0x1401 ([1, 0, 0, 0] ++ le 2 0 ++ le 2 0 ++ zeros 12) (at23 (fun q => { q with hs := { q.hs with permit := true } }) (calm)), 5, 0, 0, by decide +kernel⟩

theorem test_PowerStates_2_1 : ∃ (s : State), (portActive s = true) :=
  ⟨at23 (fun q => { q with hs := { q.hs with permit := true } }) up, by decide +kernel⟩

theorem test_PowerStates_2_2 : ∃ (s : State), (portActive s = false) ∧ (quarryBusy s = true) :=
  ⟨{ up with qr := { up.qr with asks := [{ cls := 3 }] } }, by decide +kernel⟩

theorem test_PowerStates_2_3 : ∃ (s : State) (c : Nat), (portActive s = false) ∧ (quarryBusy s = false) ∧ (otherBusy s c = true) :=
  ⟨ask 4 0 [] up, 5, by decide +kernel⟩

theorem test_PowerStates_2_4 : ∃ (s : State) (c : Nat), (portActive s = false) ∧ (quarryBusy s = false) ∧ (otherBusy s c = false) ∧ (ksVeto s = true) :=
  ⟨up, 5, by decide +kernel⟩

theorem test_PowerStates_2_5_1 : ∃ (s : State) (c : Nat), (portActive s = false) ∧ (quarryBusy s = false) ∧ (otherBusy s c = false) ∧ (ksVeto s = false) ∧ (s.pw.entry = none) ∧ (s.disp.mode = 3) :=
  ⟨{ calm with disp := { calm.disp with mode := 3 } }, 5, by decide +kernel⟩

theorem test_PowerStates_2_5_2 : ∃ (s : State) (c : Nat), (portActive s = false) ∧ (quarryBusy s = false) ∧ (otherBusy s c = false) ∧ (ksVeto s = false) ∧ (s.disp.mode ≠ 3) ∧ (1 ≤ s.upd.st) ∧ (s.upd.st ≤ 3) :=
  ⟨{ calm with upd := { calm.upd with st := 3 } }, 5, by decide +kernel⟩

theorem test_PowerStates_2_5_3 : ∃ (s : State) (c : Nat), (portActive s = false) ∧ (quarryBusy s = false) ∧ (otherBusy s c = false) ∧ (ksVeto s = false) ∧ (s.disp.mode ≠ 3) ∧ (s.upd.st = 0) ∧ (clockSwitch s = true) :=
  ⟨{ calm with clk := { calm.clk with oppBusy := true } }, 5, by decide +kernel⟩

theorem test_PowerStates_2_5_4 : ∃ (s : State) (c : Nat) (e : PsEntry), (portActive s = false) ∧ (quarryBusy s = false) ∧ (otherBusy s c = false) ∧ (ksVeto s = false) ∧ (s.disp.mode ≠ 3) ∧ (s.upd.st = 0) ∧ (clockSwitch s = false) ∧ (s.pw.entry = some e) ∧ (wakeSource e s ≠ none) :=
  ⟨{ entryS 0 with pw := { (entryS 0).pw with fired := [(6, 0)] } }, 5, ⟨5, 1000000, 0xFFFF, 63, 0, 0⟩, by decide +kernel⟩

theorem test_PowerStates_2_5_5 : ∃ (s : State) (c : Nat), (portActive s = false) ∧ (quarryBusy s = false) ∧ (otherBusy s c = false) ∧ (ksVeto s = false) ∧ (s.disp.mode ≠ 3) ∧ (s.upd.st = 0) ∧ (clockSwitch s = false) ∧ (s.pw.entry = none) ∧ (s.eg.pfailTick ≠ none) :=
  ⟨{ calm with eg := { calm.eg with pfailTick := some 1 } }, 5, by decide +kernel⟩

theorem test_PowerStates_2_5_6 : ∃ (s : State) (c : Nat), (portActive s = false) ∧ (quarryBusy s = false) ∧ (otherBusy s c = false) ∧ (ksVeto s = false) ∧ (s.disp.mode ≠ 3) ∧ (s.upd.st = 0) ∧ (clockSwitch s = false) ∧ (s.pw.entry = none) ∧ (s.eg.pfailTick = none) :=
  ⟨calm, 5, by decide +kernel⟩

theorem test_PowerStates_3 : ∃ (s : State) (c : Nat), (Asked s c 0x1402 (len 0)) ∧ (rdy s rAP = true) ∧ (s.pw.refusals.length = 9) :=
  ⟨ask 7 0x1402 [] up, 7, by decide +kernel⟩

theorem test_PowerStates_4_1 : ∃ (s : State) (e : PsEntry), (s.pw.entry = some e) ∧ (psRefuser e.ch s ≠ 0) :=
  ⟨at23 (fun q => { q with hs := { q.hs with permit := true } }) (entryS 0), ⟨5, 1000000, 0xFFFF, 63, 0, 0⟩, by decide +kernel⟩

theorem test_PowerStates_4_2 : ∃ (s : State) (e : PsEntry), (s.pw.entry = some e) ∧ (psRefuser e.ch s = 0) ∧ (e.step = 0) ∧ ((chan s e.ch).st = .respReady ∨ (chan s e.ch).st = .inService) :=
  ⟨setChan 5 .respReady (entryS 0), ⟨5, 1000000, 0xFFFF, 63, 0, 0⟩, by decide +kernel⟩

theorem test_PowerStates_4_3 : ∃ (s : State) (e : PsEntry), (s.pw.entry = some e) ∧ (psRefuser e.ch s = 0) ∧ (e.step = 0) ∧ ((chan s e.ch).st = .idle) ∧ (s.disp.mode = 2) :=
  ⟨{ entryS 0 with disp := (dispS id).disp }, ⟨5, 1000000, 0xFFFF, 63, 0, 0⟩, by decide +kernel⟩

theorem test_PowerStates_4_4 : ∃ (s : State) (e : PsEntry), (s.pw.entry = some e) ∧ (psRefuser e.ch s = 0) ∧ (e.step = 1) ∧ (s.disp.mode = 3) :=
  ⟨{ entryS 1 with disp := { up.disp with mode := 3 } }, ⟨5, 1000000, 0xFFFF, 63, 0, 1⟩, by decide +kernel⟩

theorem test_PowerStates_4_5 : ∃ (s : State) (e : PsEntry), (s.pw.entry = some e) ∧ (psRefuser e.ch s = 0) ∧ (e.step = 1) ∧ (s.disp.mode = 0) ∧ (s.nf.fe.length = 2) :=
  ⟨entryS 1, ⟨5, 1000000, 0xFFFF, 63, 0, 1⟩, by decide +kernel⟩

theorem test_PowerStates_4_6 : ∃ (s : State) (e : PsEntry), (s.pw.entry = some e) ∧ (psRefuser e.ch s = 0) ∧ (e.step = 2) ∧ ((s.pl.leaving = true ∧ canLeave s = true) ∨ running s 0 ≠ none ∨ running s 1 ≠ none) :=
  ⟨{ entryS 2 with tabs := (plHub 1 id).tabs, pl := { up.pl with leaving := true, src := 1, start := some 0 } }, ⟨5, 1000000, 0xFFFF, 63, 0, 2⟩, by decide +kernel⟩

theorem test_PowerStates_4_7 : ∃ (s : State) (e : PsEntry), (s.pw.entry = some e) ∧ (psRefuser e.ch s = 0) ∧ (e.step = 2) ∧ (s.pl.leaving = false) ∧ (running s 0 = none) ∧ (running s 1 = none) :=
  ⟨{ entryS 2 with ls := { up.ls with chans := List.replicate 16 { duty := 1000, out := true } } }, ⟨5, 1000000, 0xFFFF, 63, 0, 2⟩, by decide +kernel⟩

theorem test_PowerStates_5 : ∃ (s : State), (s.pw.entry = none) :=
  ⟨up, by decide +kernel⟩

theorem test_PowerStates_6_1 : ∃ (s : State) (e : PsEntry), (s.pw.entry = some e) ∧ (e.step = 0) ∧ ((chan s e.ch).st = .respReady) ∧ (e.since + 800 ≤ now s) :=
  ⟨setChan 5 .respReady { entryS 0 with clk := { up.clk with tick := 1000800 } }, ⟨5, 1000000, 0xFFFF, 63, 0, 0⟩, by decide +kernel⟩

theorem test_PowerStates_6_2 : ∃ (s : State) (e : PsEntry), (s.pw.entry = some e) ∧ (e.step = 0) ∧ ((chan s e.ch).st = .respReady) ∧ (now s < e.since + 800) :=
  ⟨setChan 5 .respReady (entryS 0), ⟨5, 1000000, 0xFFFF, 63, 0, 0⟩, by decide +kernel⟩

theorem test_PowerStates_7_1 : ∃ (s : State) (b : Nat) (v : Nat), (s.pw.mode = 2) ∧ (wakeSource s.pw.last s = some (b, v)) ∧ (b ≠ 3) ∧ (s.boot.imgs.length = 5) ∧ ((List.range 16).all (kept s.pw.last) = true) :=
  ⟨asleep 0xFFFF 5, 5, 4, by decide +kernel⟩

theorem test_PowerStates_7_2 : ∃ (s : State) (b : Nat) (v : Nat), (s.pw.mode = 2) ∧ (wakeSource s.pw.last s = some (b, v)) ∧ (b ≠ 3) ∧ (s.boot.imgs.length = 5) ∧ (kept s.pw.last 9 = false) :=
  ⟨asleep 0xFDFF 1, 1, 4, by decide +kernel⟩

theorem test_PowerStates_7_3 : ∃ (s : State) (b : Nat) (v : Nat), (s.pw.mode = 2) ∧ (wakeSource s.pw.last s = some (b, v)) ∧ (b ≠ 3) ∧ (s.boot.imgs.length = 5) ∧ (kept s.pw.last 0 = false) :=
  ⟨asleep 0xFFFE 4, 4, 4, by decide +kernel⟩

theorem test_PowerStates_8 : ∃ (s : State) (v : Nat), (s.pw.mode = 2) ∧ (wakeSource s.pw.last s = some (3, v)) ∧ ((keptFrame s).1 = false) :=
  ⟨asleep 0xFFFF 3, 4, by decide +kernel⟩

theorem test_PowerStates_9 : ∃ (s : State), (s.pw.mode ≠ 2 ∨ wakeSource s.pw.last s = none) :=
  ⟨up, by decide +kernel⟩

theorem test_PowerStates_10 : ∃ (s : State), (s.pw.mode = 0) ∧ (apServing s = true) ∧ (s.pw.entry = none) ∧ (otherBusy s 0xFF = false) :=
  ⟨up, by decide +kernel⟩

theorem test_PowerStates_11 : ∃ (s : State), (s.pw.mode = 1) ∧ (s.clk.plla = true) :=
  ⟨{ up with pw := { up.pw with mode := 1 } }, by decide +kernel⟩

theorem test_PowerStates_12 : ∃ (s : State), (s.pw.mode ≠ 1) :=
  ⟨up, by decide +kernel⟩

theorem test_PowerStates_13_1 : ∃ (s : State), (s.pw.mode ≠ 2) ∧ (s.boot.phase ≠ .reset) ∧ (s.clk.busRun = true) ∧ (s.clk.oppBusy = false) ∧ (s.pw.oppAt = none) ∧ (oppGoal s < s.clk.opp) :=
  ⟨{ up with clk := { up.clk with opp := 3 } }, by decide +kernel⟩

theorem test_PowerStates_13_2 : ∃ (s : State), (s.pw.mode ≠ 2) ∧ (s.boot.phase ≠ .reset) ∧ (s.clk.busRun = true) ∧ (s.clk.oppBusy = false) ∧ (s.pw.oppAt = none) ∧ (s.clk.opp < oppGoal s) :=
  ⟨{ up with clk := { up.clk with opp := 0 } }, by decide +kernel⟩

theorem test_PowerStates_13_3 : ∃ (s : State), (s.pw.mode ≠ 2) ∧ (s.boot.phase ≠ .reset) ∧ (s.clk.busRun = true) ∧ (s.clk.oppBusy = true) :=
  ⟨{ up with clk := { up.clk with opp := 3, oppBusy := true }, pw := { up.pw with target := 1 } }, by decide +kernel⟩

theorem test_PowerStates_13_4 : ∃ (s : State) (n : Nat), (s.pw.mode ≠ 2) ∧ (s.boot.phase ≠ .reset) ∧ (s.clk.busRun = true) ∧ (s.clk.oppBusy = false) ∧ (s.pw.oppAt = some n) ∧ (now s < n + 80) ∧ (oppGoal s ≠ 3) :=
  ⟨{ up with clk := { up.clk with opp := 3 }, pw := { up.pw with oppAt := some 1000000 } }, 1000000, by decide +kernel⟩

theorem test_PowerStates_13_5 : ∃ (s : State), (s.pw.mode ≠ 2) ∧ (s.boot.phase ≠ .reset) ∧ (s.clk.busRun = true) ∧ (s.clk.oppBusy = false) ∧ (oppGoal s = s.clk.opp) :=
  ⟨{ up with clk := { up.clk with opp := 1 } }, by decide +kernel⟩

theorem test_PowerStates_14 : ∃ (s : State) (n : Nat) (d : Nat), (s.eg.pfailTick = some n) ∧ (s.boot.phase ≠ .reset) ∧ (tf s 0x1401 0 1 = 1) ∧ (n + 8 * tf s 0x1401 2 2 ≤ now s) ∧ (s.eg.forced = none) ∧ (n + 1 < now s) ∧ (s.eg.doneTick = some d) ∧ (d < now s) ∧ (noMains s = true) ∧ (s.cairn.queue = []) :=
  ⟨{ up with eg := { up.eg with pfailTick := some 900000, doneTick := some 1000002 }, tabs := { installed := [⟨0x1401, 1, [1, 0, 100, 0, 0, 0, 0, 0], 0⟩] } }, 900000, 1000002, by decide +kernel⟩
/-- PL_SEND on channel 7, which its card does not permit. -/
theorem test_RequestChecks_6 : ∃ (s : State) (c : Nat), canServe s c = true ∧ headerFault s c = none ∧
    (requestRows c true 0).any (fun r => r.2.1 == reqOp s c && !r.2.2.1.testBit c) = true :=
  ⟨ask 7 0x0D02 [0, 0, 0, 0] up, 7, by decide +kernel⟩

/-- NOTIFY_ROUTE with a length of 1. -/
theorem test_RequestChecks_7 : ∃ (s : State) (c : Nat), canServe s c = true ∧ headerFault s c = none ∧
    (requestRows c true 0).any
      (fun r => r.2.1 == reqOp s c && r.2.2.1.testBit c && !r.2.2.2 (reqLen s c)) = true :=
  ⟨ask 5 0x0102 [0] up, 5, by decide +kernel⟩

/-- A mailbox request names a channel below 8. -/
theorem test_wf_channel :
    ([.tableLoad 8, .tableInfo 8, .linkEcho 8, .notifyRoute 8, .bootInfo 8, .frontEndStatus 8, .pathHold 8,
     .readPort 8, .readGroup 8, .readHarmonics 8, .pulseSelect 8, .energyRead 8, .calRead 8, .calStage 8,
     .calCommit 8, .calDiscard 8, .calPulse 8, .portStatus 8, .cpMode 8, .portAvail 8, .portLock 8, .cpWake 8,
     .lintelStatus 8, .lintelSet 8, .rcStatus 8, .rcClear 8, .safeStop 8, .safetyStatus 8, .tariffStatus 8,
     .demandRead 8, .billingRead 8, .timeSet 8, .tariffActivate 8, .accountRead 8, .accountSet 8, .tokenApply 8,
     .sessionStart 8, .sessionEnd 8, .sessionStatus 8, .cairnRead 8, .cairnStatus 8, .nfStatus 8, .cardDataStage 8,
     .plStatus 8, .plSend 8, .quarryStatus 8, .profileRead 8, .sessionLogRead 8, .keyUpdate 8, .drupeStatus 8,
     .rindStatus 8, .updateStage 8, .updateData 8, .updateActivate 8, .updateAbort 8, .updateStatus 8,
     .evrecRead 8, .evrecClear 8, .evrecStatus 8, .lsSet 8, .lsStatus 8, .lsClear 8, .lsSenseSelect 8,
     .dispStatus 8, .dispControl 8, .dispWrite 8, .psEnter 8, .psStatus 8, .fenceRequest 8, .fenceLift 8 true,
     .sparesStatus 8, .availRead 8] : List Instr).all (fun i => !i.wf) = true := by decide +kernel

/-- A port event names a port below 24. -/
theorem test_wf_port :
    ([.pwmRisingEdge 24, .pwmPeriodEnd 24, .cpStateChange 24, .ppStateChange 24, .diodeProbe 24, .cpWakeEnd 24,
     .overdraw 24, .lockRequest 24, .lockPullEnd 24, .locked 24, .lockTimeout 24, .lockLost 24 true,
     .lockRelease 24, .rcTrip 24, .closingSequence 24, .plausJudge 24, .closingStepTimer 24, .pullInDeadline 24,
     .closeRetry 24, .switchProofPulse 24, .cfbFaultDetect 24, .weldCheck 24, .openOnLowCurrent 24,
     .openUnderLoad 24, .energyRemoval 24, .safeStopEnd 24, .holdEnd 24] : List Instr).all (fun i => !i.wf) = true := by decide +kernel

/-- A group event names a group below 4. -/
theorem test_wf_group :
    ([.zeroCrossing 4, .cycleTimeout 4, .substituteCycleEnd 4, .supplyEventChange 4, .harmonicWindowEnd 4] : List Instr).all (fun i => !i.wf) = true := by decide +kernel

/-- A load switch event names a channel below 16. -/
theorem test_wf_loadSwitch :
    ([.inrushWindowEnd 16, .lsPeriodStart 16, .openLoadCheck 16 true, .lsStartupTest 16 true] : List Instr).all (fun i => !i.wf) = true := by decide +kernel

/-- A stream event names a stream below 112. -/
theorem test_wf_stream :
    ([.biasWindowEnd 112, .streamFailed 112] : List Instr).all (fun i => !i.wf) = true := by decide +kernel

/-- A host frame: command and CRC in their widths, LEN the count of the data, an address of 24 bits. -/
theorem test_wf_frame :
    ([.hostWriteFrame 256 0 0 [] 0,
     .hostWriteFrame 0 16777216 0 [] 0,
     .hostWriteFrame 0 0 65536 [] 0,
     .hostWriteFrame 0 0 2 [1#8] 0,
     .hostWriteFrame 0 0 0 [] 65536] : List Instr).all (fun i => !i.wf) = true := by decide +kernel

/-- Register accesses and doorbells. -/
theorem test_wf_access :
    ([.registerWrite 16777216 0,
     .registerWrite 0 4294967296,
     .doorbell 6,
     .responseRelease 6] : List Instr).all (fun i => !i.wf) = true := by decide +kernel

/-- System events: lanes, reset causes, SAR converters, banks, clocks and fences. -/
theorem test_wf_system :
    ([.chunkConsumed { failed := [28] },
     .chunkConsumed { errs := [2376] },
     .fullReset [] false,
     .fullReset [0] false,
     .fullReset [9] false,
     .sarSpareTakeover 5,
     .laneMismatch 28 0 true true,
     .laneMismatch 0 28 true true,
     .laneMismatch 3 3 true true,
     .laneSelfCheck [28],
     .fenceLiftAuto 12 0,
     .fenceLiftAuto 0 128,
     .sramEccError 16 0 true false 0,
     .sramEccError 0 0 true false 9,
     .updateCommit 8 0,
     .updateCommit 0 65,
     .timeInvalid 0,
     .timeInvalid 3] : List Instr).all (fun i => !i.wf) = true := by decide +kernel

/-- Streams, feeders and the seal switch scan. -/
theorem test_wf_metering :
    ([.streamFault 112 1,
     .streamFault 0 0,
     .streamFault 0 3,
     .feederOverloadStop 4 0,
     .feederOverloadStop 0 3,
     .overloadWarning 4 0,
     .overloadWarning 0 3,
     .sealSwitchScan 65536 0,
     .sealSwitchScan 0 65536] : List Instr).all (fun i => !i.wf) = true := by decide +kernel

/-- Contactless: two front ends, amplitudes of 12 bits, a baseline of 16 entries, frames that are not empty. -/
theorem test_wf_contactless :
    ([.nfPing 2 0 0,
     .nfPing 0 4096 0,
     .nfBaseline 2 (List.replicate 16 (0, 0)),
     .nfBaseline 0 [],
     .nfBaseline 0 (List.replicate 16 (4096, 0)),
     .cardResponse 2 [] 0 0,
     .cardResponse 0 [] 0 4096,
     .fieldDetect 2,
     .fieldEnd 2,
     .emulationFrame 2 [1#8],
     .emulationFrame 0 [],
     .maintEnvelope 2 [1#8],
     .maintEnvelope 0 [],
     .maintSessionTimeout 2,
     .cardFrameWaitExpiry 2] : List Instr).all (fun i => !i.wf) = true := by decide +kernel

/-- The powerline: three zero-crossing inputs, at most three couplings, samples and their mid-level of 12 bits. -/
theorem test_wf_powerline :
    ([.zcEdge 3 0 0,
     .zcLockLost 3,
     .plFrameRx [4096] [] [] 2048 0,
     .plFrameRx [] [] [0] 4096 0,
     .plFrameTx [true, true, true, true],
     .wakePreamble [[], [], [], []] 2048,
     .wakePreamble [[0, 4096]] 2048] : List Instr).all (fun i => !i.wf) = true := by decide +kernel

/-- The store and the vault. -/
theorem test_wf_store :
    ([.nandOpComplete 2 0 0,
     .nandOpComplete 0 0 3,
     .nandOpTimeout 2 0,
     .nandOpTimeout 0 2,
     .remask [128] [],
     .remask [] [128],
     .meshBreak 65536] : List Instr).all (fun i => !i.wf) = true := by decide +kernel

/-- Load switch latches, the foldback and the frame store. -/
theorem test_wf_switches :
    ([.lsLatch 16 1 0,
     .lsLatch 0 0 0,
     .lsLatch 0 3 0,
     .globalFoldback [],
     .frameStart [(4194304, 0#8)]] : List Instr).all (fun i => !i.wf) = true := by decide +kernel

/-- The operands of a tick in their counts: a full tick is well-formed. -/
def fullTick : TickIn :=
  { samples := List.replicate 112 0, cp := List.replicate 24 [], pp := List.replicate 24 [],
    cfb := List.replicate 24 [], refs := List.replicate 6 [] }

/-- Each count and range of a tick's operands is checked. -/
theorem test_wf_tick : (Instr.tick fullTick).wf = true ∧
    ([{ fullTick with samples := [] }, { fullTick with cp := [] }, { fullTick with pp := [] },
      { fullTick with cfb := [] }, { fullTick with refs := [] }, { fullTick with ceased := [112] },
      { fullTick with cp := List.replicate 24 (List.replicate 16 4096) },
      { fullTick with cp := List.replicate 24 (List.replicate 17 0) }, { fullTick with mags := [0] },
      { fullTick with refs := List.replicate 6 (List.replicate 125 0) }, { fullTick with hsMissed := [24] },
      { fullTick with laneMissed := [28] }] : List TickIn).all (fun i => !(Instr.tick i).wf) = true := by decide +kernel

/-- Only copies that MRAM has can be lost. -/
theorem test_wf_straps :
    ([.resetRelease { lost := [.portCal 24 0] } [], .resetRelease { lost := [.groupCal 0 2] } [],
      .resetRelease { lost := [.slot 2] } [], .resetRelease { lost := [.ksRecord 2] } []] : List Instr).all
      (fun i => !i.wf) = true := by decide +kernel

end Sys2Proof.Tests
end

namespace Sys2Proof.Machine

/-- A full reset leaves a port with its switches open and no permission of its pilot. -/
theorem portReset_open (q : Port) :
    (portReset q).ct.chs = false ∧ (portReset q).ct.cls = false ∧ (portReset q).hs.permit = false := ⟨rfl, rfl, rfl⟩

/-- The cleared state is what a full reset leaves, with the cause not yet recorded (03 R75). -/
theorem resetLeaves_resetState (s : State) : resetLeaves s.boot.cause s (resetState s) := by
  have himgs : ∀ g ∈ (resetState s).boot.imgs, g.st = .empty := fun g hg => by
    rw [List.eq_of_mem_replicate hg]
  have hports : ∀ q ∈ (resetState s).ports, q.ct.chs = false ∧ q.ct.cls = false ∧ q.hs.permit = false := by
    intro q hq
    obtain ⟨p, -, rfl⟩ := List.mem_map.mp hq
    exact portReset_open p
  have hlen : (resetState s).ports.length = s.ports.length := List.length_map _
  exact ⟨rfl, rfl, himgs, rfl, hports, hlen, rfl, rfl, rfl, rfl, rfl, rfl, rfl, rfl, rfl, rfl, rfl⟩

/-- Recording the cause with the inputs that hold the device, and tearing a snapshot or a Cairn entry, keep what a full
reset leaves. -/
theorem resetLeaves_record {old : Nat} {s t : State} (h : resetLeaves old s t) (causes : List Nat) (low : Nat) (tar : Tariff)
    (torn : Bool) :
    resetLeaves low s { t with
      boot := { resetPins causes t.boot with cause := low }, tar := tar, cairn := { t.cairn with torn := torn } } := by
  obtain ⟨hphase, -, hrest⟩ := h
  exact ⟨hphase, rfl, hrest⟩

/-- The causes that FULL_RESET takes: those of Table PU-2 but OFF-HOLD, which is an event of its own (03 R76). -/
def takenCauses (causes : List Nat) : List Nat := causes.filter fun c => decide (1 ≤ c ∧ c ≤ 8) && c != 6

/-- Causes that FULL_RESET takes, none below c, which is one of them: c is the lowest it takes. -/
theorem min?_takenCauses {cs : List Nat} {c : Nat} (hc : c ∈ cs) (h1 : 1 ≤ c) (hcs : ∀ d ∈ cs, c ≤ d ∧ d ≤ 8 ∧ d ≠ 6) :
    (takenCauses cs).min? = some c := by
  have hall : ∀ d ∈ cs, (decide (1 ≤ d ∧ d ≤ 8) && d != 6) = true := fun d hd => by
    obtain ⟨hcd, h8, h6⟩ := hcs d hd
    simpa [h6, h8] using Nat.le_trans h1 hcd
  rw [takenCauses, List.filter_eq_self.mpr hall, List.min?_eq_some_iff]
  exact ⟨hc, fun d hd => (hcs d hd).1⟩

/-- A full reset of a running device records the lowest cause that it takes (03 R76). -/
theorem resetLeaves_fullReset {causes : List Nat} {low : Nat} {s : State} (torn : Bool)
    (hlow : (takenCauses causes).min? = some low) (hup : s.boot.phase ≠ .reset) :
    resetLeaves low s (fullReset causes torn s) := by
  cases hl : takenCauses causes with
  | nil => simp [hl] at hlow
  | cons c cs =>
    have hfold : cs.foldl min c = low := Option.some.inj (by rw [← List.min?_cons', ← hl, hlow])
    rw [takenCauses] at hl
    simp only [fullReset, hl, hfold, beq_iff_eq, hup, if_false]
    exact resetLeaves_record (resetLeaves_resetState s) ..

/-- Several causes at once: the lowest is recorded (03 R76). -/
theorem fullReset_records_lowest {s : State} {cs : List Nat} {c : Nat} (torn : Bool) (hc : c ∈ cs) (h1 : 1 ≤ c)
    (hcs : ∀ d ∈ cs, c ≤ d ∧ d ≤ 8 ∧ d ≠ 6) (hup : s.boot.phase ≠ .reset) : resetLeaves c s (fullReset cs torn s) :=
  resetLeaves_fullReset torn (min?_takenCauses hc h1 hcs) hup

/-- One cause: it is recorded. -/
theorem fullReset_records_cause {s : State} {c : Nat} (torn : Bool) (h1 : 1 ≤ c) (h8 : c ≤ 8) (h6 : c ≠ 6)
    (hup : s.boot.phase ≠ .reset) : resetLeaves c s (fullReset [c] torn s) :=
  fullReset_records_lowest torn (List.mem_singleton_self c) h1
    (List.forall_mem_singleton.mpr ⟨Nat.le_refl c, h8, h6⟩) hup

/-- Two feeds in a row missing: the watchdog resets the device (02 R50). -/
theorem watchdogExpiry_of_missed {s : State} (harm : s.clk.wdArmed = true) (hmiss : 2 ≤ s.clk.wdMissed) :
    watchdogExpiry s = fullReset [4] false s := by
  simp [watchdogExpiry, harm, hmiss]

/-- A divergence while Keystone runs resets the device (12 R289). -/
theorem lockstepDivergence_of_run {s : State} (hrun : ksRun s = true) :
    lockstepDivergence s = fullReset [3] false s := if_pos hrun

/-- A double error in bank 14 resets the device (25 R539). -/
theorem sramEcc_double_keystone {s : State} (row ch : Nat) (hup : s.boot.phase ≠ .reset) :
    sramEcc 14 row true false ch s = fullReset [8] false s := by
  simp [sramEcc, doubleError, hup]

/-- A full reset of a device that is held already changes no more than the causes that hold it. -/
theorem fullReset_only_of_held (causes : List Nat) (torn : Bool) {s : State} (hheld : s.boot.phase = .reset) :
    Only [.boot] s (fullReset causes torn s) := by
  unfold fullReset
  dsimp only
  split
  · exact Only.refl _ s
  · simp only [hheld, beq_self_eq_true, if_true]
    intro p hp
    cases p with
    | boot => exact absurd hp (by decide)
    | _ => rfl

/-- In OFF-HOLD the recorded cause stays, whatever causes hold the device besides (03 R76). -/
theorem fullReset_cause_of_offHold (causes : List Nat) (torn : Bool) {s : State} (hoff : s.pw.mode = 3)
    (hheld : s.boot.phase = .reset) (hcause : s.boot.cause = 6) : (fullReset causes torn s).boot.cause = 6 := by
  unfold fullReset
  dsimp only
  split
  · exact hcause
  · simp [hheld, hoff, hcause]

/-- The release from OFF-HOLD records 0x6 (24 R533). -/
theorem offHoldRelease_records {s : State} (hoff : s.pw.mode = 3) :
    (offHoldRelease s).pw.mode = 0 ∧ (offHoldRelease s).boot.cause = 6 := by
  simp [offHoldRelease, hoff]

/-- Settles O17: each of the events is a full reset with its causes, whose lowest is recorded; a device that OFF-HOLD holds
keeps 0x6 until its release records it again. -/
theorem fullResets : Obligations.FullResets := by
  refine ⟨?one, ?several, ?watchdog, ?lockstep, ?sram, ?held, ?release⟩
  case one =>
    intro s c torn h1 h8 h6 hup
    exact ⟨_, rfl, fullReset_records_cause torn h1 h8 h6 hup⟩
  case several =>
    intro s cs c torn hc h1 hcs hup
    exact ⟨_, rfl, fullReset_records_lowest torn hc h1 hcs hup⟩
  case watchdog =>
    intro s harm hmiss hup
    refine ⟨_, rfl, ?_⟩
    rw [watchdogExpiry_of_missed harm hmiss]
    exact fullReset_records_cause false (by decide) (by decide) (by decide) hup
  case lockstep =>
    intro s hrun hup
    refine ⟨_, rfl, ?_⟩
    rw [lockstepDivergence_of_run hrun]
    exact fullReset_records_cause false (by decide) (by decide) (by decide) hup
  case sram =>
    intro s row ch hup
    refine ⟨_, rfl, ?_⟩
    rw [sramEcc_double_keystone row ch hup]
    exact fullReset_records_cause false (by decide) (by decide) (by decide) hup
  case held =>
    intro s cs torn hoff hheld hcause
    have honly := fullReset_only_of_held cs torn hheld
    exact ⟨_, rfl, fullReset_cause_of_offHold cs torn hoff hheld hcause, honly .pw (by decide), honly⟩
  case release =>
    intro s hoff
    obtain ⟨hmode, hcause⟩ := offHoldRelease_records hoff
    exact ⟨_, rfl, hmode, hcause, offHoldRelease_only (Only.refl _ s) fun _ hp => hp⟩

end Sys2Proof.Machine

namespace Sys2Proof.Machine

/-! Lintel's computation, made late. -/

/-- A step over the ports that changes each by itself leaves everything else. -/
theorem eachPort_updPort_only (f : Nat → State → Port → Port) (s : State) :
    Only [.ports] s (eachPort (fun p u => updPort p (f p u) u) s) :=
  eachPort_only (Only.refl _ s) fun p u hu => updPort_only p (f p u) hu fun _ hq => hq

/-- The increases change no more than the ports (10 R255). -/
theorem paceAll_only (s : State) : Only [.ports] s (paceAll s) := by
  have hup (u : State) (p : Nat) (rem : List Nat) : Only [.ports] u (paceUp u p rem).1 := by
    unfold paceUp
    dsimp only
    split
    · split
      · exact Only.refl _ u
      · exact updPort_only p _ (Only.refl _ u) fun _ hq => hq
    · exact Only.refl _ u
  have hfold (ps : List Nat) (a : State × List Nat) :
      Only [.ports] a.1 (ps.foldl (fun a p => paceUp a.1 p a.2) a).1 := by
    induction ps generalizing a with
    | nil => exact Only.refl _ a.1
    | cons p ps ih => exact (hup a.1 p a.2).trans (ih _)
  exact hfold _ _

/-- What no step of a fold over numbers changes, the fold leaves. -/
theorem foldN_keeps {α β : Type} {f : Nat → α → α} (g : α → β) (n : Nat) (hf : ∀ i a, g (f i a) = g a) (a : α) :
    g (foldN n f a) = g a := by
  unfold foldN
  induction List.range n generalizing a with
  | nil => rfl
  | cons i is ih => exact (ih (f i a)).trans (hf i a)

/-- Lintel's computation is due no longer once it is made (log 139). -/
theorem lintelTick_passDue (s : State) : (lintelTick s).lintel.passDue = false := by
  unfold lintelTick
  dsimp only
  rw [eachPort_updPort_only _ _ .lintel (by decide), paceAll_only _ .lintel (by decide),
    eachPort_updPort_only _ _ .lintel (by decide), eachPort_updPort_only _ _ .lintel (by decide),
    foldN_keeps (fun u : State => u.lintel.passDue) 12 (fun k u => by split <;> rfl),
    eachPort_updPort_only _ _ .lintel (by decide)]

/-- A state with the computation made has none due. -/
theorem lintelSettle_passDue (s : State) : (lintelSettle s).lintel.passDue = false := by
  unfold lintelSettle
  split
  · exact lintelTick_passDue s
  · next h => exact Bool.eq_false_iff.mpr h

/-! The service of a request. -/

/-- A response leaves Lintel. -/
theorem answer_lintel (c st : Nat) (pl : List Byte) (s : State) : (answer c st pl s).lintel = s.lintel :=
  answer_only c st pl (Only.refl [.link, .hostMem] s) (fun _ hp => hp) .lintel (by decide)

/-- Taking a request changes no more than its card does, the response and the state of the channel (04 R115, R116). -/
theorem serve_only {l : List Part} {s : State} {body : List Byte → State → Served} (op : Nat) (lenOk : Nat → Bool) (c : Nat)
    (hl : ∀ p ∈ ([.link, .hostMem] : List Part), p ∈ l) (hbody : ∀ pl, Only l s (body pl s).2) :
    Only l s (serve op lenOk body c s) := by
  have hrefuse (st : Nat) : Only l s (answer c st [] s) := answer_only c st [] (Only.refl l s) hl
  have hcard : Only l s (finish c (body (reqPayload s c) s)) := by
    unfold finish
    split
    · exact answer_only _ _ _ (hbody _) hl
    · exact setChan_only _ _ (hbody _) (sub_of hl (by decide))
  fun_cases serve op lenOk body c s
  case case1 => exact hrefuse _
  case case2 => exact Only.refl l s
  case case3 => exact hrefuse _
  case case4 => exact hrefuse _
  case case5 => exact hcard
  case case6 => exact Only.refl l s

/-- LINTEL_STATUS reads: its card changes nothing. -/
theorem lintelStatusBody_snd (pl : List Byte) (s : State) : (lintelStatusBody pl s).2 = s := by
  unfold lintelStatusBody
  split <;> rfl

/-- Whatever LINTEL_STATUS answers, Lintel's computation has been made (10 R248, log 139). -/
theorem lintelStatus_passDue (c : Nat) (s : State) :
    ∃ t, exec (.lintelStatus c) s = .next t ∧ t.lintel.passDue = false := by
  have hframe : Only [.link, .hostMem] (lintelSettle s) (serve 0x0601 (len 0) lintelStatusBody c (lintelSettle s)) :=
    serve_only _ _ _ (fun _ hp => hp) fun pl => by rw [lintelStatusBody_snd]; exact Only.refl _ _
  exact ⟨_, rfl, by rw [hframe .lintel (by decide), lintelSettle_passDue]⟩

/-- The host has rung the doorbell of channel 0 over an empty buffer, so that HCRC is wrong, and Lintel's computation of the
tick is still to be made. -/
def lintelWaits : State :=
  { State.reset with
    clk := { apRun := true, busRun := true }
    boot := { phase := .running, imgs := List.replicate 5 { st := .active } }
    link := { chans := { st := .pending } :: List.replicate 7 {} }
    lintel := { passDue := true } }

theorem lintelWaits_canServe : canServe lintelWaits 0 = true := by decide +kernel

theorem lintelWaits_hcrc : crc16 (memReadBytes lintelWaits.link.mem (reqBase 0) 14) ≠ reqField lintelWaits 0 14 2 := by
  decide +kernel

/-- LINTEL_STATUS is one of the request commands. -/
theorem lintelStatus_mem_requestRows (c : Nat) (pass : Bool) (blown : Nat) :
    (.lintelStatus c, 0x0601, 0xFF, len 0) ∈ requestRows c pass blown := by simp [requestRows]

/-- Refutes O12: LINTEL_STATUS on a request with a wrong HCRC answers 0x0101, but it does something else besides: where
Lintel's computation of the tick still waits, it is made first (10 R248, log 139), as LINTEL_SET makes it too. The statement
wants the state before it, in which the computation is still due. -/
theorem not_requestChecks : ¬ Obligations.RequestChecks := by
  unfold Obligations.RequestChecks
  intro h
  obtain ⟨hcrc, -⟩ := h lintelWaits 0 true 0 lintelWaits_canServe
  have hsame : exec (.lintelStatus 0) lintelWaits = .next (answer 0 0x0101 [] lintelWaits) :=
    hcrc lintelWaits_hcrc _ (lintelStatus_mem_requestRows 0 true 0)
  obtain ⟨t, hexec, hdone⟩ := lintelStatus_passDue 0 lintelWaits
  have ht : t = answer 0 0x0101 [] lintelWaits := Host.Outcome.next.inj (hexec.symm.trans hsame)
  rw [ht, answer_lintel] at hdone
  exact absurd hdone (by decide)

end Sys2Proof.Machine

namespace Sys2Proof.Machine

/-! The hold-up supply. -/

/-- No DATA is DATA of zeros. -/
@[simp] theorem padTo_nil (k : Nat) : padTo k [] = zeros k := by
  rw [padTo, List.nil_append, zeros, List.take_replicate, Nat.min_self]

/-- An entry for the event recorder waits behind those offered before it, with no SEQ yet and its DATA filled to 16 bytes
(21 R486, R489). -/
theorem evrec_queue (code unit subject : Nat) (data : List Byte) (s : State) :
    (evrec code unit subject data s).ev.queue = s.ev.queue ++ [⟨0, code, unit, subject, padTo 16 data⟩] := rfl

/-- A fall or a rise of HOLDUP_S in a running device takes the new level and offers the edge's entry (26 R555). -/
theorem holdupChange_of_edge {s : State} {b : Bool} (hup : s.boot.phase ≠ .reset) (hedge : s.boot.holdupS = !b) :
    holdupChange b s =
      evrec (if b then 0x1403 else 0x1402) 5 0xFF [] { s with boot := { s.boot with holdupS := b } } := by
  have hact : ¬ (s.boot.phase == .reset || b == s.boot.holdupS) = true := by simp [hup, hedge]
  exact if_neg hact

/-- HOLDUP_S at the level it has changes nothing (26 R555). -/
theorem holdupChange_of_same {s : State} {b : Bool} (hsame : s.boot.holdupS = b) : holdupChange b s = s := by
  subst hsame
  have hidle : (s.boot.phase == .reset || s.boot.holdupS == s.boot.holdupS) = true := by simp
  exact if_pos hidle

/-- Settles O25: an edge offers its entry with DATA of zeros and changes only the level and the recorder; without an edge
the state stands. -/
theorem holdupInput : Obligations.HoldupInput := by
  unfold Obligations.HoldupInput
  refine ⟨fun s b hup hedge => ⟨holdupChange b s, rfl, ?boot, ?queue, ?only⟩, fun s b hsame => ?same⟩
  case boot => rw [holdupChange_of_edge hup hedge, evrec_boot]
  case queue => rw [holdupChange_of_edge hup hedge, evrec_queue, padTo_nil]
  case only => exact holdupChange_only b (Only.refl _ s) fun _ hp => hp
  case same => exact congrArg Host.Outcome.next (holdupChange_of_same hsame)

end Sys2Proof.Machine
